-- ==== Sys2Proof/Word.lean ====
section
/-!
DEFINITION. Word.lean: the word types of the model.
-/

namespace Sys2Proof

/-- One byte of a memory, a packet or a ring entry. -/
abbrev Byte := BitVec 8

/-- A register or a 64-bit word as software sees it (R7). -/
abbrev Word64 := BitVec 64

/-- A byte sequence, lowest address first (R7). -/
abbrev Bytes := List Byte

end Sys2Proof
end

