-- ==== Sys2Proof/Syntax.lean ====
section
/-!
DEFINITION. Syntax.lean: the commands of the block, one constructor of Instr for each row of the spec's
table of operations and events. An operand carries what the outside world settles: which unit the event
is at, the contents of a message, a measured value, the result of a check that happens elsewhere.
-/

namespace Sys2Proof

/-- A core number; core 7 is absent on a grade N7 device (R1). -/
abbrev CoreIx := Fin 8
/-- A window number (R12). -/
abbrev WinIx := Fin 32
/-- A door number (R12). -/
abbrev DoorIx := Fin 16
/-- A casement number (R12). -/
abbrev CaseIx := Fin 16
/-- A mover number: 0 to 7 in the cores, 8 the host mover, 9 the snapshot mover (R19). -/
abbrev MoverIx := Fin 10
/-- A latch index (R291). -/
abbrev LatchIx := Fin 16384

/-- One optical link: a window's, or one fibre pair of a door. -/
inductive Link where
  | win (w : WinIx)
  | door (d : DoorIx) (pair : Fin 3)
deriving DecidableEq, Repr

/-- A flit that has failed its CRC: the link on which it came, and its bytes (R232, R244). -/
structure FailedFlit where
  link : Link
  bytes : Bytes
deriving DecidableEq, Repr

/-- One fibre pair of a door (R306, R307). -/
structure DoorPair where
  door : DoorIx
  pair : Fin 3
deriving DecidableEq, Repr

/-- Why a door link is DOWN: three successive retrainings have failed, or no pair of it is usable (R318). -/
inductive DownCause where
  | retrainings
  | pairs
deriving DecidableEq, Repr

/-- An uncorrectable error on the mesh: the originating unit of the packet, and, where it lies in the payload, the physical address
of the piece (R285). -/
structure MeshError where
  src : BitVec 16
  payload : Option (BitVec 57)
deriving DecidableEq, Repr

/-- The grade of a device (R1). -/
inductive Grade where
  | n8 | n7
deriving DecidableEq, Repr

/-- The strap pins sampled at the effective release (R544). -/
structure Straps where
  trayId : BitVec 2
  trayPos : BitVec 4
  feedId : BitVec 4
deriving DecidableEq, Repr

/-- The kinds of PCIe reset (R451). -/
inductive PcieResetKind where
  | hotReset | linkDown | flr
deriving DecidableEq, Repr

/-- How a PCIe completion for a device's read came back (R461, R279). -/
inductive CplResult where
  | good | poisoned | error
deriving DecidableEq, Repr

/-- The header of a door packet without its TYPE, which the command's row gives (R310). -/
structure Hdr where
  ackReq : Bool
  relayed : Bool
  sectors : BitVec 6
  tag : BitVec 16
  src : BitVec 22
  dst : BitVec 6
  job : BitVec 6
  poison : BitVec 32
  addr : BitVec 57
  epoch : BitVec 32
deriving DecidableEq, Repr

/-- What a Sill firmware command carries beside its parameters: the ring it came from, its identifier, whether
its completion asks for an interrupt, its job, and its target device (R457, R472). -/
structure Req where
  ring : BitVec 16
  cmdId : BitVec 32
  irq : Bool
  job : BitVec 6
  target : BitVec 6
deriving DecidableEq, Repr

/-- What the checks of the sill processor find (R426, R427): a memory word that is corrected, one that is not or a parity error, a
register write that reads back wrong and is rewritten, one that reads back wrong again, and a handler's control-flow signature that
does not fit, before the handler has written a device register and after. -/
inductive SillCheck where
  | corrected
  | uncorrectable
  | rewrite
  | rewriteFails
  | rerun
  | signature
deriving DecidableEq, Repr

/-- What the power manager measures of one core at a LENDING_ADJUST, in mW: its power at its base, one 5 mV step below the rail that
it is given, there, and one step above (R50). -/
structure CorePower where
  base : Nat
  under : Nat
  draw : Nat
  above : Nat
deriving DecidableEq, Repr

/-- What the power manager does and measures at a LENDING_ADJUST: the rail that it gives each core, in mV; and in mW the mean die power over 100 µs, the peak while the rails move and
for how many ns it exceeds the budget, the budget that held cores free, and the cores (R50, R51). -/
structure Lending where
  railMv : Vector (BitVec 16) 8
  mean : Nat
  peak : Nat
  peakNs : Nat
  freed : Nat
  cores : Vector CorePower 8
deriving DecidableEq, Repr

/-- How one entry of a completed SILL message or ring entry reads: 64 bytes (R459). -/
abbrev Entry := Bytes

/-- The commands. The comment before each group names the chapter that gives their meanings. -/
inductive Instr where
  -- power-up, reset and boot (chapters 2, 8, 19, 20)
  | perstAssert (ns : Nat)
  | effectiveRelease (straps : Straps)
  | railDrop (rail : Fin 8) (percent : Nat) (ns : Nat)
  | refLost (ns : Nat)
  | securityReady (katOk : Bool) (romOk : Bool) (idOk : Bool)
  | railsSet
  | casementCalibrateBoot (c : CaseIx) (aCdbm : BitVec 16) (bCdbm : BitVec 16)
  | windowsStart
  | windowLanesLocked (w : WinIx) (sledId : BitVec 64) (cap channels : BitVec 8) (linkVer : BitVec 16)
      (pairs : BitVec 3) (certOk : Bool)
  | sledChallengeResponse (w : WinIx) (sigOk : Bool)
  | sledVerifyTimeout (w : WinIx)
  | sledReady (w : WinIx)
  | bringupTimeout (w : WinIx)
  | mapForm
  | bootReady
  | pcieLinkUp (speed : BitVec 4) (width : BitVec 4)
  | pcieReset (kind : PcieResetKind)
  | tamperTrip (sensors : BitVec 8)
  -- the issue unit (chapters 2 and 7)
  | instructionFetch (c : CoreIx)
  | admission (c : CoreIx)
  | launchTimeReached (c : CoreIx) (tag : BitVec 32)
  | instructionComplete (c : CoreIx) (tag : BitVec 32)
  -- the dispatch of the oldest undispatched instruction of a queue (chapters 3 to 7, 9, 12, 14)
  | nop (c : CoreIx)
  | endInstr (c : CoreIx)
  | jmp (c : CoreIx)
  | cnt (c : CoreIx)
  | sync (c : CoreIx)
  | dload (c : CoreIx)
  | dmod (c : CoreIx)
  | dset (c : CoreIx)
  | slotset (c : CoreIx)
  | rngld (c : CoreIx)
  | rngst (c : CoreIx)
  | gmm (c : CoreIx)
  | gact (c : CoreIx)
  | tload (c : CoreIx)
  | bgather (c : CoreIx)
  | bscatter (c : CoreIx)
  | bsort (c : CoreIx)
  | bgroup (c : CoreIx)
  | bragged (c : CoreIx)
  | bunpack (c : CoreIx)
  | baudit (c : CoreIx)
  | mcopy (c : CoreIx)
  | lop (c : CoreIx)
  | barr (c : CoreIx)
  | mwait (c : CoreIx)
  | agput (c : CoreIx)
  | xdisp (c : CoreIx)
  | xrecv (c : CoreIx)
  | xret (c : CoreIx)
  -- movers and windows (chapters 8 and 9)
  | burstIssue (m : MoverIx) (ch : Fin 4096)
  | tagGrant (w : WinIx)
  | rdd (w : WinIx) (tag : BitVec 12)
  | rdp (w : WinIx) (tag : BitVec 12)
  | wack (w : WinIx) (tag : BitVec 12)
  | mgmt (w : WinIx) (op : BitVec 3) (whole : Bool)
  | flitCrcFail (flit : FailedFlit)
  | nakReceived (l : Link) (resent : BitVec 9)
  | retrain (l : Link)
  | retrainDone (l : Link) (ok : Bool) (usable : BitVec 4)
  | linkDown (w : WinIx)
  | readTimeout (w : WinIx) (tag : BitVec 12)
  | writeTimeout (w : WinIx) (tag : BitVec 12)
  | hotChannel (w : WinIx) (ch : Fin 40)
  -- latches, barriers, monitors and the mesh (chapter 10)
  | latchMessage (i : Nat)
  | watch (i : Nat)
  | latchNotification (i : Nat)
  | latchRead (i : Nat)
  | barrierArrival (i : Nat)
  | barrierRelease (i : Nat)
  | barrierWithdrawal (i : Nat)
  | monitorWrite (i : Nat)
  | mcastHoldRelease (g : Fin 32) (targets : BitVec 36)
  | meshHeader (error : MeshError)
  -- errors and observation (chapter 15)
  | residueVerdictFail (i : Nat) (parity : Bool) (path : BitVec 4) (lane : BitVec 8) (tile : Fin 8)
      (expected observed : BitVec 3) (va last : BitVec 57)
  | observationExpiry (unit : Nat)
  | csUncorr (c : CoreIx) (off : BitVec 26)
  | scrubPass (c : CoreIx)
  | poisonConsumption (job : BitVec 6) (src : BitVec 16) (unit : BitVec 8) (va : BitVec 57)
  | feState (src : BitVec 16) (unit : BitVec 8) (code : BitVec 8) (synd : BitVec 128)
  | epochClose
  -- doors (chapter 11)
  | write (d : DoorIx) (h : Hdr) (p : Bytes)
  | writeAck (d : DoorIx) (h : Hdr)
  | latchPacket (d : DoorIx) (h : Hdr)
  | retract (d : DoorIx) (h : Hdr)
  | close (d : DoorIx) (h : Hdr)
  | timeExchange (t1 t2 t3 t4 : BitVec 64) (pathUp : Bool)
  | hello (d : DoorIx) (pair : Fin 3) (peer : BitVec 6) (peerDoor : BitVec 4) (peerPair : BitVec 2)
      (serial : BitVec 64) (version : BitVec 8) (pairs : BitVec 3)
  | badPacketType (on : DoorPair) (ty : BitVec 8) (kind : BitVec 4) (sectors : BitVec 6)
  | doorDown (d : DoorIx) (pair : Fin 3) (cause : DownCause)
  | feedSwitch (c : CaseIx) (aCdbm : BitVec 16) (bCdbm : BitVec 16)
  | calibrationDone (c : CaseIx)
  | command (d : DoorIx) (h : Hdr) (p : Bytes)
  | completion (d : DoorIx) (h : Hdr) (p : Bytes)
  | record (d : DoorIx) (h : Hdr) (p : Bytes)
  | kill (d : DoorIx) (h : Hdr) (p : Bytes)
  | hostEdge (d : DoorIx) (h : Hdr) (p : Bytes)
  | event (d : DoorIx) (h : Hdr) (p : Bytes)
  -- the expert router (chapter 12)
  | summarySend (gen : BitVec 16)
  | summary (d : DoorIx) (h : Hdr) (p : Bytes)
  | token (d : DoorIx) (h : Hdr) (p : Bytes) (core : CoreIx) (choice : BitVec 2) (index : BitVec 14)
  | returnPacket (d : DoorIx) (h : Hdr) (p : Bytes)
  | batchClose (gen : BitVec 16)
  | expertCancel (gen : BitVec 16)
  -- Agate (chapter 14)
  | runOpen
  | contributionTaken
  | contrib (d : DoorIx) (h : Hdr) (p : Bytes)
  | sumStage (b : Fin 1024)
  | bucketDeadline (b : Fin 1024)
  | bucketSuccess (b : Fin 1024)
  | report (d : DoorIx) (h : Hdr) (p : Bytes)
  | verdictTimeout
  | verdict (d : DoorIx) (h : Hdr) (p : Bytes)
  -- snapshots (chapter 16)
  | snapPark
  | snapParkTimeout
  | snapSweepCopy
  | snapTouchCopy (i : Nat)
  | snapBlockDone (i : Nat)
  | reserveDrain
  | snapComplete (memberCost : BitVec 64)
  | snapAbandon (cause : BitVec 3)
  -- the management processor and tests (chapters 15 and 18)
  | heartbeatTimeout
  | romCheck (ok : Bool)
  | periodicTileTest (c : CoreIx) (t : Fin 8)
  | testStart (i : Nat)
  | testDone (i : Nat) (pass : Bool) (failing : BitVec 40)
  | tileFenceEffect (c : CoreIx)
  -- the power manager (chapter 2)
  | holdStart (c : CoreIx)
  | holdEnd (c : CoreIx)
  | lendingAdjust (lending : Lending)
  | thermalCeiling (sensor : Fin 9) (tj : BitVec 16)
  | overtemp (sensor : Fin 9) (tj : BitVec 16)
  | casementOvertemp (c : CaseIx) (tj : BitVec 16)
  | beatRateSample (c : CoreIx) (mhz : BitVec 16)
  | invalidationDone
  -- the host interface (chapter 17)
  | entryPickup
  | completionWrite (ring : BitVec 16)
  | doorbellSqTail (ring : BitVec 16) (value : BitVec 64)
  | doorbellCqHead (ring : BitVec 16) (value : BitVec 64)
  | ring0CtlWrite (value : BitVec 64)
  | bar4Read (off : BitVec 35) (len : BitVec 13)
  | bar4Write (off : BitVec 35) (data : Bytes)
  -- register writes with an effect of their own (chapters 4, 6, 9, 10, 11)
  | latchSetWrite (k : Fin 256) (value : BitVec 64)
  | latchClrWrite (k : Fin 256) (value : BitVec 64)
  | arriveWrite (value : BitVec 64)
  | barrierCfgWrite (c : Fin 2048) (value : BitVec 64) (sill : Bool)
  | mcastWrite (g : Fin 32) (value : BitVec 64) (sill : Bool)
  | moverReqRaise (m : MoverIx) (value : BitVec 64)
  | ctxDataWrite (m : MoverIx) (k : Fin 8) (value : BitVec 64) (sill : Bool)
  | invalCmd (value : BitVec 64) (sill : Bool)
  | fenceReq (c : CoreIx) (mask : BitVec 8) (sill : Bool)
  | unfenceReq (c : CoreIx) (mask : BitVec 8) (sill : Bool)
  | retireReq (c : CoreIx) (mask : BitVec 8) (sill : Bool)
  | calReq (c : CaseIx) (sill : Bool)
  | selReq (c : CaseIx) (sel : BitVec 2) (sill : Bool)
  | generatorStateWrite (c : CoreIx) (lane : Fin 256) (value : BitVec 64) (sill : Bool)
  | peerMessage (peer : BitVec 6) (step : BitVec 3) (ok : Bool)
  | registerWrite (off : BitVec 26) (size : BitVec 4) (value : BitVec 64) (sill : Bool)
  | registerReadClear (off : BitVec 26) (size : BitVec 4)
  -- Sill firmware's commands (chapter 18)
  | status (r : Req)
  | errlogRead (r : Req) (hostAddr firstSeq : BitVec 64) (max : BitVec 16)
  | regRead (r : Req) (off : BitVec 32)
  | latchOp (r : Req) (op : BitVec 8) (first countM1 : BitVec 16)
  | streamHalt (r : Req) (cores : BitVec 8) (all : Bool)
  | jobKill (r : Req)
  | batchCancel (r : Req) (gen : BitVec 16) (tray : BitVec 8)
  | linkStatus (r : Req)
  | configForm (r : Req) (members : BitVec 64) (mode : BitVec 8) (answers : BitVec 64) (dupNumber : Bool)
      (greatestNow : BitVec 64) (feeds : BitVec 256)
  | ringCreate (r : Req) (ring : BitVec 16) (log2 cls vec irq : BitVec 8) (sqBase cqBase : BitVec 64)
  | ringDestroy (r : Req) (ring : BitVec 16)
  | eventRing (r : Req) (hostAddr : BitVec 64) (log2 vec : BitVec 8) (en : Bool)
  | memLayout (r : Req) (pool reserve buddy : BitVec 64)
  | jobCreate (r : Req) (hostBase : BitVec 64)
  | jobDestroy (r : Req)
  | map (r : Req) (va : BitVec 64) (pa : BitVec 48) (flags : BitVec 8) (count : BitVec 32)
  | unmap (r : Req) (va : BitVec 64) (count : BitVec 32)
  | protect (r : Req) (va : BitVec 64) (flags : BitVec 8) (count : BitVec 32)
  | ownerTable (r : Req) (va : BitVec 64) (length : BitVec 32)
  | channelSet (r : Req) (mover : BitVec 8) (channel : BitVec 16) (word0 : BitVec 64) (clear : Bool)
  | placement (r : Req) (va : BitVec 64) (tray : BitVec 8)
  | reduceConfig (r : Req) (va : BitVec 64)
  | reduceStart (r : Req) (step : BitVec 16)
  | reduceStop (r : Req)
  | budget (r : Req) (dieW : BitVec 16) (tjCeil hyst : BitVec 8) (dwell : BitVec 16) (lend : Bool)
      (uncoreMv : BitVec 16)
  | mcastSet (r : Req) (group : BitVec 8) (valid : Bool) (targets : BitVec 64)
  | regWrite (r : Req) (off : BitVec 32) (value mask : BitVec 64)
  | streamStart (r : Req) (cores : BitVec 8) (va : BitVec 64)
  | streamResume (r : Req) (cores : BitVec 8) (va : BitVec 64)
  | programLoad (r : Req) (core : BitVec 8) (firstSlot count : BitVec 16) (va : BitVec 64)
  | hostCopy (r : Req) (dir : BitVec 8) (hostAddr va length : BitVec 64)
  | snapOpen (r : Req) (snapId : BitVec 32) (va hostAddr hostSize : BitVec 64)
  | restore (r : Req) (snapId : BitVec 32) (source : BitVec 8) (hostAddr tResume : BitVec 64)
  | stepReplay (r : Req) (step : BitVec 16)
  | test (r : Req) (kind core tile : BitVec 8) (windows : BitVec 32)
  | calibrate (r : Req) (casements : BitVec 16)
  | retire (r : Req) (kind core tile : BitVec 8)
  | attest (r : Req) (nonce : Bytes) (hostAddr : BitVec 64)
  | patchLoad (r : Req) (hostAddr : BitVec 64) (length : BitVec 32) (table : Bytes)
  -- the remaining events
  | relay (d : DoorIx) (ty : BitVec 8) (h : Hdr) (p : Bytes)
  | heartbeat
  | sillMemoryEcc (check : SillCheck)
  | syncState (src : BitVec 16) (corrected : Bool)
  | xlatParity (src : BitVec 16) (i : Nat)
  | bufferParity (src : BitVec 16) (pieces : List Nat)
  | csCorr (c : CoreIx) (off : BitVec 26)
  | d3hot (enter : Bool)
  | vauxWithinRange
  | noRoute (cmdId : BitVec 32) (dev : BitVec 6)
  | pcieReadCompletion (id : Nat) (data : Bytes) (result : CplResult)
  | completionTimeout (id : Nat)
deriving DecidableEq, Repr

end Sys2Proof
end

