-- ==== Sys2Proof/WellFormed.lean ====
section
/-!
DEFINITION. WellFormed.lean: which terms of Instr spell a command that can come. Only a door packet can be ill-formed: one
whose payload is not the 64 bytes for each sector that its header announces (R310), or whose address does not carry the KIND
of its row (R351, R391, R505).
-/

namespace Sys2Proof

/-- A payload has the length that its header announces (R310). -/
def fits (h : Hdr) (p : Bytes) : Bool := p.length == 64 * h.sectors.toNat

/-- The command is well-formed. -/
def Instr.wellFormed : Instr → Bool
  | .perstAssert _ => true
  | .effectiveRelease _ => true
  | .railDrop _ _ _ => true
  | .refLost _ => true
  | .securityReady _ _ _ => true
  | .railsSet => true
  | .casementCalibrateBoot _ _ _ => true
  | .windowsStart => true
  | .windowLanesLocked _ _ _ _ _ _ _ => true
  | .sledChallengeResponse _ _ => true
  | .sledVerifyTimeout _ => true
  | .sledReady _ => true
  | .bringupTimeout _ => true
  | .mapForm => true
  | .bootReady => true
  | .pcieLinkUp _ _ => true
  | .pcieReset _ => true
  | .tamperTrip _ => true
  | .instructionFetch _ => true
  | .admission _ => true
  | .launchTimeReached _ _ => true
  | .instructionComplete _ _ => true
  | .nop _ => true
  | .endInstr _ => true
  | .jmp _ => true
  | .cnt _ => true
  | .sync _ => true
  | .dload _ => true
  | .dmod _ => true
  | .dset _ => true
  | .slotset _ => true
  | .rngld _ => true
  | .rngst _ => true
  | .gmm _ => true
  | .gact _ => true
  | .tload _ => true
  | .bgather _ => true
  | .bscatter _ => true
  | .bsort _ => true
  | .bgroup _ => true
  | .bragged _ => true
  | .bunpack _ => true
  | .baudit _ => true
  | .mcopy _ => true
  | .lop _ => true
  | .barr _ => true
  | .mwait _ => true
  | .agput _ => true
  | .xdisp _ => true
  | .xrecv _ => true
  | .xret _ => true
  | .burstIssue _ _ => true
  | .tagGrant _ => true
  | .rdd _ _ => true
  | .rdp _ _ => true
  | .wack _ _ => true
  | .mgmt _ _ _ => true
  | .flitCrcFail _ => true
  | .nakReceived _ _ => true
  | .retrain _ => true
  | .retrainDone _ _ _ => true
  | .linkDown _ => true
  | .readTimeout _ _ => true
  | .writeTimeout _ _ => true
  | .hotChannel _ _ => true
  | .latchMessage _ => true
  | .watch _ => true
  | .latchNotification _ => true
  | .latchRead _ => true
  | .barrierArrival _ => true
  | .barrierRelease _ => true
  | .barrierWithdrawal _ => true
  | .monitorWrite _ => true
  | .mcastHoldRelease _ _ => true
  | .meshHeader _ => true
  | .residueVerdictFail _ _ _ _ _ _ _ _ _ => true
  | .observationExpiry _ => true
  | .csUncorr _ _ => true
  | .scrubPass _ => true
  | .poisonConsumption _ _ _ _ => true
  | .feState _ _ _ _ => true
  | .epochClose => true
  | .write _ h p => fits h p
  | .writeAck _ h => fits h []
  | .latchPacket _ h => fits h []
  | .retract _ h => fits h []
  | .close _ h => fits h []
  | .timeExchange _ _ _ _ _ => true
  | .hello _ _ _ _ _ _ _ _ => true
  | .badPacketType _ _ _ _ => true
  | .doorDown _ _ _ => true
  | .feedSwitch _ _ _ => true
  | .calibrationDone _ => true
  | .command _ h p => fits h p && h.addr.toNat % 16 == 1
  | .completion _ h p => fits h p && h.addr.toNat % 16 == 2
  | .record _ h p => fits h p && h.addr.toNat % 16 == 3
  | .kill _ h p => fits h p && h.addr.toNat % 16 == 4
  | .hostEdge _ h p => fits h p && h.addr.toNat % 16 == 5
  | .event _ h p => fits h p && h.addr.toNat % 16 == 6
  | .summarySend _ => true
  | .summary _ h p => fits h p && h.addr.toNat % 16 == 1
  | .token _ h p _ _ _ => fits h p && h.addr.toNat % 16 == 2
  | .returnPacket _ h p => fits h p && h.addr.toNat % 16 == 3
  | .batchClose _ => true
  | .expertCancel _ => true
  | .runOpen => true
  | .contributionTaken => true
  | .contrib _ h p => fits h p && h.addr.toNat % 8 == 1
  | .sumStage _ => true
  | .bucketDeadline _ => true
  | .bucketSuccess _ => true
  | .report _ h p => fits h p && h.addr.toNat % 8 == 2
  | .verdictTimeout => true
  | .verdict _ h p => fits h p && h.addr.toNat % 8 == 3
  | .snapPark => true
  | .snapParkTimeout => true
  | .snapSweepCopy => true
  | .snapTouchCopy _ => true
  | .snapBlockDone _ => true
  | .reserveDrain => true
  | .snapComplete _ => true
  | .snapAbandon _ => true
  | .heartbeatTimeout => true
  | .romCheck _ => true
  | .periodicTileTest _ _ => true
  | .testStart _ => true
  | .testDone _ _ _ => true
  | .tileFenceEffect _ => true
  | .holdStart _ => true
  | .holdEnd _ => true
  | .lendingAdjust _ => true
  | .thermalCeiling _ _ => true
  | .overtemp _ _ => true
  | .casementOvertemp _ _ => true
  | .beatRateSample _ _ => true
  | .invalidationDone => true
  | .entryPickup => true
  | .completionWrite _ => true
  | .doorbellSqTail _ _ => true
  | .doorbellCqHead _ _ => true
  | .ring0CtlWrite _ => true
  | .bar4Read _ _ => true
  | .bar4Write _ _ => true
  | .latchSetWrite _ _ => true
  | .latchClrWrite _ _ => true
  | .arriveWrite _ => true
  | .barrierCfgWrite _ _ _ => true
  | .mcastWrite _ _ _ => true
  | .moverReqRaise _ _ => true
  | .ctxDataWrite _ _ _ _ => true
  | .invalCmd _ _ => true
  | .fenceReq _ _ _ => true
  | .unfenceReq _ _ _ => true
  | .retireReq _ _ _ => true
  | .calReq _ _ => true
  | .selReq _ _ _ => true
  | .generatorStateWrite _ _ _ _ => true
  | .peerMessage _ _ _ => true
  | .registerWrite _ _ _ _ => true
  | .registerReadClear _ _ => true
  | .status _ => true
  | .errlogRead _ _ _ _ => true
  | .regRead _ _ => true
  | .latchOp _ _ _ _ => true
  | .streamHalt _ _ _ => true
  | .jobKill _ => true
  | .batchCancel _ _ _ => true
  | .linkStatus _ => true
  | .configForm _ _ _ _ _ _ _ => true
  | .ringCreate _ _ _ _ _ _ _ _ => true
  | .ringDestroy _ _ => true
  | .eventRing _ _ _ _ _ => true
  | .memLayout _ _ _ _ => true
  | .jobCreate _ _ => true
  | .jobDestroy _ => true
  | .map _ _ _ _ _ => true
  | .unmap _ _ _ => true
  | .protect _ _ _ _ => true
  | .ownerTable _ _ _ => true
  | .channelSet _ _ _ _ _ => true
  | .placement _ _ _ => true
  | .reduceConfig _ _ => true
  | .reduceStart _ _ => true
  | .reduceStop _ => true
  | .budget _ _ _ _ _ _ _ => true
  | .mcastSet _ _ _ _ => true
  | .regWrite _ _ _ _ => true
  | .streamStart _ _ _ => true
  | .streamResume _ _ _ => true
  | .programLoad _ _ _ _ _ => true
  | .hostCopy _ _ _ _ _ => true
  | .snapOpen _ _ _ _ _ => true
  | .restore _ _ _ _ _ => true
  | .stepReplay _ _ => true
  | .test _ _ _ _ _ => true
  | .calibrate _ _ => true
  | .retire _ _ _ _ => true
  | .attest _ _ _ => true
  | .patchLoad _ _ _ _ => true
  | .relay _ ty h p => decide (1 ≤ ty.toNat) && decide (ty.toNat ≤ 9) && fits h p
  | .heartbeat => true
  | .sillMemoryEcc _ => true
  | .syncState _ _ => true
  | .xlatParity _ _ => true
  | .bufferParity _ _ => true
  | .csCorr _ _ => true
  | .d3hot _ => true
  | .vauxWithinRange => true
  | .noRoute _ _ => true
  | .pcieReadCompletion _ _ _ => true
  | .completionTimeout _ => true

end Sys2Proof
end

