-- ==== Sys2Proof/Decode.lean ====
section
/-!
DEFINITION. Decode.lean: the command that a word of the spec's table spells. The table gives no row any bits: its commands
are register accesses, packets, operations and events, none of which has an encoding as one word.
-/

namespace Sys2Proof

/-- The command that the w of nbits bits spells: none, since no row of the table has bits. -/
def decodeTableWord (_nbits _w : Nat) : Option Instr := none

end Sys2Proof
end

