-- ==== Sys2Proof/Config.lean ====
section
/-!
DEFINITION. Config.lean: the values that the manual leaves open, as constants without a body. Nothing in
Lean can evaluate one of them, so a claim about the model holds for every value of them (log entries 6,
9, 10, 11 and 15). A free value that must be new at each use is applied to the counter State.freeCtr. One more such constant,
Config.foundImage, whose value is a snapshot's image, stands in Machine/Snap.lean (log entry 63).
-/

namespace Sys2Proof.Config

/-- A number drawn from the security block's random source (R253, R506, R514, R517), by draw number. -/
opaque random : Nat → Nat

/-- The byte that a read of host memory returns where no command of the model carries the data: by read
number and host bus address (log entry 6). -/
opaque hostByte : Nat → Nat → Byte

/-- The cached page entry that a full translation cache gives up (R181): by access number. -/
opaque cacheVictim : Nat → Nat

/-- Which bytes the security block computes for a use whose algorithm the manual takes from another
standard (R506): signatures, digests, encryption. By use number (the domain byte of R507, or 100 and above
for encryption and digests), by draw number for randomised uses, and by the input bytes; log entry 11. -/
opaque crypto : Nat → Nat → Bytes → Bytes

/-- Whether a signature or an authentication tag verifies (R507, R438): by use number and input. -/
opaque verifies : Nat → Bytes → Bool

/-- The state that a lane generator holds after a converting mcopy with stochastic rounding has faulted:
one state or the next (R268): by fault number and lane. True where the element had drawn. -/
opaque drewBeforeFault : Nat → Nat → Bool

/-- A value that the manual does not state although an instruction or a register produces it: by the log
entry that names it and the counter of free values. -/
opaque openValue : Nat → Nat → Nat

end Sys2Proof.Config
end

