-- ==== Sys2Proof/Machine/Field.lean ====
section
/-!
DEFINITION. Machine/Field.lean: what a register field is (R8, R9, R550), and the sparse association list
that holds register fields, descriptor slots and memory bytes in one canonical form.
-/

namespace Sys2Proof.Machine

/-- The access codes of R9. -/
inductive Access where
  | ro | rw | w1c | w1s | wo | rc
deriving DecidableEq, Repr

/-- A register field: the BAR0 offset of its 64-bit register, its lowest bit and width, its access code,
whether it accepts writes only from Sill firmware (R550), and its reset value (R7). -/
structure Fld where
  off : Nat
  lo : Nat
  w : Nat
  acc : Access
  sill : Bool
  reset : Nat
deriving DecidableEq, Repr

/-- The key of a field in the field store: offsets are multiples of 8, so no two fields share a key. -/
def Fld.key (f : Fld) : Nat := f.off * 64 + f.lo

/-- The value at key k of a sparse list; d where k is not listed. -/
def sparseGet {α : Type} (d : α) (k : Nat) : List (Nat × α) → α
  | [] => d
  | (k', v) :: r => if k' = k then v else sparseGet d k r

/-- Insert a key into a list with rising keys, before the first larger key. -/
def sparseInsert {α : Type} (k : Nat) (v : α) : List (Nat × α) → List (Nat × α)
  | [] => [(k, v)]
  | (k', v') :: r => if k < k' then (k, v) :: (k', v') :: r else (k', v') :: sparseInsert k v r

/-- Write v at key k; a value equal to the unlisted one leaves no entry, so that equal contents are equal
lists. -/
def sparseSet {α : Type} [DecidableEq α] (d : α) (k : Nat) (v : α) (l : List (Nat × α)) : List (Nat × α) :=
  if v = d then l.filter (fun e => decide (e.1 ≠ k))
  else sparseInsert k v (l.filter (fun e => decide (e.1 ≠ k)))

/-- The canonical form: keys strictly rising, and no entry equal to the unlisted value. -/
def sparseWf {α : Type} [DecidableEq α] (d : α) : List (Nat × α) → Bool
  | [] => true
  | [(_, v)] => decide (v ≠ d)
  | (k, v) :: (k', v') :: r => decide (v ≠ d) && decide (k < k') && sparseWf d ((k', v') :: r)

/-- Insert a number into a rising list without repeats. -/
def setInsert (k : Nat) : List Nat → List Nat
  | [] => [k]
  | k' :: r => if k < k' then k :: k' :: r else if k = k' then k' :: r else k' :: setInsert k r

/-- Remove a number from a list. -/
def setErase (k : Nat) (l : List Nat) : List Nat := l.filter (fun x => decide (x ≠ k))

/-- Strictly rising. -/
def setWf : List Nat → Bool
  | [] => true
  | [_] => true
  | a :: b :: r => decide (a < b) && setWf (b :: r)

end Sys2Proof.Machine
end

