-- ==== Sys2Proof/Machine/Regs.lean ====
section
/-!
DEFINITION. Machine/Regs.lean: every register field of the manual's register tables, by block and by the
manual's name, and for each block the list of the fields at an offset. A name that the manual uses for
several fields of one block carries the register's name in front. Bits that a table shows as — have no
field: they read as zero and ignore writes (R8).
-/

namespace Sys2Proof.Machine

/-- Block base of CORE[n] in BAR0 (R452). -/
def coreBase (n : Nat) : Nat := 0x100000 + n * 0x20000
/-- Block base of WIN[w] in BAR0 (R452). -/
def winBase (w : Nat) : Nat := 0x200000 + w * 0x4000
/-- Block base of DOOR[d] in BAR0 (R452). -/
def doorBase (d : Nat) : Nat := 0x300000 + d * 0x4000
/-- Block base of CASE[c] in BAR0 (R452). -/
def caseBase (c : Nat) : Nat := 0x340000 + c * 0x4000
/-- Block base of mover m (R281): in CORE[m] for movers 0 to 7, in GEN for 8, in SNAP for 9. -/
def moverBase (m : Nat) : Nat :=
  if m < 8 then coreBase m + 0x6000 else if m = 8 then 0x8000 else 0x3A8000

/-! ### TIME -/

/-- 0x0000 [63:0] (02, table at R56): Device time, ns (R33) -/
def Reg.TIME.NOW : Fld := ⟨0x10000 + 0x0, 0, 64, .ro, false, 0⟩
/-- 0x0008 [4] (02, table at R56): Reference lost (R35) -/
def Reg.TIME.REF_LOST : Fld := ⟨0x10000 + 0x8, 4, 1, .ro, false, 0⟩
/-- 0x0008 [3] (02, table at R56): Alignment lost since last clear (R38) -/
def Reg.TIME.ALIGN_LOST : Fld := ⟨0x10000 + 0x8, 3, 1, .w1c, false, 0⟩
/-- 0x0008 [2] (02, table at R56): A slew correction is in progress -/
def Reg.TIME.SLEWING : Fld := ⟨0x10000 + 0x8, 2, 1, .ro, false, 0⟩
/-- 0x0008 [1] (02, table at R56): Within ±3 ns of the lead; Sill firmware's configuration forming sets it -/
def Reg.TIME.ALIGNED : Fld := ⟨0x10000 + 0x8, 1, 1, .ro, false, 0⟩
/-- 0x0008 [0] (02, table at R56): This device is the time master; 1 on the lead after forming -/
def Reg.TIME.MASTER : Fld := ⟨0x10000 + 0x8, 0, 1, .ro, false, 0⟩
/-- 0x0010 [31:0] (02, table at R56): Last measured offset from the lead, signed, ps; 0 on the lead -/
def Reg.TIME.OFFSET_PS : Fld := ⟨0x10000 + 0x10, 0, 32, .ro, false, 0⟩
/-- 0x0018 [31:0] (02, table at R56): Times ALIGNED was cleared -/
def Reg.TIME.ALIGN_LOSS_CNT : Fld := ⟨0x10000 + 0x18, 0, 32, .rc, false, 0⟩

/-- The fields of the register at offset r of the block TIME: the rows of its table. -/
def Reg.TIME.fields (r : Nat) : List Fld :=
  if r = 0x0 then [Reg.TIME.NOW]
  else if r = 0x8 then [Reg.TIME.REF_LOST, Reg.TIME.ALIGN_LOST, Reg.TIME.SLEWING, Reg.TIME.ALIGNED, Reg.TIME.MASTER]
  else if r = 0x10 then [Reg.TIME.OFFSET_PS]
  else if r = 0x18 then [Reg.TIME.ALIGN_LOSS_CNT]
  else []

/-! ### CORE -/

/-- 0x1_F000 + 8·s [63:0] (02, table at R56): Slot s time, s = 0–15 -/
def Reg.CORE.LSLOT_TIME (n s : Nat) : Fld := ⟨coreBase n + 0x1F000 + 8 * s, 0, 64, .ro, false, 0⟩
/-- 0x1_F080 [15:0] (02, table at R56): Bit s: slot s loaded -/
def Reg.CORE.LSLOT_VALID (n : Nat) : Fld := ⟨coreBase n + 0x1F080, 0, 16, .ro, false, 0⟩
/-- 0x1_F088 [31:0] (02, table at R56): Lateness above which mode 2 faults with LATE; 0 never faults -/
def Reg.CORE.FAULT_NS (n : Nat) : Fld := ⟨coreBase n + 0x1F088, 0, 32, .rw, false, 0⟩
/-- 0x1_F090 [63:36] (02, table at R56): Lateness of the last late dispatch, saturating -/
def Reg.CORE.LATENESS_NS (n : Nat) : Fld := ⟨coreBase n + 0x1F090, 36, 28, .ro, false, 0⟩
/-- 0x1_F090 [35:32] (02, table at R56): Its slot -/
def Reg.CORE.LATE_SLOT (n : Nat) : Fld := ⟨coreBase n + 0x1F090, 32, 4, .ro, false, 0⟩
/-- 0x1_F098 [31:0] (02, table at R56): Late dispatches (R45) -/
def Reg.CORE.LATE_COUNT (n : Nat) : Fld := ⟨coreBase n + 0x1F098, 0, 32, .rc, false, 0⟩
/-- 0x1_E000 + 8·l [63:0] (03, table at R88): State of lane generator l, l = 0–255 (R75). Reads return a state between draws. A write of zero loads the constant in its place. -/
def Reg.CORE.LANE_STATE (n l : Nat) : Fld := ⟨coreBase n + 0x1E000 + 8 * l, 0, 64, .rw, true, 0x9E3779B97F4A7C15⟩
/-- 0x1_F100 [31:0] (03, table at R88): Elements saturated, all instructions -/
def Reg.CORE.NUM_SAT (n : Nat) : Fld := ⟨coreBase n + 0x1F100, 0, 32, .rc, false, 0⟩
/-- 0x1_F108 [31:0] (03, table at R88): Elements flushed to zero -/
def Reg.CORE.NUM_FLUSH (n : Nat) : Fld := ⟨coreBase n + 0x1F108, 0, 32, .rc, false, 0⟩
/-- 0x1_F110 [31:0] (03, table at R88): NaNs written or removed -/
def Reg.CORE.NUM_NAN (n : Nat) : Fld := ⟨coreBase n + 0x1F110, 0, 32, .rc, false, 0⟩
/-- 0x1_F118 [31:0] (03, table at R88): Tag of the last instruction with a non-zero count, as carried in error records -/
def Reg.CORE.NUM_LAST_TAG (n : Nat) : Fld := ⟨coreBase n + 0x1F118, 0, 32, .ro, false, 0⟩
/-- 0x1_F120 [59:40] (03, table at R88): Its SAT count, saturating -/
def Reg.CORE.NUM_LAST_SAT (n : Nat) : Fld := ⟨coreBase n + 0x1F120, 40, 20, .ro, false, 0⟩
/-- 0x1_F120 [39:20] (03, table at R88): Its FLUSH count, saturating -/
def Reg.CORE.NUM_LAST_FLUSH (n : Nat) : Fld := ⟨coreBase n + 0x1F120, 20, 20, .ro, false, 0⟩
/-- 0x1_F120 [19:0] (03, table at R88): Its NAN count, saturating -/
def Reg.CORE.NUM_LAST_NAN (n : Nat) : Fld := ⟨coreBase n + 0x1F120, 0, 20, .ro, false, 0⟩
/-- 0x1_F128 [1] (03, table at R88): Fault with NUMERIC on a non-zero SAT count (R88) -/
def Reg.CORE.SAT_FAULT (n : Nat) : Fld := ⟨coreBase n + 0x1F128, 1, 1, .rw, false, 0⟩
/-- 0x1_F128 [0] (03, table at R88): Fault with NUMERIC on a non-zero NAN count (R88) -/
def Reg.CORE.NAN_FAULT (n : Nat) : Fld := ⟨coreBase n + 0x1F128, 0, 1, .rw, false, 0⟩
/-- 0x0_4000 [35:32] (04, table at R118): Tiles in service (t_svc); Sill firmware's boot applies stored retirements -/
def Reg.CORE.IN_SERVICE (n : Nat) : Fld := ⟨coreBase n + 0x4000, 32, 4, .ro, false, 8⟩
/-- 0x0_4000 [31:0] (04, table at R118): Bits [4t+3:4t] for tile t: 0 in service, 1 in service under observation, 2 fenced for test, 3 fenced by retirement; other codes are not used -/
def Reg.CORE.TILE_STATE (n : Nat) : Fld := ⟨coreBase n + 0x4000, 0, 32, .ro, false, 0⟩
/-- 0x0_4008 [23:16] (04, table at R118): Bit t: fence tile t by retirement, or change a tile fenced for test to retired (R105, R107) -/
def Reg.CORE.RETIRE_REQ (n : Nat) : Fld := ⟨coreBase n + 0x4008, 16, 8, .wo, true, 0⟩
/-- 0x0_4008 [15:8] (04, table at R118): Bit t: return tile t, fenced for test, to service (R105) -/
def Reg.CORE.UNFENCE_REQ (n : Nat) : Fld := ⟨coreBase n + 0x4008, 8, 8, .wo, true, 0⟩
/-- 0x0_4008 [7:0] (04, table at R118): Bit t: fence tile t for test (R105, R107) -/
def Reg.CORE.FENCE_REQ (n : Nat) : Fld := ⟨coreBase n + 0x4008, 0, 8, .wo, true, 0⟩
/-- 0x0_4010 [63:32] (04, table at R118): Tag of the gmm in Garnet; 0 when idle -/
def Reg.CORE.GARNET_TAG (n : Nat) : Fld := ⟨coreBase n + 0x4010, 32, 32, .ro, false, 0⟩
/-- 0x0_4010 [31:0] (04, table at R118): Sweeps completed by that gmm -/
def Reg.CORE.SWEEPS_DONE (n : Nat) : Fld := ⟨coreBase n + 0x4010, 0, 32, .ro, false, 0⟩
/-- 0x0_4018 [63:0] (04, table at R118): Beats with at least one tile accumulating -/
def Reg.CORE.GARNET_BUSY (n : Nat) : Fld := ⟨coreBase n + 0x4018, 0, 64, .rc, false, 0⟩
/-- 0x0_4020 [63:0] (04, table at R118): Bubble beats (R103) -/
def Reg.CORE.GARNET_BUBBLE (n : Nat) : Fld := ⟨coreBase n + 0x4020, 0, 64, .rc, false, 0⟩
/-- 0x0_4028 [63:0] (04, table at R118): Frozen tile-beats (R104) -/
def Reg.CORE.GARNET_FREEZE (n : Nat) : Fld := ⟨coreBase n + 0x4028, 0, 64, .rc, false, 0⟩
/-- 0x0_4030 [63:0] (04, table at R118): Beats added by bank limits (R98) -/
def Reg.CORE.GARNET_CONFLICT (n : Nat) : Fld := ⟨coreBase n + 0x4030, 0, 64, .rc, false, 0⟩
/-- 0x0_4038 [63:0] (04, table at R118): Masked lane-beats (R96) -/
def Reg.CORE.GARNET_MASKED (n : Nat) : Fld := ⟨coreBase n + 0x4038, 0, 64, .rc, false, 0⟩
/-- 0x0_4040 + 8·t [31:0] (04, table at R118): Residue and parity events on tile t, t = 0–7 (R117) -/
def Reg.CORE.GARNET_RES_EVT (n t : Nat) : Fld := ⟨coreBase n + 0x4040 + 8 * t, 0, 32, .rc, false, 0⟩
/-- 0x0_4080 [63:32] (04, table at R118): ACT_FUNC: TAG of the loaded function table -/
def Reg.CORE.ACT_FUNC_TAG (n : Nat) : Fld := ⟨coreBase n + 0x4080, 32, 32, .ro, false, 0⟩
/-- 0x0_4080 [0] (04, table at R118): Function table loaded (R110) -/
def Reg.CORE.ACT_FUNC_VALID (n : Nat) : Fld := ⟨coreBase n + 0x4080, 0, 1, .ro, false, 0⟩
/-- 0x0_4088 [63:32] (04, table at R118): ACT_DERIV: TAG of the loaded derivative table -/
def Reg.CORE.ACT_DERIV_TAG (n : Nat) : Fld := ⟨coreBase n + 0x4088, 32, 32, .ro, false, 0⟩
/-- 0x0_4088 [0] (04, table at R118): Derivative table loaded (R110) -/
def Reg.CORE.ACT_DERIV_VALID (n : Nat) : Fld := ⟨coreBase n + 0x4088, 0, 1, .ro, false, 0⟩
/-- 0x0_4090 [31:0] (04, table at R118): Inputs above a table's window (R111) -/
def Reg.CORE.ACT_ABOVE (n : Nat) : Fld := ⟨coreBase n + 0x4090, 0, 32, .rc, false, 0⟩
/-- 0x0_4098 [31:0] (04, table at R118): Residue and parity events in the activation unit -/
def Reg.CORE.ACT_RES_EVT (n : Nat) : Fld := ⟨coreBase n + 0x4098, 0, 32, .rc, false, 0⟩
/-- 0x0_5000 [63:32] (05, table at R156): Tag of the Beryl instruction in flight; 0 when idle -/
def Reg.CORE.BERYL_TAG (n : Nat) : Fld := ⟨coreBase n + 0x5000, 32, 32, .ro, false, 0⟩
/-- 0x0_5000 [3:0] (05, table at R156): 0 idle, 1 index and count reading, 2 sort, 3 data, 4 tile check; other codes are not used -/
def Reg.CORE.BERYL_PHASE (n : Nat) : Fld := ⟨coreBase n + 0x5000, 0, 4, .ro, false, 0⟩
/-- 0x0_5008 [63:0] (05, table at R156): Beats with an instruction in flight -/
def Reg.CORE.BERYL_BUSY (n : Nat) : Fld := ⟨coreBase n + 0x5008, 0, 64, .rc, false, 0⟩
/-- 0x0_5010 [63:0] (05, table at R156): Indices and keys read -/
def Reg.CORE.BERYL_INDICES (n : Nat) : Fld := ⟨coreBase n + 0x5010, 0, 64, .rc, false, 0⟩
/-- 0x0_5018 [63:0] (05, table at R156): Pieces served from the coalescing cache (R124) -/
def Reg.CORE.BERYL_COALESCE (n : Nat) : Fld := ⟨coreBase n + 0x5018, 0, 64, .rc, false, 0⟩
/-- 0x0_5020 [63:0] (05, table at R156): Padding positions (R123, R126, R130) -/
def Reg.CORE.BERYL_PAD (n : Nat) : Fld := ⟨coreBase n + 0x5020, 0, 64, .rc, false, 0⟩
/-- 0x0_5028 [63:0] (05, table at R156): Contributions merged or displaced (R129, R130) -/
def Reg.CORE.BERYL_DUP (n : Nat) : Fld := ⟨coreBase n + 0x5028, 0, 64, .rc, false, 0⟩
/-- 0x0_5030 [63:0] (05, table at R156): Beats added by bank limits (R127) -/
def Reg.CORE.BERYL_CONFLICT (n : Nat) : Fld := ⟨coreBase n + 0x5030, 0, 64, .rc, false, 0⟩
/-- 0x0_5038 [63:0] (05, table at R156): Beats lost to other store users (R151) -/
def Reg.CORE.BERYL_STALL (n : Nat) : Fld := ⟨coreBase n + 0x5038, 0, 64, .rc, false, 0⟩
/-- 0x0_5040 [63:0] (05, table at R156): Rows dropped by bgroup (R136) -/
def Reg.CORE.BERYL_DROPPED (n : Nat) : Fld := ⟨coreBase n + 0x5040, 0, 64, .rc, false, 0⟩
/-- 0x0_5048 [63:0] (05, table at R156): Elements cut by TRUNCATE (R140) -/
def Reg.CORE.BERYL_TRUNC (n : Nat) : Fld := ⟨coreBase n + 0x5048, 0, 64, .rc, false, 0⟩
/-- 0x0_5050 [63:0] (05, table at R156): Tiles read with DENSE_FALLBACK (R145) -/
def Reg.CORE.BERYL_FALLBACK (n : Nat) : Fld := ⟨coreBase n + 0x5050, 0, 64, .rc, false, 0⟩
/-- 0x0_5058 [63:0] (05, table at R156): Compressed tiles read (R146) -/
def Reg.CORE.BERYL_TILES (n : Nat) : Fld := ⟨coreBase n + 0x5058, 0, 64, .rc, false, 0⟩
/-- 0x0_5060 [32] (05, table at R156): A baudit exceeded ALARM_LIMIT (R149) -/
def Reg.CORE.ALARM (n : Nat) : Fld := ⟨coreBase n + 0x5060, 32, 1, .w1c, false, 0⟩
/-- 0x0_5060 [31:0] (05, table at R156): Mispredicted rows per instruction above which ALARM sets; 0 disables -/
def Reg.CORE.ALARM_LIMIT (n : Nat) : Fld := ⟨coreBase n + 0x5060, 0, 32, .rw, false, 0⟩
/-- 0x0_5068 [31:0] (05, table at R156): Sampling seed (R138, R150) -/
def Reg.CORE.AUDIT_SEED (n : Nat) : Fld := ⟨coreBase n + 0x5068, 0, 32, .rw, false, 0⟩
/-- 0x0_5070 [63:0] (05, table at R156): Rows placed in audit tails (R138) -/
def Reg.CORE.AUDIT_SAMPLED (n : Nat) : Fld := ⟨coreBase n + 0x5070, 0, 64, .rc, false, 0⟩
/-- 0x0_5078 [63:0] (05, table at R156): Mispredicted tail rows (R148) -/
def Reg.CORE.AUDIT_MISPRED (n : Nat) : Fld := ⟨coreBase n + 0x5078, 0, 64, .rc, false, 0⟩
/-- 0x0_5080 [63:0] (05, table at R156): Mispredicted rows not made up (R148) -/
def Reg.CORE.AUDIT_LOST (n : Nat) : Fld := ⟨coreBase n + 0x5080, 0, 64, .rc, false, 0⟩
/-- 0x0_5088 [63:32] (05, table at R156): AUDIT_LAST: tag of the last baudit -/
def Reg.CORE.AUDIT_LAST_TAG (n : Nat) : Fld := ⟨coreBase n + 0x5088, 32, 32, .ro, false, 0⟩
/-- 0x0_5088 [31:0] (05, table at R156): Its mispredicted rows, saturating -/
def Reg.CORE.AUDIT_LAST_MISPRED (n : Nat) : Fld := ⟨coreBase n + 0x5088, 0, 32, .ro, false, 0⟩
/-- 0x0_5090 [31:0] (05, table at R156): Residue and parity events in Beryl (R155) -/
def Reg.CORE.BERYL_RES_EVT (n : Nat) : Fld := ⟨coreBase n + 0x5090, 0, 32, .rc, false, 0⟩
/-- 0x0_0000 [63:60] (07, table at R230): STREAM_STATUS: stream state (R191) -/
def Reg.CORE.STREAM_STATE (n : Nat) : Fld := ⟨coreBase n + 0x0, 60, 4, .ro, false, 0⟩
/-- 0x0_0000 [45:40] (07, table at R230): Job of the stream -/
def Reg.CORE.STREAM_JOB (n : Nat) : Fld := ⟨coreBase n + 0x0, 40, 6, .ro, false, 0⟩
/-- 0x0_0000 [39:32] (07, table at R230): Fault code (R225, R227); 0 when none -/
def Reg.CORE.STREAM_FAULT (n : Nat) : Fld := ⟨coreBase n + 0x0, 32, 8, .ro, false, 0⟩
/-- 0x0_0000 [31:0] (07, table at R230): Tag of that instruction -/
def Reg.CORE.FAULT_TAG (n : Nat) : Fld := ⟨coreBase n + 0x0, 0, 32, .ro, false, 0⟩
/-- 0x0_0008 [56:0] (07, table at R230): Address of the next word to be admitted -/
def Reg.CORE.PC (n : Nat) : Fld := ⟨coreBase n + 0x8, 0, 57, .ro, false, 0⟩
/-- 0x0_0010 [56:0] (07, table at R230): Address of the faulting instruction (R192, R226) -/
def Reg.CORE.FAULT_PC (n : Nat) : Fld := ⟨coreBase n + 0x10, 0, 57, .ro, false, 0⟩
/-- 0x0_0018 [31:0] (07, table at R230): Tag that the next admission receives (R195) -/
def Reg.CORE.TAG_NEXT (n : Nat) : Fld := ⟨coreBase n + 0x18, 0, 32, .ro, false, 1⟩
/-- 0x0_0020 [9:0] (07, table at R230): Instructions in the window, 0–512 -/
def Reg.CORE.IN_WINDOW (n : Nat) : Fld := ⟨coreBase n + 0x20, 0, 10, .ro, false, 0⟩
/-- 0x0_0028 [63:0] (07, table at R230): Instructions admitted -/
def Reg.CORE.ADMITTED (n : Nat) : Fld := ⟨coreBase n + 0x28, 0, 64, .rc, false, 0⟩
/-- 0x0_0030 [63:0] (07, table at R230): Instructions whose dispatch the hazard rule delayed (R202) -/
def Reg.CORE.HAZARD_WAIT (n : Nat) : Fld := ⟨coreBase n + 0x30, 0, 64, .rc, false, 0⟩
/-- 0x0_0038 [63:0] (07, table at R230): Time, in ns, during which the head of the stream waited under R200 -/
def Reg.CORE.ADMIT_WAIT_NS (n : Nat) : Fld := ⟨coreBase n + 0x38, 0, 64, .rc, false, 0⟩
/-- 0x0_0040 [63:0] (07, table at R230): Instructions discarded after faults (R226) -/
def Reg.CORE.DISCARDED (n : Nat) : Fld := ⟨coreBase n + 0x40, 0, 64, .rc, false, 0⟩
/-- 0x0_0200 + 8·k [63:0] (07, table at R230): Word k, k = 0–15, of the descriptor, as captured (R158), of the operand that the fault in STREAM_STATUS names (R551); zero when that fault names no operand -/
def Reg.CORE.FAULT_DESC (n k : Nat) : Fld := ⟨coreBase n + 0x200 + 8 * k, 0, 64, .ro, false, 0⟩
/-- 0x0_0100 + 8·c [31:0] (07, table at R230): Loop counter c, c = 0–15 -/
def Reg.CORE.LOOP_COUNT (n c : Nat) : Fld := ⟨coreBase n + 0x100 + 8 * c, 0, 32, .ro, false, 0⟩
/-- +0 [26] (09, table at R281): Route BERYL completions -/
def Reg.CORE.BERYL_EN (n : Nat) : Fld := ⟨coreBase n + 0x6800, 26, 1, .rw, false, 0⟩
/-- +0 [25:23] (09, table at R281): Mover 0–7 -/
def Reg.CORE.BERYL_MOVER (n : Nat) : Fld := ⟨coreBase n + 0x6800, 23, 3, .rw, false, 0⟩
/-- +0 [22:18] (09, table at R281): Line 0–31 -/
def Reg.CORE.BERYL_LINE (n : Nat) : Fld := ⟨coreBase n + 0x6800, 18, 5, .rw, false, 0⟩
/-- +0 [17] (09, table at R281): Route ACT completions -/
def Reg.CORE.ACT_EN (n : Nat) : Fld := ⟨coreBase n + 0x6800, 17, 1, .rw, false, 0⟩
/-- +0 [16:14] (09, table at R281): Mover 0–7 -/
def Reg.CORE.ACT_MOVER (n : Nat) : Fld := ⟨coreBase n + 0x6800, 14, 3, .rw, false, 0⟩
/-- +0 [13:9] (09, table at R281): Line 0–31 -/
def Reg.CORE.ACT_LINE (n : Nat) : Fld := ⟨coreBase n + 0x6800, 9, 5, .rw, false, 0⟩
/-- +0 [8] (09, table at R281): Route GARNET completions -/
def Reg.CORE.GARNET_EN (n : Nat) : Fld := ⟨coreBase n + 0x6800, 8, 1, .rw, false, 0⟩
/-- +0 [7:5] (09, table at R281): Mover 0–7 -/
def Reg.CORE.GARNET_MOVER (n : Nat) : Fld := ⟨coreBase n + 0x6800, 5, 3, .rw, false, 0⟩
/-- +0 [4:0] (09, table at R281): Line 0–31 -/
def Reg.CORE.GARNET_LINE (n : Nat) : Fld := ⟨coreBase n + 0x6800, 0, 5, .rw, false, 0⟩

/-- The fields of the register at offset r of the block CORE: the rows of its table. -/
def Reg.CORE.fields (n r : Nat) : List Fld :=
  if 0x1F000 ≤ r ∧ r < 0x1F080 ∧ (r - 0x1F000) % 8 = 0 then [Reg.CORE.LSLOT_TIME n ((r - 0x1F000) / 8)]
  else if r = 0x1F080 then [Reg.CORE.LSLOT_VALID n]
  else if r = 0x1F088 then [Reg.CORE.FAULT_NS n]
  else if r = 0x1F090 then [Reg.CORE.LATENESS_NS n, Reg.CORE.LATE_SLOT n]
  else if r = 0x1F098 then [Reg.CORE.LATE_COUNT n]
  else if 0x1E000 ≤ r ∧ r < 0x1E800 ∧ (r - 0x1E000) % 8 = 0 then [Reg.CORE.LANE_STATE n ((r - 0x1E000) / 8)]
  else if r = 0x1F100 then [Reg.CORE.NUM_SAT n]
  else if r = 0x1F108 then [Reg.CORE.NUM_FLUSH n]
  else if r = 0x1F110 then [Reg.CORE.NUM_NAN n]
  else if r = 0x1F118 then [Reg.CORE.NUM_LAST_TAG n]
  else if r = 0x1F120 then [Reg.CORE.NUM_LAST_SAT n, Reg.CORE.NUM_LAST_FLUSH n, Reg.CORE.NUM_LAST_NAN n]
  else if r = 0x1F128 then [Reg.CORE.SAT_FAULT n, Reg.CORE.NAN_FAULT n]
  else if r = 0x4000 then [Reg.CORE.IN_SERVICE n, Reg.CORE.TILE_STATE n]
  else if r = 0x4008 then [Reg.CORE.RETIRE_REQ n, Reg.CORE.UNFENCE_REQ n, Reg.CORE.FENCE_REQ n]
  else if r = 0x4010 then [Reg.CORE.GARNET_TAG n, Reg.CORE.SWEEPS_DONE n]
  else if r = 0x4018 then [Reg.CORE.GARNET_BUSY n]
  else if r = 0x4020 then [Reg.CORE.GARNET_BUBBLE n]
  else if r = 0x4028 then [Reg.CORE.GARNET_FREEZE n]
  else if r = 0x4030 then [Reg.CORE.GARNET_CONFLICT n]
  else if r = 0x4038 then [Reg.CORE.GARNET_MASKED n]
  else if 0x4040 ≤ r ∧ r < 0x4080 ∧ (r - 0x4040) % 8 = 0 then [Reg.CORE.GARNET_RES_EVT n ((r - 0x4040) / 8)]
  else if r = 0x4080 then [Reg.CORE.ACT_FUNC_TAG n, Reg.CORE.ACT_FUNC_VALID n]
  else if r = 0x4088 then [Reg.CORE.ACT_DERIV_TAG n, Reg.CORE.ACT_DERIV_VALID n]
  else if r = 0x4090 then [Reg.CORE.ACT_ABOVE n]
  else if r = 0x4098 then [Reg.CORE.ACT_RES_EVT n]
  else if r = 0x5000 then [Reg.CORE.BERYL_TAG n, Reg.CORE.BERYL_PHASE n]
  else if r = 0x5008 then [Reg.CORE.BERYL_BUSY n]
  else if r = 0x5010 then [Reg.CORE.BERYL_INDICES n]
  else if r = 0x5018 then [Reg.CORE.BERYL_COALESCE n]
  else if r = 0x5020 then [Reg.CORE.BERYL_PAD n]
  else if r = 0x5028 then [Reg.CORE.BERYL_DUP n]
  else if r = 0x5030 then [Reg.CORE.BERYL_CONFLICT n]
  else if r = 0x5038 then [Reg.CORE.BERYL_STALL n]
  else if r = 0x5040 then [Reg.CORE.BERYL_DROPPED n]
  else if r = 0x5048 then [Reg.CORE.BERYL_TRUNC n]
  else if r = 0x5050 then [Reg.CORE.BERYL_FALLBACK n]
  else if r = 0x5058 then [Reg.CORE.BERYL_TILES n]
  else if r = 0x5060 then [Reg.CORE.ALARM n, Reg.CORE.ALARM_LIMIT n]
  else if r = 0x5068 then [Reg.CORE.AUDIT_SEED n]
  else if r = 0x5070 then [Reg.CORE.AUDIT_SAMPLED n]
  else if r = 0x5078 then [Reg.CORE.AUDIT_MISPRED n]
  else if r = 0x5080 then [Reg.CORE.AUDIT_LOST n]
  else if r = 0x5088 then [Reg.CORE.AUDIT_LAST_TAG n, Reg.CORE.AUDIT_LAST_MISPRED n]
  else if r = 0x5090 then [Reg.CORE.BERYL_RES_EVT n]
  else if r = 0x0 then [Reg.CORE.STREAM_STATE n, Reg.CORE.STREAM_JOB n, Reg.CORE.STREAM_FAULT n, Reg.CORE.FAULT_TAG n]
  else if r = 0x8 then [Reg.CORE.PC n]
  else if r = 0x10 then [Reg.CORE.FAULT_PC n]
  else if r = 0x18 then [Reg.CORE.TAG_NEXT n]
  else if r = 0x20 then [Reg.CORE.IN_WINDOW n]
  else if r = 0x28 then [Reg.CORE.ADMITTED n]
  else if r = 0x30 then [Reg.CORE.HAZARD_WAIT n]
  else if r = 0x38 then [Reg.CORE.ADMIT_WAIT_NS n]
  else if r = 0x40 then [Reg.CORE.DISCARDED n]
  else if 0x200 ≤ r ∧ r < 0x280 ∧ (r - 0x200) % 8 = 0 then [Reg.CORE.FAULT_DESC n ((r - 0x200) / 8)]
  else if 0x100 ≤ r ∧ r < 0x180 ∧ (r - 0x100) % 8 = 0 then [Reg.CORE.LOOP_COUNT n ((r - 0x100) / 8)]
  else if r = 0x6800 then [Reg.CORE.BERYL_EN n, Reg.CORE.BERYL_MOVER n, Reg.CORE.BERYL_LINE n, Reg.CORE.ACT_EN n, Reg.CORE.ACT_MOVER n, Reg.CORE.ACT_LINE n, Reg.CORE.GARNET_EN n, Reg.CORE.GARNET_MOVER n, Reg.CORE.GARNET_LINE n]
  else []

/-! ### PWR -/

/-- 0x0000 [23:8] (02, table at R56): Dwell before hold, in units of 100 ns; 0 holds at once -/
def Reg.PWR.HOLD_DWELL : Fld := ⟨0x20000 + 0x0, 8, 16, .rw, true, 50⟩
/-- 0x0000 [0] (02, table at R56): Holding and lending enabled -/
def Reg.PWR.LEND_EN : Fld := ⟨0x20000 + 0x0, 0, 1, .rw, true, 0⟩
/-- 0x0008 [15:0] (02, table at R56): Die budget, W; above 570 acts as 570, below 480 acts as 480 -/
def Reg.PWR.DIE_W : Fld := ⟨0x20000 + 0x8, 0, 16, .rw, true, 570⟩
/-- 0x0010 [15:8] (02, table at R56): Ceiling, °C; above 105 acts as 105 -/
def Reg.PWR.TJ_CEIL : Fld := ⟨0x20000 + 0x10, 8, 8, .rw, true, 105⟩
/-- 0x0010 [7:0] (02, table at R56): Hysteresis, °C; 0 acts as 1 -/
def Reg.PWR.HYST : Fld := ⟨0x20000 + 0x10, 0, 8, .rw, true, 3⟩
/-- 0x0018 [15:0] (02, table at R56): UNCORE: uncore rail set point, mV (R30); below 680 acts as 680, above 750 as 750; rounded down to a 5 mV step; reached at 25 mV/µs -/
def Reg.PWR.SET_MV : Fld := ⟨0x20000 + 0x18, 0, 16, .rw, true, 750⟩
/-- 0x0020 [31:0] (02, table at R56): Ceiling reductions below 0.68 V (R54) -/
def Reg.PWR.THROTTLE_CNT : Fld := ⟨0x20000 + 0x20, 0, 32, .rc, false, 0⟩
/-- 0x0100 + 8·n [55:48] (02, table at R56): 0 computing, 1 held, 2 ceiling-limited, 3 absent -/
def Reg.PWR.CSTAT_STATE (n : Nat) : Fld := ⟨0x20000 + 0x100 + 8 * n, 48, 8, .ro, false, 0⟩
/-- 0x0100 + 8·n [47:32] (02, table at R56): Core hotspot, quarter °C -/
def Reg.PWR.CSTAT_TJ (n : Nat) : Fld := ⟨0x20000 + 0x100 + 8 * n, 32, 16, .ro, false, 0⟩
/-- 0x0100 + 8·n [31:16] (02, table at R56): Measured beat rate (R32) -/
def Reg.PWR.CSTAT_BEAT_MHZ (n : Nat) : Fld := ⟨0x20000 + 0x100 + 8 * n, 16, 16, .ro, false, 0⟩
/-- 0x0100 + 8·n [15:0] (02, table at R56): Core rail, mV -/
def Reg.PWR.CSTAT_RAIL_MV (n : Nat) : Fld := ⟨0x20000 + 0x100 + 8 * n, 0, 16, .ro, false, 0⟩

/-- The fields of the register at offset r of the block PWR: the rows of its table. -/
def Reg.PWR.fields (r : Nat) : List Fld :=
  if r = 0x0 then [Reg.PWR.HOLD_DWELL, Reg.PWR.LEND_EN]
  else if r = 0x8 then [Reg.PWR.DIE_W]
  else if r = 0x10 then [Reg.PWR.TJ_CEIL, Reg.PWR.HYST]
  else if r = 0x18 then [Reg.PWR.SET_MV]
  else if r = 0x20 then [Reg.PWR.THROTTLE_CNT]
  else if 0x100 ≤ r ∧ r < 0x140 ∧ (r - 0x100) % 8 = 0 then [Reg.PWR.CSTAT_STATE ((r - 0x100) / 8), Reg.PWR.CSTAT_TJ ((r - 0x100) / 8), Reg.PWR.CSTAT_BEAT_MHZ ((r - 0x100) / 8), Reg.PWR.CSTAT_RAIL_MV ((r - 0x100) / 8)]
  else []

/-! ### XLAT -/

/-- 0x0000 [47:0] (06, table at R189): Bytes of main memory in the address map; set by window bring-up (Memory windows and sleds) -/
def Reg.XLAT.MEM_TOP : Fld := ⟨0x3B0000 + 0x0, 0, 48, .ro, false, 0⟩
/-- 0x0100 [56:21] (06, table at R189): First 2 MiB unit to invalidate -/
def Reg.XLAT.INVAL_VA : Fld := ⟨0x3B0000 + 0x100, 21, 36, .rw, true, 0⟩
/-- 0x0108 [31:0] (06, table at R189): Number of 2 MiB units; 0 invalidates nothing -/
def Reg.XLAT.INVAL_PAGES : Fld := ⟨0x3B0000 + 0x108, 0, 32, .rw, true, 0⟩
/-- 0x0110 [6] (06, table at R189): Invalidate the whole job; INVAL_VA and INVAL_PAGES not used -/
def Reg.XLAT.INVAL_ALL : Fld := ⟨0x3B0000 + 0x110, 6, 1, .wo, true, 0⟩
/-- 0x0110 [5:0] (06, table at R189): Job to invalidate; writing starts it (R187) -/
def Reg.XLAT.INVAL_JOB : Fld := ⟨0x3B0000 + 0x110, 0, 6, .wo, true, 0⟩
/-- 0x0118 [63:32] (06, table at R189): Invalidations completed, wrapping at 2^32 -/
def Reg.XLAT.DONE_CNT : Fld := ⟨0x3B0000 + 0x118, 32, 32, .ro, false, 0⟩
/-- 0x0118 [1] (06, table at R189): INVAL_CMD written while busy (R188) -/
def Reg.XLAT.OVERRUN : Fld := ⟨0x3B0000 + 0x118, 1, 1, .w1c, false, 0⟩
/-- 0x0118 [0] (06, table at R189): Invalidation in progress -/
def Reg.XLAT.BUSY : Fld := ⟨0x3B0000 + 0x118, 0, 1, .ro, false, 0⟩
/-- 0x0200 [56:0] (06, table at R189): Virtual address of the last translation fault -/
def Reg.XLAT.FAULT_VA : Fld := ⟨0x3B0000 + 0x200, 0, 57, .ro, false, 0⟩
/-- 0x0208 [31:16] (06, table at R189): Source number of the faulting access (R19) -/
def Reg.XLAT.FAULT_SOURCE : Fld := ⟨0x3B0000 + 0x208, 16, 16, .ro, false, 0⟩
/-- 0x0208 [12] (06, table at R189): The faulting access was a write -/
def Reg.XLAT.FAULT_WRITE : Fld := ⟨0x3B0000 + 0x208, 12, 1, .ro, false, 0⟩
/-- 0x0208 [11:8] (06, table at R189): Reason code (R179) -/
def Reg.XLAT.FAULT_REASON : Fld := ⟨0x3B0000 + 0x208, 8, 4, .ro, false, 0⟩
/-- 0x0208 [7:6] (06, table at R189): Level reached (R179) -/
def Reg.XLAT.FAULT_LEVEL : Fld := ⟨0x3B0000 + 0x208, 6, 2, .ro, false, 0⟩
/-- 0x0208 [5:0] (06, table at R189): Job of the faulting access -/
def Reg.XLAT.FAULT_JOB : Fld := ⟨0x3B0000 + 0x208, 0, 6, .ro, false, 0⟩
/-- 0x0210 [31:0] (06, table at R189): Translation faults -/
def Reg.XLAT.FAULT_CNT : Fld := ⟨0x3B0000 + 0x210, 0, 32, .rc, false, 0⟩
/-- 0x0218 [63:0] (06, table at R189): Table entries read by walks -/
def Reg.XLAT.WALK_CNT : Fld := ⟨0x3B0000 + 0x218, 0, 64, .rc, false, 0⟩
/-- 0x0220 [63:0] (06, table at R189): Page-cache misses, all slices -/
def Reg.XLAT.MISS_CNT : Fld := ⟨0x3B0000 + 0x220, 0, 64, .rc, false, 0⟩
/-- 0x0228 [63:0] (06, table at R189): Writes held for a snapshot copy (R185) -/
def Reg.XLAT.SNAP_HOLD : Fld := ⟨0x3B0000 + 0x228, 0, 64, .rc, false, 0⟩
/-- 0x0230 [31:0] (06, table at R189): Jobs killed under R184 or R186 -/
def Reg.XLAT.KILL_CNT : Fld := ⟨0x3B0000 + 0x230, 0, 32, .rc, false, 0⟩
/-- 0x1000 + 16·j [63] (06, table at R189): JOB[j]: job j has mappings (R175) -/
def Reg.XLAT.JOB_VALID (j : Nat) : Fld := ⟨0x3B0000 + 0x1000 + 16 * j, 63, 1, .rw, true, 0⟩
/-- 0x1000 + 16·j [47:12] (06, table at R189): Physical address of the level-3 table -/
def Reg.XLAT.JOB_ROOT (j : Nat) : Fld := ⟨0x3B0000 + 0x1000 + 16 * j, 12, 36, .rw, true, 0⟩
/-- 0x1008 + 16·j [63:12] (06, table at R189): JOB[j]: host bus address of host region offset 0 (R176) -/
def Reg.XLAT.JOB_HOST_BASE (j : Nat) : Fld := ⟨0x3B0000 + 0x1008 + 16 * j, 12, 52, .rw, true, 0⟩

/-- The fields of the register at offset r of the block XLAT: the rows of its table. -/
def Reg.XLAT.fields (r : Nat) : List Fld :=
  if r = 0x0 then [Reg.XLAT.MEM_TOP]
  else if r = 0x100 then [Reg.XLAT.INVAL_VA]
  else if r = 0x108 then [Reg.XLAT.INVAL_PAGES]
  else if r = 0x110 then [Reg.XLAT.INVAL_ALL, Reg.XLAT.INVAL_JOB]
  else if r = 0x118 then [Reg.XLAT.DONE_CNT, Reg.XLAT.OVERRUN, Reg.XLAT.BUSY]
  else if r = 0x200 then [Reg.XLAT.FAULT_VA]
  else if r = 0x208 then [Reg.XLAT.FAULT_SOURCE, Reg.XLAT.FAULT_WRITE, Reg.XLAT.FAULT_REASON, Reg.XLAT.FAULT_LEVEL, Reg.XLAT.FAULT_JOB]
  else if r = 0x210 then [Reg.XLAT.FAULT_CNT]
  else if r = 0x218 then [Reg.XLAT.WALK_CNT]
  else if r = 0x220 then [Reg.XLAT.MISS_CNT]
  else if r = 0x228 then [Reg.XLAT.SNAP_HOLD]
  else if r = 0x230 then [Reg.XLAT.KILL_CNT]
  else if 0x1000 ≤ r ∧ r < 0x1400 ∧ (r - 0x1000) % 16 = 0 then [Reg.XLAT.JOB_VALID ((r - 0x1000) / 16), Reg.XLAT.JOB_ROOT ((r - 0x1000) / 16)]
  else if 0x1008 ≤ r ∧ r < 0x1408 ∧ (r - 0x1008) % 16 = 0 then [Reg.XLAT.JOB_HOST_BASE ((r - 0x1008) / 16)]
  else []

/-! ### WIN -/

/-- 0x0000 [23:16] (08, table at R262): Position of this window in the active list (R252) -/
def Reg.WIN.SLOT (w : Nat) : Fld := ⟨winBase w + 0x0, 16, 8, .ro, false, 0⟩
/-- 0x0000 [15:12] (08, table at R262): CAP from the identity record -/
def Reg.WIN.CAP (w : Nat) : Fld := ⟨winBase w + 0x0, 12, 4, .ro, false, 0⟩
/-- 0x0000 [11:9] (08, table at R262): Fibre pairs in use, 0–4 -/
def Reg.WIN.PAIRS (w : Nat) : Fld := ⟨winBase w + 0x0, 9, 3, .ro, false, 0⟩
/-- 0x0000 [8] (08, table at R262): Fewer than four pairs (R246) -/
def Reg.WIN.DEGRADED (w : Nat) : Fld := ⟨winBase w + 0x0, 8, 1, .ro, false, 0⟩
/-- 0x0000 [3:0] (08, table at R262): STATUS: window state (R258) -/
def Reg.WIN.STATE (w : Nat) : Fld := ⟨winBase w + 0x0, 0, 4, .ro, false, 0⟩
/-- 0x0008 [63:0] (08, table at R262): From the identity record -/
def Reg.WIN.SLED_ID (w : Nat) : Fld := ⟨winBase w + 0x8, 0, 64, .ro, false, 0⟩
/-- 0x0010 [28:16] (08, table at R262): Most tags in use since last read -/
def Reg.WIN.PEAK (w : Nat) : Fld := ⟨winBase w + 0x10, 16, 13, .rc, false, 0⟩
/-- 0x0010 [12:0] (08, table at R262): Tags in use, timed-out tags included (R248) -/
def Reg.WIN.INFLIGHT (w : Nat) : Fld := ⟨winBase w + 0x10, 0, 13, .ro, false, 0⟩
/-- 0x0018 [12:0] (08, table at R262): Tags per channel (R236); 0 acts as 1, above 4,096 as 4,096 -/
def Reg.WIN.CHAN_CAP (w : Nat) : Fld := ⟨winBase w + 0x18, 0, 13, .rw, true, 512⟩
/-- 0x0020 [15:0] (08, table at R262): Request timeout, µs (R247); 0 acts as 1 -/
def Reg.WIN.TIMEOUT_US (w : Nat) : Fld := ⟨winBase w + 0x20, 0, 16, .rw, true, 100⟩
/-- 0x0028 [15:0] (08, table at R262): LINK_CTL: uncorrectable codewords per ms before retraining (R245) -/
def Reg.WIN.UNCORR_LIMIT (w : Nat) : Fld := ⟨winBase w + 0x28, 0, 16, .rw, true, 64⟩
/-- 0x0030 [63:0] (08, table at R262): Reads completed -/
def Reg.WIN.READ_SECTORS (w : Nat) : Fld := ⟨winBase w + 0x30, 0, 64, .rc, false, 0⟩
/-- 0x0038 [63:0] (08, table at R262): Writes acknowledged -/
def Reg.WIN.WRITE_SECTORS (w : Nat) : Fld := ⟨winBase w + 0x38, 0, 64, .rc, false, 0⟩
/-- 0x0040 [31:0] (08, table at R262): RDP received (R241) -/
def Reg.WIN.POISON_RX (w : Nat) : Fld := ⟨winBase w + 0x40, 0, 32, .rc, false, 0⟩
/-- 0x0048 [31:0] (08, table at R262): WRP sent, timeouts included -/
def Reg.WIN.POISON_TX (w : Nat) : Fld := ⟨winBase w + 0x48, 0, 32, .rc, false, 0⟩
/-- 0x0050 [63:0] (08, table at R262): Codewords corrected, all lanes -/
def Reg.WIN.FEC_CORR (w : Nat) : Fld := ⟨winBase w + 0x50, 0, 64, .rc, false, 0⟩
/-- 0x0058 [31:0] (08, table at R262): Codewords uncorrectable -/
def Reg.WIN.FEC_UNCORR (w : Nat) : Fld := ⟨winBase w + 0x58, 0, 32, .rc, false, 0⟩
/-- 0x0060 [31:0] (08, table at R262): Flits failing CRC -/
def Reg.WIN.CRC_ERR (w : Nat) : Fld := ⟨winBase w + 0x60, 0, 32, .rc, false, 0⟩
/-- 0x0068 [31:0] (08, table at R262): Flits resent (R244) -/
def Reg.WIN.REPLAY (w : Nat) : Fld := ⟨winBase w + 0x68, 0, 32, .rc, false, 0⟩
/-- 0x0070 [31:0] (08, table at R262): Retrainings (R245) -/
def Reg.WIN.RETRAIN_CNT (w : Nat) : Fld := ⟨winBase w + 0x70, 0, 32, .rc, false, 0⟩
/-- 0x0078 [31:0] (08, table at R262): Requests timed out (R247) -/
def Reg.WIN.TIMEOUT_CNT (w : Nat) : Fld := ⟨winBase w + 0x78, 0, 32, .rc, false, 0⟩
/-- 0x0080 [31:0] (08, table at R262): Late responses discarded (R248) -/
def Reg.WIN.LATE_DISCARD (w : Nat) : Fld := ⟨winBase w + 0x80, 0, 32, .rc, false, 0⟩
/-- 0x0088 [31:0] (08, table at R262): Messages discarded (R243) -/
def Reg.WIN.PROTO_ERR (w : Nat) : Fld := ⟨winBase w + 0x88, 0, 32, .rc, false, 0⟩
/-- 0x0090 [63:32] (08, table at R262): Longest read round trip since last read -/
def Reg.WIN.RTT_MAX_NS (w : Nat) : Fld := ⟨winBase w + 0x90, 32, 32, .rc, false, 0⟩
/-- 0x0090 [31:0] (08, table at R262): Mean read round trip over the last 1 µs -/
def Reg.WIN.RTT_MEAN_NS (w : Nat) : Fld := ⟨winBase w + 0x90, 0, 32, .ro, false, 0⟩
/-- 0x0098 [63] (08, table at R262): HOT_CTL: monitor enabled -/
def Reg.WIN.HOT_EN (w : Nat) : Fld := ⟨winBase w + 0x98, 63, 1, .rw, false, 1⟩
/-- 0x0098 [44:32] (08, table at R262): Tags that make a channel hot (R256) -/
def Reg.WIN.HOT_THRESH (w : Nat) : Fld := ⟨winBase w + 0x98, 32, 13, .rw, false, 384⟩
/-- 0x0098 [31:0] (08, table at R262): Dwell before an event, µs; 0 acts as 1 -/
def Reg.WIN.HOT_DWELL_US (w : Nat) : Fld := ⟨winBase w + 0x98, 0, 32, .rw, false, 100⟩
/-- 0x00A0 [63] (08, table at R262): HOT_STATUS: a channel became hot (R256) -/
def Reg.WIN.HOT_ALERT (w : Nat) : Fld := ⟨winBase w + 0xA0, 63, 1, .w1c, false, 0⟩
/-- 0x00A0 [5:0] (08, table at R262): Last channel reported hot -/
def Reg.WIN.HOT_CHANNEL (w : Nat) : Fld := ⟨winBase w + 0xA0, 0, 6, .ro, false, 0⟩
/-- 0x00A8 [31:0] (08, table at R262): Hot-channel events -/
def Reg.WIN.HOT_CNT (w : Nat) : Fld := ⟨winBase w + 0xA8, 0, 32, .rc, false, 0⟩
/-- 0x0100 + 8·k [63:0] (08, table at R262): Sectors completed on channel k, k = 0–39 -/
def Reg.WIN.CHAN_SECT (w k : Nat) : Fld := ⟨winBase w + 0x100 + 8 * k, 0, 64, .rc, false, 0⟩
/-- 0x0200 + 8·k [12:0] (08, table at R262): Tags outstanding on channel k -/
def Reg.WIN.CHAN_OUT (w k : Nat) : Fld := ⟨winBase w + 0x200 + 8 * k, 0, 13, .ro, false, 0⟩
/-- 0x3F00 [39:32] (08, table at R262): MAP (WIN[0] only): windows in the map, 0–32 -/
def Reg.WIN.MAP_W (w : Nat) : Fld := ⟨winBase w + 0x3F00, 32, 8, .ro, false, 0⟩
/-- 0x3F00 [31:0] (08, table at R262): Bit w: window w in the map -/
def Reg.WIN.MAP_ACTIVE (w : Nat) : Fld := ⟨winBase w + 0x3F00, 0, 32, .ro, false, 0⟩
/-- 0x3F08 [4:0] (08, table at R262): MAP_L (WIN[0] only): granule bits per channel, 24 or 25 -/
def Reg.WIN.MAP_L (w : Nat) : Fld := ⟨winBase w + 0x3F08, 0, 5, .ro, false, 0⟩
/-- 0x3F10 [63:0] (08, table at R262): WIN[0] only: hash key (R253); reads zero to host software -/
def Reg.WIN.HASH_KEY (w : Nat) : Fld := ⟨winBase w + 0x3F10, 0, 64, .ro, false, 0⟩

/-- The fields of the register at offset r of the block WIN: the rows of its table. The rows of CHAN_SECT and CHAN_OUT meet from
0x200 to 0x238: a read there finds CHAN_OUT (R262; log entry 107). -/
def Reg.WIN.fields (w r : Nat) : List Fld :=
  if r = 0x0 then [Reg.WIN.SLOT w, Reg.WIN.CAP w, Reg.WIN.PAIRS w, Reg.WIN.DEGRADED w, Reg.WIN.STATE w]
  else if r = 0x8 then [Reg.WIN.SLED_ID w]
  else if r = 0x10 then [Reg.WIN.PEAK w, Reg.WIN.INFLIGHT w]
  else if r = 0x18 then [Reg.WIN.CHAN_CAP w]
  else if r = 0x20 then [Reg.WIN.TIMEOUT_US w]
  else if r = 0x28 then [Reg.WIN.UNCORR_LIMIT w]
  else if r = 0x30 then [Reg.WIN.READ_SECTORS w]
  else if r = 0x38 then [Reg.WIN.WRITE_SECTORS w]
  else if r = 0x40 then [Reg.WIN.POISON_RX w]
  else if r = 0x48 then [Reg.WIN.POISON_TX w]
  else if r = 0x50 then [Reg.WIN.FEC_CORR w]
  else if r = 0x58 then [Reg.WIN.FEC_UNCORR w]
  else if r = 0x60 then [Reg.WIN.CRC_ERR w]
  else if r = 0x68 then [Reg.WIN.REPLAY w]
  else if r = 0x70 then [Reg.WIN.RETRAIN_CNT w]
  else if r = 0x78 then [Reg.WIN.TIMEOUT_CNT w]
  else if r = 0x80 then [Reg.WIN.LATE_DISCARD w]
  else if r = 0x88 then [Reg.WIN.PROTO_ERR w]
  else if r = 0x90 then [Reg.WIN.RTT_MAX_NS w, Reg.WIN.RTT_MEAN_NS w]
  else if r = 0x98 then [Reg.WIN.HOT_EN w, Reg.WIN.HOT_THRESH w, Reg.WIN.HOT_DWELL_US w]
  else if r = 0xA0 then [Reg.WIN.HOT_ALERT w, Reg.WIN.HOT_CHANNEL w]
  else if r = 0xA8 then [Reg.WIN.HOT_CNT w]
  else if 0x100 ≤ r ∧ r < 0x200 ∧ (r - 0x100) % 8 = 0 then [Reg.WIN.CHAN_SECT w ((r - 0x100) / 8)]
  else if 0x200 ≤ r ∧ r < 0x340 ∧ (r - 0x200) % 8 = 0 then [Reg.WIN.CHAN_OUT w ((r - 0x200) / 8)]
  else if r = 0x3F00 then [Reg.WIN.MAP_W w, Reg.WIN.MAP_ACTIVE w]
  else if r = 0x3F08 then [Reg.WIN.MAP_L w]
  else if r = 0x3F10 then [Reg.WIN.HASH_KEY w]
  else []

/-! ### MOVER -/

/-- 0x0000 [32] (09, table at R281): MOVER_STATUS: a context write was ignored (R265) -/
def Reg.MOVER.CTX_BUSY (m : Nat) : Fld := ⟨moverBase m + 0x0, 32, 1, .w1c, false, 0⟩
/-- 0x0000 [24:8] (09, table at R281): Sector reads outstanding (R264) -/
def Reg.MOVER.OUTSTANDING (m : Nat) : Fld := ⟨moverBase m + 0x0, 8, 17, .ro, false, 0⟩
/-- 0x0000 [7:0] (09, table at R281): Bit s: slot s in use (R271) -/
def Reg.MOVER.SLOTS (m : Nat) : Fld := ⟨moverBase m + 0x0, 0, 8, .ro, false, 0⟩
/-- 0x0008 [11:0] (09, table at R281): CTX_SEL: context reached through CTX_DATA -/
def Reg.MOVER.CTX_SEL (m : Nat) : Fld := ⟨moverBase m + 0x8, 0, 12, .rw, true, 0⟩
/-- 0x0010 + 8·k [63:0] (09, table at R281): CTX_DATA[k], k = 0–7: word k of the selected context -/
def Reg.MOVER.CTX_DATA (m k : Nat) : Fld := ⟨moverBase m + 0x10 + 8 * k, 0, 64, .rw, true, 0⟩
/-- 0x0050 [36:32] (09, table at R281): Request line -/
def Reg.MOVER.REQ_LINE (m : Nat) : Fld := ⟨moverBase m + 0x50, 32, 5, .wo, false, 0⟩
/-- 0x0050 [15:0] (09, table at R281): Requests added (R274) -/
def Reg.MOVER.REQ_ADD (m : Nat) : Fld := ⟨moverBase m + 0x50, 0, 16, .wo, false, 0⟩
/-- 0x0100 + 8·l [15:0] (09, table at R281): Pending requests on line l, l = 0–31 -/
def Reg.MOVER.LINE_COUNT (m l : Nat) : Fld := ⟨moverBase m + 0x100 + 8 * l, 0, 16, .ro, false, 0⟩
/-- 0x0200 [63:0] (09, table at R281): Bytes read -/
def Reg.MOVER.READ_BYTES (m : Nat) : Fld := ⟨moverBase m + 0x200, 0, 64, .rc, false, 0⟩
/-- 0x0208 [63:0] (09, table at R281): Bytes written -/
def Reg.MOVER.WRITE_BYTES (m : Nat) : Fld := ⟨moverBase m + 0x208, 0, 64, .rc, false, 0⟩
/-- 0x0210 [31:0] (09, table at R281): Pre-emptions (R272) -/
def Reg.MOVER.MOVER_PREEMPT (m : Nat) : Fld := ⟨moverBase m + 0x210, 0, 32, .rc, false, 0⟩
/-- 0x0218 [31:0] (09, table at R281): Tiles stored with DENSE_FALLBACK (R277) -/
def Reg.MOVER.MOVER_FALLBACK (m : Nat) : Fld := ⟨moverBase m + 0x218, 0, 32, .rc, false, 0⟩
/-- 0x0220 [31:0] (09, table at R281): Requests lost at a full line (R274) -/
def Reg.MOVER.MOVER_REQ_OVF (m : Nat) : Fld := ⟨moverBase m + 0x220, 0, 32, .rc, false, 0⟩
/-- 0x0228 [31:0] (09, table at R281): Marked sectors copied (R279) -/
def Reg.MOVER.MOVER_POISON (m : Nat) : Fld := ⟨moverBase m + 0x228, 0, 32, .rc, false, 0⟩

/-- The fields of the register at offset r of the block MOVER: the rows of its table. -/
def Reg.MOVER.fields (m r : Nat) : List Fld :=
  if r = 0x0 then [Reg.MOVER.CTX_BUSY m, Reg.MOVER.OUTSTANDING m, Reg.MOVER.SLOTS m]
  else if r = 0x8 then [Reg.MOVER.CTX_SEL m]
  else if 0x10 ≤ r ∧ r < 0x50 ∧ (r - 0x10) % 8 = 0 then [Reg.MOVER.CTX_DATA m ((r - 0x10) / 8)]
  else if r = 0x50 then [Reg.MOVER.REQ_LINE m, Reg.MOVER.REQ_ADD m]
  else if 0x100 ≤ r ∧ r < 0x200 ∧ (r - 0x100) % 8 = 0 then [Reg.MOVER.LINE_COUNT m ((r - 0x100) / 8)]
  else if r = 0x200 then [Reg.MOVER.READ_BYTES m]
  else if r = 0x208 then [Reg.MOVER.WRITE_BYTES m]
  else if r = 0x210 then [Reg.MOVER.MOVER_PREEMPT m]
  else if r = 0x218 then [Reg.MOVER.MOVER_FALLBACK m]
  else if r = 0x220 then [Reg.MOVER.MOVER_REQ_OVF m]
  else if r = 0x228 then [Reg.MOVER.MOVER_POISON m]
  else []

/-! ### LATCH -/

/-- 0x1800 + 8·j [63:0] (10, table at R304): Bit i: latch 0x3E00 + 64j + i set by a device unit, j = 0–7 (R294) -/
def Reg.LATCH.HOST_EDGE (j : Nat) : Fld := ⟨0x80000 + 0x1800 + 8 * j, 0, 64, .w1c, false, 0⟩
/-- 0x1840 [63:0] (10, table at R304): Sets performed -/
def Reg.LATCH.LATCH_SETS : Fld := ⟨0x80000 + 0x1840, 0, 64, .rc, false, 0⟩
/-- 0x1848 [63:0] (10, table at R304): Clears performed -/
def Reg.LATCH.LATCH_CLEARS : Fld := ⟨0x80000 + 0x1848, 0, 64, .rc, false, 0⟩
/-- 0x1850 [31:0] (10, table at R304): Beats in which a set and a clear of one latch arrived together (R291) -/
def Reg.LATCH.COLLIDE : Fld := ⟨0x80000 + 0x1850, 0, 32, .rc, false, 0⟩
/-- 0x1_0000 + 8·g [63] (10, table at R304): MCAST[g]: group g in use, g = 0–31 -/
def Reg.LATCH.MCAST_VALID (g : Nat) : Fld := ⟨0x80000 + 0x10000 + 8 * g, 63, 1, .rw, true, 0⟩
/-- 0x1_0000 + 8·g [39:37] (10, table at R304): Packets in flight, 0–4 (R289) -/
def Reg.LATCH.MCAST_INFLIGHT (g : Nat) : Fld := ⟨0x80000 + 0x10000 + 8 * g, 37, 3, .ro, false, 0⟩
/-- 0x1_0000 + 8·g [35:0] (10, table at R304): Bit r: router r is a target (R288) -/
def Reg.LATCH.MCAST_TARGETS (g : Nat) : Fld := ⟨0x80000 + 0x10000 + 8 * g, 0, 36, .rw, true, 0⟩
/-- 0x1_0100 [31:0] (10, table at R304): Copies placed in hold (R290) -/
def Reg.LATCH.MCAST_HOLD : Fld := ⟨0x80000 + 0x10100, 0, 32, .rc, false, 0⟩
/-- 0x1_0108 [7:0] (10, table at R304): Copies held now, all routers -/
def Reg.LATCH.HELD_NOW : Fld := ⟨0x80000 + 0x10108, 0, 8, .ro, false, 0⟩
/-- 0x1_0110 [63:0] (10, table at R304): Corrected flit errors (R285) -/
def Reg.LATCH.NET_ECC_CORR : Fld := ⟨0x80000 + 0x10110, 0, 64, .rc, false, 0⟩
/-- 0x1_0118 [31:0] (10, table at R304): Uncorrectable flit errors -/
def Reg.LATCH.NET_ECC_UNCORR : Fld := ⟨0x80000 + 0x10118, 0, 32, .rc, false, 0⟩
/-- 0x1_0200 + 8·r [63:0] (10, table at R304): Flits forwarded by router r, r = 0–35 -/
def Reg.LATCH.ROUTER_FLITS (r : Nat) : Fld := ⟨0x80000 + 0x10200 + 8 * r, 0, 64, .rc, false, 0⟩
/-- 0x1_0400 + 8·r [31:16] (10, table at R304): Control packets past the bound of R287 that waited longest here -/
def Reg.LATCH.OVER_BOUND (r : Nat) : Fld := ⟨0x80000 + 0x10400 + 8 * r, 16, 16, .rc, false, 0⟩
/-- 0x1_0400 + 8·r [15:0] (10, table at R304): Longest wait of a control packet at router r, mesh beats -/
def Reg.LATCH.ROUTER_MAXWAIT (r : Nat) : Fld := ⟨0x80000 + 0x10400 + 8 * r, 0, 16, .rc, false, 0⟩

/-- The fields of the register at offset r of the block LATCH: the rows of its table. -/
def Reg.LATCH.fields (r : Nat) : List Fld :=
  if 0x1800 ≤ r ∧ r < 0x1840 ∧ (r - 0x1800) % 8 = 0 then [Reg.LATCH.HOST_EDGE ((r - 0x1800) / 8)]
  else if r = 0x1840 then [Reg.LATCH.LATCH_SETS]
  else if r = 0x1848 then [Reg.LATCH.LATCH_CLEARS]
  else if r = 0x1850 then [Reg.LATCH.COLLIDE]
  else if 0x10000 ≤ r ∧ r < 0x10100 ∧ (r - 0x10000) % 8 = 0 then [Reg.LATCH.MCAST_VALID ((r - 0x10000) / 8), Reg.LATCH.MCAST_INFLIGHT ((r - 0x10000) / 8), Reg.LATCH.MCAST_TARGETS ((r - 0x10000) / 8)]
  else if r = 0x10100 then [Reg.LATCH.MCAST_HOLD]
  else if r = 0x10108 then [Reg.LATCH.HELD_NOW]
  else if r = 0x10110 then [Reg.LATCH.NET_ECC_CORR]
  else if r = 0x10118 then [Reg.LATCH.NET_ECC_UNCORR]
  else if 0x10200 ≤ r ∧ r < 0x10320 ∧ (r - 0x10200) % 8 = 0 then [Reg.LATCH.ROUTER_FLITS ((r - 0x10200) / 8)]
  else if 0x10400 ≤ r ∧ r < 0x10520 ∧ (r - 0x10400) % 8 = 0 then [Reg.LATCH.OVER_BOUND ((r - 0x10400) / 8), Reg.LATCH.ROUTER_MAXWAIT ((r - 0x10400) / 8)]
  else []

/-! ### BARRIER -/

/-- 0x0000 + 16·c [63] (10, table at R304): CFG[c]: counter configured, c = 0–2,047 -/
def Reg.BARRIER.CFG_VALID (c : Nat) : Fld := ⟨0xA0000 + 0x0 + 16 * c, 63, 1, .rw, false, 0⟩
/-- 0x0000 + 16·c [47] (10, table at R304): Set a latch at each close -/
def Reg.BARRIER.CFG_POST_V (c : Nat) : Fld := ⟨0xA0000 + 0x0 + 16 * c, 47, 1, .rw, false, 0⟩
/-- 0x0000 + 16·c [46:33] (10, table at R304): Latch index -/
def Reg.BARRIER.CFG_POST (c : Nat) : Fld := ⟨0xA0000 + 0x0 + 16 * c, 33, 14, .rw, false, 0⟩
/-- 0x0000 + 16·c [8:0] (10, table at R304): Participants: bits 0–7 cores, bit 8 host (R295) -/
def Reg.BARRIER.CFG_PART (c : Nat) : Fld := ⟨0xA0000 + 0x0 + 16 * c, 0, 9, .rw, false, 0⟩
/-- 0x0008 + 16·c [63:32] (10, table at R304): STATE[c]: phases closed, wrapping at 2^32 -/
def Reg.BARRIER.CLOSE_CNT (c : Nat) : Fld := ⟨0xA0000 + 0x8 + 16 * c, 32, 32, .ro, false, 0⟩
/-- 0x0008 + 16·c [18] (10, table at R304): Current phase -/
def Reg.BARRIER.PHASE (c : Nat) : Fld := ⟨0xA0000 + 0x8 + 16 * c, 18, 1, .ro, false, 0⟩
/-- 0x0008 + 16·c [17:9] (10, table at R304): Arrivals held for the next phase (R296) -/
def Reg.BARRIER.EARLY (c : Nat) : Fld := ⟨0xA0000 + 0x8 + 16 * c, 9, 9, .ro, false, 0⟩
/-- 0x0008 + 16·c [8:0] (10, table at R304): Arrivals counted in the open phase -/
def Reg.BARRIER.ARRIVED (c : Nat) : Fld := ⟨0xA0000 + 0x8 + 16 * c, 0, 9, .ro, false, 0⟩
/-- 0x8000 [10:0] (10, table at R304): Host arrival at this counter -/
def Reg.BARRIER.ARRIVE_COUNTER : Fld := ⟨0xA0000 + 0x8000, 0, 11, .wo, false, 0⟩
/-- 0x8008 [1] (10, table at R304): A CFG write was ignored (R299) -/
def Reg.BARRIER.CFG_BUSY : Fld := ⟨0xA0000 + 0x8008, 1, 1, .w1c, false, 0⟩
/-- 0x8008 [0] (10, table at R304): A host arrival was ignored (R297) -/
def Reg.BARRIER.HOST_OVF : Fld := ⟨0xA0000 + 0x8008, 0, 1, .w1c, false, 0⟩
/-- 0x8010 [63:0] (10, table at R304): Arrivals held early -/
def Reg.BARRIER.EARLY_CNT : Fld := ⟨0xA0000 + 0x8010, 0, 64, .rc, false, 0⟩
/-- 0x8018 [31:0] (10, table at R304): Arrivals refused (R295) -/
def Reg.BARRIER.REFUSED : Fld := ⟨0xA0000 + 0x8018, 0, 32, .rc, false, 0⟩
/-- 0x9000 + 16·m [63] (10, table at R304): MON[m]: monitor armed, m = 0–255 -/
def Reg.BARRIER.MON_ARMED (m : Nat) : Fld := ⟨0xA0000 + 0x9000 + 16 * m, 63, 1, .ro, false, 0⟩
/-- 0x9000 + 16·m [59:56] (10, table at R304): Core whose stream armed it -/
def Reg.BARRIER.MON_CORE (m : Nat) : Fld := ⟨0xA0000 + 0x9000 + 16 * m, 56, 4, .ro, false, 0⟩
/-- 0x9000 + 16·m [55:54] (10, table at R304): Condition code (R222) -/
def Reg.BARRIER.MON_COND (m : Nat) : Fld := ⟨0xA0000 + 0x9000 + 16 * m, 54, 2, .ro, false, 0⟩
/-- 0x9000 + 16·m [53:48] (10, table at R304): Job of that stream -/
def Reg.BARRIER.MON_JOB (m : Nat) : Fld := ⟨0xA0000 + 0x9000 + 16 * m, 48, 6, .ro, false, 0⟩
/-- 0x9000 + 16·m [47:3] (10, table at R304): Physical address of the word -/
def Reg.BARRIER.MON_PA (m : Nat) : Fld := ⟨0xA0000 + 0x9000 + 16 * m, 3, 45, .ro, false, 0⟩
/-- 0x9008 + 16·m [63:0] (10, table at R304): Comparand of monitor m -/
def Reg.BARRIER.MON_COMPARAND (m : Nat) : Fld := ⟨0xA0000 + 0x9008 + 16 * m, 0, 64, .ro, false, 0⟩
/-- 0xA000 [63:0] (10, table at R304): Monitors woken (R300) -/
def Reg.BARRIER.MON_WAKE : Fld := ⟨0xA0000 + 0xA000, 0, 64, .rc, false, 0⟩
/-- 0xA008 [63:0] (10, table at R304): Writes evaluated against armed monitors -/
def Reg.BARRIER.MON_WRITES : Fld := ⟨0xA0000 + 0xA008, 0, 64, .rc, false, 0⟩

/-- The fields of the register at offset r of the block BARRIER: the rows of its table. -/
def Reg.BARRIER.fields (r : Nat) : List Fld :=
  if 0x0 ≤ r ∧ r < 0x8000 ∧ (r - 0x0) % 16 = 0 then [Reg.BARRIER.CFG_VALID ((r - 0x0) / 16), Reg.BARRIER.CFG_POST_V ((r - 0x0) / 16), Reg.BARRIER.CFG_POST ((r - 0x0) / 16), Reg.BARRIER.CFG_PART ((r - 0x0) / 16)]
  else if 0x8 ≤ r ∧ r < 0x8008 ∧ (r - 0x8) % 16 = 0 then [Reg.BARRIER.CLOSE_CNT ((r - 0x8) / 16), Reg.BARRIER.PHASE ((r - 0x8) / 16), Reg.BARRIER.EARLY ((r - 0x8) / 16), Reg.BARRIER.ARRIVED ((r - 0x8) / 16)]
  else if r = 0x8000 then [Reg.BARRIER.ARRIVE_COUNTER]
  else if r = 0x8008 then [Reg.BARRIER.CFG_BUSY, Reg.BARRIER.HOST_OVF]
  else if r = 0x8010 then [Reg.BARRIER.EARLY_CNT]
  else if r = 0x8018 then [Reg.BARRIER.REFUSED]
  else if 0x9000 ≤ r ∧ r < 0xA000 ∧ (r - 0x9000) % 16 = 0 then [Reg.BARRIER.MON_ARMED ((r - 0x9000) / 16), Reg.BARRIER.MON_CORE ((r - 0x9000) / 16), Reg.BARRIER.MON_COND ((r - 0x9000) / 16), Reg.BARRIER.MON_JOB ((r - 0x9000) / 16), Reg.BARRIER.MON_PA ((r - 0x9000) / 16)]
  else if 0x9008 ≤ r ∧ r < 0xA008 ∧ (r - 0x9008) % 16 = 0 then [Reg.BARRIER.MON_COMPARAND ((r - 0x9008) / 16)]
  else if r = 0xA000 then [Reg.BARRIER.MON_WAKE]
  else if r = 0xA008 then [Reg.BARRIER.MON_WRITES]
  else []

/-! ### DOOR -/

/-- 0x0000 + 8·k [21:16] (11, table at R330): Peer device number -/
def Reg.DOOR.PEER (d k : Nat) : Fld := ⟨doorBase d + 0x0 + 8 * k, 16, 6, .ro, false, 0⟩
/-- 0x0000 + 8·k [15:12] (11, table at R330): Peer door -/
def Reg.DOOR.PEER_DOOR (d k : Nat) : Fld := ⟨doorBase d + 0x0 + 8 * k, 12, 4, .ro, false, 0⟩
/-- 0x0000 + 8·k [11:10] (11, table at R330): Peer pair, door 15 only -/
def Reg.DOOR.PEER_PAIR (d k : Nat) : Fld := ⟨doorBase d + 0x0 + 8 * k, 10, 2, .ro, false, 0⟩
/-- 0x0000 + 8·k [9:7] (11, table at R330): Pairs in use -/
def Reg.DOOR.PAIRS (d k : Nat) : Fld := ⟨doorBase d + 0x0 + 8 * k, 7, 3, .ro, false, 0⟩
/-- 0x0000 + 8·k [6] (11, table at R330): Fewer pairs than the link has -/
def Reg.DOOR.DEGRADED (d k : Nat) : Fld := ⟨doorBase d + 0x0 + 8 * k, 6, 1, .ro, false, 0⟩
/-- 0x0000 + 8·k [3:0] (11, table at R330): 0 OFF, 1 TRAIN, 2 HELLO, 3 UP, 4 RETRAIN, 5 EXCLUDED, 6 DOWN; other codes are not used -/
def Reg.DOOR.LINK_STATE (d k : Nat) : Fld := ⟨doorBase d + 0x0 + 8 * k, 0, 4, .ro, false, 0⟩
/-- 0x0018 [63:0] (11, table at R330): From HELLO -/
def Reg.DOOR.PEER_SERIAL (d : Nat) : Fld := ⟨doorBase d + 0x18, 0, 64, .ro, false, 0⟩
/-- 0x0020 [15:0] (11, table at R330): LINK_CTL, as R245 -/
def Reg.DOOR.UNCORR_LIMIT (d : Nat) : Fld := ⟨doorBase d + 0x20, 0, 16, .rw, true, 64⟩
/-- 0x0028 [63:0] (11, table at R330): Packet bytes sent -/
def Reg.DOOR.TX_BYTES (d : Nat) : Fld := ⟨doorBase d + 0x28, 0, 64, .rc, false, 0⟩
/-- 0x0030 [63:0] (11, table at R330): Packet bytes received -/
def Reg.DOOR.RX_BYTES (d : Nat) : Fld := ⟨doorBase d + 0x30, 0, 64, .rc, false, 0⟩
/-- 0x0038 [63:0] (11, table at R330): Codewords corrected -/
def Reg.DOOR.FEC_CORR (d : Nat) : Fld := ⟨doorBase d + 0x38, 0, 64, .rc, false, 0⟩
/-- 0x0040 [63:32] (11, table at R330): Flits failing CRC -/
def Reg.DOOR.CRC_ERR (d : Nat) : Fld := ⟨doorBase d + 0x40, 32, 32, .rc, false, 0⟩
/-- 0x0040 [31:0] (11, table at R330): Flits resent -/
def Reg.DOOR.REPLAY (d : Nat) : Fld := ⟨doorBase d + 0x40, 0, 32, .rc, false, 0⟩
/-- 0x0048 [63:32] (11, table at R330): Retrainings -/
def Reg.DOOR.RETRAIN_CNT (d : Nat) : Fld := ⟨doorBase d + 0x48, 32, 32, .rc, false, 0⟩
/-- 0x0048 [31:0] (11, table at R330): Packets discarded (R310) -/
def Reg.DOOR.PROTO_ERR (d : Nat) : Fld := ⟨doorBase d + 0x48, 0, 32, .rc, false, 0⟩
/-- 0x0050 [29:16] (11, table at R330): Most entries since last read -/
def Reg.DOOR.LEDGER_PEAK (d : Nat) : Fld := ⟨doorBase d + 0x50, 16, 14, .rc, false, 0⟩
/-- 0x0050 [13:0] (11, table at R330): Entries held (R320) -/
def Reg.DOOR.LEDGER_USED (d : Nat) : Fld := ⟨doorBase d + 0x50, 0, 14, .ro, false, 0⟩
/-- 0x0058 [63:0] (11, table at R330): Time without bulk credits -/
def Reg.DOOR.LEDGER_FULL_NS (d : Nat) : Fld := ⟨doorBase d + 0x58, 0, 64, .rc, false, 0⟩
/-- 0x0060 [63:32] (11, table at R330): Retractions received -/
def Reg.DOOR.RETRACT_RX (d : Nat) : Fld := ⟨doorBase d + 0x60, 32, 32, .rc, false, 0⟩
/-- 0x0060 [31:0] (11, table at R330): Sectors poisoned (R318, R321) -/
def Reg.DOOR.POISONED_SECT (d : Nat) : Fld := ⟨doorBase d + 0x60, 0, 32, .rc, false, 0⟩
/-- 0x0068 [63:0] (11, table at R330): Packets relayed (R308) -/
def Reg.DOOR.RELAY_PKTS (d : Nat) : Fld := ⟨doorBase d + 0x68, 0, 64, .rc, false, 0⟩
/-- 0x0070 [31:0] (11, table at R330): Longest egress wait of a control packet, ns -/
def Reg.DOOR.CTRL_MAXWAIT (d : Nat) : Fld := ⟨doorBase d + 0x70, 0, 32, .rc, false, 0⟩
/-- 0x3F00 [63] (11, table at R330): CONFIG: configuration formed -/
def Reg.DOOR.FORMED (d : Nat) : Fld := ⟨doorBase d + 0x3F00, 63, 1, .ro, false, 0⟩
/-- 0x3F00 [62] (11, table at R330): This device is the lead -/
def Reg.DOOR.IS_LEAD (d : Nat) : Fld := ⟨doorBase d + 0x3F00, 62, 1, .ro, false, 0⟩
/-- 0x3F00 [53:48] (11, table at R330): Lead's device number -/
def Reg.DOOR.LEAD (d : Nat) : Fld := ⟨doorBase d + 0x3F00, 48, 6, .ro, false, 0⟩
/-- 0x3F00 [5:0] (11, table at R330): Own device number -/
def Reg.DOOR.SELF (d : Nat) : Fld := ⟨doorBase d + 0x3F00, 0, 6, .ro, false, 0⟩
/-- 0x3F08 [63:0] (11, table at R330): Bit i: device i in the configuration -/
def Reg.DOOR.MEMBERS (d : Nat) : Fld := ⟨doorBase d + 0x3F08, 0, 64, .ro, false, 0⟩
/-- 0x3F10 [31:0] (11, table at R330): Last epoch closed (R317) -/
def Reg.DOOR.CLOSED_EPOCH (d : Nat) : Fld := ⟨doorBase d + 0x3F10, 0, 32, .ro, false, 0⟩
/-- 0x3F18 [31:0] (11, table at R330): Retractions sent -/
def Reg.DOOR.RETRACT_TX (d : Nat) : Fld := ⟨doorBase d + 0x3F18, 0, 32, .rc, false, 0⟩
/-- 0x3F20 [63:32] (11, table at R330): LAST_RETRACT: retracted epoch -/
def Reg.DOOR.LAST_RETRACT_EPOCH (d : Nat) : Fld := ⟨doorBase d + 0x3F20, 32, 32, .ro, false, 0⟩
/-- 0x3F20 [21:0] (11, table at R330): Global source of the failing unit -/
def Reg.DOOR.LAST_RETRACT_SRC (d : Nat) : Fld := ⟨doorBase d + 0x3F20, 0, 22, .ro, false, 0⟩

/-- The fields of the register at offset r of the block DOOR: the rows of its table. -/
def Reg.DOOR.fields (d r : Nat) : List Fld :=
  if 0x0 ≤ r ∧ r < 0x18 ∧ (r - 0x0) % 8 = 0 then [Reg.DOOR.PEER d ((r - 0x0) / 8), Reg.DOOR.PEER_DOOR d ((r - 0x0) / 8), Reg.DOOR.PEER_PAIR d ((r - 0x0) / 8), Reg.DOOR.PAIRS d ((r - 0x0) / 8), Reg.DOOR.DEGRADED d ((r - 0x0) / 8), Reg.DOOR.LINK_STATE d ((r - 0x0) / 8)]
  else if r = 0x18 then [Reg.DOOR.PEER_SERIAL d]
  else if r = 0x20 then [Reg.DOOR.UNCORR_LIMIT d]
  else if r = 0x28 then [Reg.DOOR.TX_BYTES d]
  else if r = 0x30 then [Reg.DOOR.RX_BYTES d]
  else if r = 0x38 then [Reg.DOOR.FEC_CORR d]
  else if r = 0x40 then [Reg.DOOR.CRC_ERR d, Reg.DOOR.REPLAY d]
  else if r = 0x48 then [Reg.DOOR.RETRAIN_CNT d, Reg.DOOR.PROTO_ERR d]
  else if r = 0x50 then [Reg.DOOR.LEDGER_PEAK d, Reg.DOOR.LEDGER_USED d]
  else if r = 0x58 then [Reg.DOOR.LEDGER_FULL_NS d]
  else if r = 0x60 then [Reg.DOOR.RETRACT_RX d, Reg.DOOR.POISONED_SECT d]
  else if r = 0x68 then [Reg.DOOR.RELAY_PKTS d]
  else if r = 0x70 then [Reg.DOOR.CTRL_MAXWAIT d]
  else if r = 0x3F00 then [Reg.DOOR.FORMED d, Reg.DOOR.IS_LEAD d, Reg.DOOR.LEAD d, Reg.DOOR.SELF d]
  else if r = 0x3F08 then [Reg.DOOR.MEMBERS d]
  else if r = 0x3F10 then [Reg.DOOR.CLOSED_EPOCH d]
  else if r = 0x3F18 then [Reg.DOOR.RETRACT_TX d]
  else if r = 0x3F20 then [Reg.DOOR.LAST_RETRACT_EPOCH d, Reg.DOOR.LAST_RETRACT_SRC d]
  else []

/-! ### CASE -/

/-- 0x0000 [47:32] (11, table at R330): Feed B lowest power, signed, 0.01 dBm -/
def Reg.CASE.B_CDBM (c : Nat) : Fld := ⟨caseBase c + 0x0, 32, 16, .ro, false, 0⟩
/-- 0x0000 [31:16] (11, table at R330): Feed A lowest power, signed, 0.01 dBm -/
def Reg.CASE.A_CDBM (c : Nat) : Fld := ⟨caseBase c + 0x0, 16, 16, .ro, false, 0⟩
/-- 0x0000 [2] (11, table at R330): Feed B good -/
def Reg.CASE.B_OK (c : Nat) : Fld := ⟨caseBase c + 0x0, 2, 1, .ro, false, 0⟩
/-- 0x0000 [1] (11, table at R330): Feed A good -/
def Reg.CASE.A_OK (c : Nat) : Fld := ⟨caseBase c + 0x0, 1, 1, .ro, false, 0⟩
/-- 0x0000 [0] (11, table at R330): 0 feed A, 1 feed B -/
def Reg.CASE.ACTIVE (c : Nat) : Fld := ⟨caseBase c + 0x0, 0, 1, .ro, false, 0⟩
/-- 0x0008 [17:16] (11, table at R330): 1 select A, 2 select B, if good; 0 and 3 no effect -/
def Reg.CASE.SEL_REQ (c : Nat) : Fld := ⟨caseBase c + 0x8, 16, 2, .wo, true, 0⟩
/-- 0x0008 [15:0] (11, table at R330): Good threshold, signed, 0.01 dBm -/
def Reg.CASE.THRESH (c : Nat) : Fld := ⟨caseBase c + 0x8, 0, 16, .rw, true, 1200⟩
/-- 0x0010 [31:0] (11, table at R330): Switches (R328) -/
def Reg.CASE.FEED_SWITCH_CNT (c : Nat) : Fld := ⟨caseBase c + 0x10, 0, 32, .rc, false, 0⟩
/-- 0x0018 [11:8] (11, table at R330): 0 none, 1 sled of window 2c, 2 sled of window 2c + 1, 3–5 door peer on pair 0–2 -/
def Reg.CASE.SPARE_FAR (c : Nat) : Fld := ⟨caseBase c + 0x18, 8, 4, .rw, true, 0⟩
/-- 0x0018 [7:4] (11, table at R330): Pair replaced: 0–3 window 2c, 4–7 window 2c + 1, 8–10 door pairs 0–2 -/
def Reg.CASE.SPARE_FOR (c : Nat) : Fld := ⟨caseBase c + 0x18, 4, 4, .ro, false, 0⟩
/-- 0x0018 [3:0] (11, table at R330): 0 free, 1 granted -/
def Reg.CASE.SPARE_STATE (c : Nat) : Fld := ⟨caseBase c + 0x18, 0, 4, .ro, false, 0⟩
/-- 0x0020 [63:32] (11, table at R330): CAL: calibrations completed -/
def Reg.CASE.CAL_CNT (c : Nat) : Fld := ⟨caseBase c + 0x20, 32, 32, .rc, false, 0⟩
/-- 0x0020 [2] (11, table at R330): Start calibration (R329) -/
def Reg.CASE.CAL_REQ (c : Nat) : Fld := ⟨caseBase c + 0x20, 2, 1, .wo, true, 0⟩
/-- 0x0020 [1:0] (11, table at R330): 0 idle, 1 running, 2 pending -/
def Reg.CASE.CAL_STATE (c : Nat) : Fld := ⟨caseBase c + 0x20, 0, 2, .ro, false, 0⟩
/-- 0x0028 [31:16] (11, table at R330): Casement power, W -/
def Reg.CASE.POWER_W (c : Nat) : Fld := ⟨caseBase c + 0x28, 16, 16, .ro, false, 0⟩
/-- 0x0028 [15:0] (11, table at R330): Casement hotspot, quarter °C -/
def Reg.CASE.TJ (c : Nat) : Fld := ⟨caseBase c + 0x28, 0, 16, .ro, false, 0⟩

/-- The fields of the register at offset r of the block CASE: the rows of its table. -/
def Reg.CASE.fields (c r : Nat) : List Fld :=
  if r = 0x0 then [Reg.CASE.B_CDBM c, Reg.CASE.A_CDBM c, Reg.CASE.B_OK c, Reg.CASE.A_OK c, Reg.CASE.ACTIVE c]
  else if r = 0x8 then [Reg.CASE.SEL_REQ c, Reg.CASE.THRESH c]
  else if r = 0x10 then [Reg.CASE.FEED_SWITCH_CNT c]
  else if r = 0x18 then [Reg.CASE.SPARE_FAR c, Reg.CASE.SPARE_FOR c, Reg.CASE.SPARE_STATE c]
  else if r = 0x20 then [Reg.CASE.CAL_CNT c, Reg.CASE.CAL_REQ c, Reg.CASE.CAL_STATE c]
  else if r = 0x28 then [Reg.CASE.POWER_W c, Reg.CASE.TJ c]
  else []

/-! ### EXPERT -/

/-- 0x0000 [31:24] (12, table at R353): Bit n: core n dispatches in every batch (R332) -/
def Reg.EXPERT.DISP_CORES : Fld := ⟨0x390000 + 0x0, 24, 8, .rw, true, 0⟩
/-- 0x0000 [16:0] (12, table at R353): Pool slots P; above 65,536 acts as 65,536 -/
def Reg.EXPERT.POOL : Fld := ⟨0x390000 + 0x0, 0, 17, .rw, true, 0⟩
/-- 0x0008 [31:16] (12, table at R353): Newest generation opened (R333) -/
def Reg.EXPERT.NEWEST : Fld := ⟨0x390000 + 0x8, 16, 16, .ro, false, 0⟩
/-- 0x0008 [3:0] (12, table at R353): Batches open, 0–8 -/
def Reg.EXPERT.STATUS_OPEN : Fld := ⟨0x390000 + 0x8, 0, 4, .ro, false, 0⟩
/-- 0x0010 [15:0] (12, table at R353): Generation to retire; writing performs it (R349) -/
def Reg.EXPERT.CANCEL_GEN : Fld := ⟨0x390000 + 0x10, 0, 16, .wo, true, 0⟩
/-- 0x0018 [63:0] (12, table at R353): Batches closed -/
def Reg.EXPERT.BATCHES : Fld := ⟨0x390000 + 0x18, 0, 64, .rc, false, 0⟩
/-- 0x0020 [63:0] (12, table at R353): Unrouted choices (R337) -/
def Reg.EXPERT.UNROUTED : Fld := ⟨0x390000 + 0x20, 0, 64, .rc, false, 0⟩
/-- 0x0028 [63:0] (12, table at R353): TOKEN and SUMMARY packets discarded (R350) -/
def Reg.EXPERT.TOK_DISCARD : Fld := ⟨0x390000 + 0x28, 0, 64, .rc, false, 0⟩
/-- 0x0030 [63:0] (12, table at R353): RETURN packets discarded (R350) -/
def Reg.EXPERT.RET_DISCARD : Fld := ⟨0x390000 + 0x30, 0, 64, .rc, false, 0⟩
/-- 0x0038 [63:0] (12, table at R353): Batches cancelled (R349) -/
def Reg.EXPERT.CANCELLED : Fld := ⟨0x390000 + 0x38, 0, 64, .rc, false, 0⟩
/-- 0x0040 [63:0] (12, table at R353): Batches cancelled under R338 -/
def Reg.EXPERT.MISMATCH : Fld := ⟨0x390000 + 0x40, 0, 64, .rc, false, 0⟩
/-- 0x0100 + 8·e [63] (12, table at R353): PLACE[e]: expert e placed, e = 0–63 -/
def Reg.EXPERT.PLACE_VALID (e : Nat) : Fld := ⟨0x390000 + 0x100 + 8 * e, 63, 1, .rw, true, 0⟩
/-- 0x0100 + 8·e [59:56] (12, table at R353): Tray position of the owning device -/
def Reg.EXPERT.PLACE_POS (e : Nat) : Fld := ⟨0x390000 + 0x100 + 8 * e, 56, 4, .rw, true, 0⟩
/-- 0x0100 + 8·e [50:48] (12, table at R353): Core that issues the expert's xrecv and xret -/
def Reg.EXPERT.PLACE_CORE (e : Nat) : Fld := ⟨0x390000 + 0x100 + 8 * e, 48, 3, .rw, true, 0⟩
/-- 0x0100 + 8·e [33:17] (12, table at R353): Most pool slots per batch -/
def Reg.EXPERT.PLACE_PCAP (e : Nat) : Fld := ⟨0x390000 + 0x100 + 8 * e, 17, 17, .rw, true, 0⟩
/-- 0x0100 + 8·e [16:0] (12, table at R353): Own slots per batch -/
def Reg.EXPERT.PLACE_CAP (e : Nat) : Fld := ⟨0x390000 + 0x100 + 8 * e, 0, 17, .rw, true, 0⟩
/-- 0x0400 + 32·e [63:0] (12, table at R353): Assignments to expert e, all batches -/
def Reg.EXPERT.DEMAND (e : Nat) : Fld := ⟨0x390000 + 0x400 + 32 * e, 0, 64, .rc, false, 0⟩
/-- 0x0408 + 32·e [63:0] (12, table at R353): Pool slots taken, p[e] summed -/
def Reg.EXPERT.POOL_USED (e : Nat) : Fld := ⟨0x390000 + 0x408 + 32 * e, 0, 64, .rc, false, 0⟩
/-- 0x0410 + 32·e [63:0] (12, table at R353): Choices spilled (R347) -/
def Reg.EXPERT.SPILL (e : Nat) : Fld := ⟨0x390000 + 0x410 + 32 * e, 0, 64, .rc, false, 0⟩
/-- 0x0418 + 32·e [63:0] (12, table at R353): Idle slots, CAP + PCAP − q[e] summed (R348) -/
def Reg.EXPERT.IDLE (e : Nat) : Fld := ⟨0x390000 + 0x418 + 32 * e, 0, 64, .rc, false, 0⟩
/-- 0x1000 + 64·n + 16·s [56:0] (12, table at R353): Virtual address of row 0 of the return buffer (R346) -/
def Reg.EXPERT.RETURN_BASE (n s : Nat) : Fld := ⟨0x390000 + 0x1000 + 64 * n + 16 * s, 0, 57, .rw, false, 0⟩
/-- 0x1008 + 64·n + 16·s [63] (12, table at R353): Set a latch when the returns are complete -/
def Reg.EXPERT.RETURN_LATCH_V (n s : Nat) : Fld := ⟨0x390000 + 0x1008 + 64 * n + 16 * s, 63, 1, .rw, false, 0⟩
/-- 0x1008 + 64·n + 16·s [13:0] (12, table at R353): Latch index -/
def Reg.EXPERT.RETURN_LATCH (n s : Nat) : Fld := ⟨0x390000 + 0x1008 + 64 * n + 16 * s, 0, 14, .rw, false, 0⟩
/-- 0x1200 + 8·b [63] (12, table at R353): BATCH[b], b = 0–7: entry in use -/
def Reg.EXPERT.BATCH_OPEN (b : Nat) : Fld := ⟨0x390000 + 0x1200 + 8 * b, 63, 1, .ro, false, 0⟩
/-- 0x1200 + 8·b [58:56] (12, table at R353): 0 counting; 1 exchanging summaries; 2 moving tokens; 3 expert work and returns; other codes are not used -/
def Reg.EXPERT.BATCH_PHASE (b : Nat) : Fld := ⟨0x390000 + 0x1200 + 8 * b, 56, 3, .ro, false, 0⟩
/-- 0x1200 + 8·b [49:48] (12, table at R353): Choices per token, minus 1 -/
def Reg.EXPERT.BATCH_TOPK_M1 (b : Nat) : Fld := ⟨0x390000 + 0x1200 + 8 * b, 48, 2, .ro, false, 0⟩
/-- 0x1200 + 8·b [47:32] (12, table at R353): Generation -/
def Reg.EXPERT.BATCH_GEN (b : Nat) : Fld := ⟨0x390000 + 0x1200 + 8 * b, 32, 16, .ro, false, 0⟩
/-- 0x1200 + 8·b [31:16] (12, table at R353): Bit p: SUMMARY from position p received -/
def Reg.EXPERT.BATCH_SUMMARIES (b : Nat) : Fld := ⟨0x390000 + 0x1200 + 8 * b, 16, 16, .ro, false, 0⟩
/-- 0x1200 + 8·b [15:8] (12, table at R353): Bit n: core n's xdisp dispatched -/
def Reg.EXPERT.BATCH_DISPATCHED (b : Nat) : Fld := ⟨0x390000 + 0x1200 + 8 * b, 8, 8, .ro, false, 0⟩

/-- The fields of the register at offset r of the block EXPERT: the rows of its table. -/
def Reg.EXPERT.fields (r : Nat) : List Fld :=
  if r = 0x0 then [Reg.EXPERT.DISP_CORES, Reg.EXPERT.POOL]
  else if r = 0x8 then [Reg.EXPERT.NEWEST, Reg.EXPERT.STATUS_OPEN]
  else if r = 0x10 then [Reg.EXPERT.CANCEL_GEN]
  else if r = 0x18 then [Reg.EXPERT.BATCHES]
  else if r = 0x20 then [Reg.EXPERT.UNROUTED]
  else if r = 0x28 then [Reg.EXPERT.TOK_DISCARD]
  else if r = 0x30 then [Reg.EXPERT.RET_DISCARD]
  else if r = 0x38 then [Reg.EXPERT.CANCELLED]
  else if r = 0x40 then [Reg.EXPERT.MISMATCH]
  else if 0x100 ≤ r ∧ r < 0x300 ∧ (r - 0x100) % 8 = 0 then [Reg.EXPERT.PLACE_VALID ((r - 0x100) / 8), Reg.EXPERT.PLACE_POS ((r - 0x100) / 8), Reg.EXPERT.PLACE_CORE ((r - 0x100) / 8), Reg.EXPERT.PLACE_PCAP ((r - 0x100) / 8), Reg.EXPERT.PLACE_CAP ((r - 0x100) / 8)]
  else if 0x400 ≤ r ∧ r < 0xC00 ∧ (r - 0x400) % 32 = 0 then [Reg.EXPERT.DEMAND ((r - 0x400) / 32)]
  else if 0x408 ≤ r ∧ r < 0xC08 ∧ (r - 0x408) % 32 = 0 then [Reg.EXPERT.POOL_USED ((r - 0x408) / 32)]
  else if 0x410 ≤ r ∧ r < 0xC10 ∧ (r - 0x410) % 32 = 0 then [Reg.EXPERT.SPILL ((r - 0x410) / 32)]
  else if 0x418 ≤ r ∧ r < 0xC18 ∧ (r - 0x418) % 32 = 0 then [Reg.EXPERT.IDLE ((r - 0x418) / 32)]
  else if 0x1000 ≤ r ∧ r < 0x1200 ∧ (r - 0x1000) % 16 = 0 then [Reg.EXPERT.RETURN_BASE ((r - 0x1000) / 64) ((r - 0x1000) % 64 / 16)]
  else if 0x1008 ≤ r ∧ r < 0x1208 ∧ (r - 0x1008) % 16 = 0 then [Reg.EXPERT.RETURN_LATCH_V ((r - 0x1008) / 64) ((r - 0x1008) % 64 / 16), Reg.EXPERT.RETURN_LATCH ((r - 0x1008) / 64) ((r - 0x1008) % 64 / 16)]
  else if 0x1200 ≤ r ∧ r < 0x1240 ∧ (r - 0x1200) % 8 = 0 then [Reg.EXPERT.BATCH_OPEN ((r - 0x1200) / 8), Reg.EXPERT.BATCH_PHASE ((r - 0x1200) / 8), Reg.EXPERT.BATCH_TOPK_M1 ((r - 0x1200) / 8), Reg.EXPERT.BATCH_GEN ((r - 0x1200) / 8), Reg.EXPERT.BATCH_SUMMARIES ((r - 0x1200) / 8), Reg.EXPERT.BATCH_DISPATCHED ((r - 0x1200) / 8)]
  else []

/-! ### AGATE -/

/-- 0x0000 [63] (14, table at R400): CTL: Agate serves its job -/
def Reg.AGATE.CTL_EN : Fld := ⟨0x380000 + 0x0, 63, 1, .rw, true, 0⟩
/-- 0x0000 [55:50] (14, table at R400): Job served (R374) -/
def Reg.AGATE.CTL_JOB : Fld := ⟨0x380000 + 0x0, 50, 6, .rw, true, 0⟩
/-- 0x0000 [49:39] (14, table at R400): Barrier counter that gates the next run (R376) -/
def Reg.AGATE.CTL_STEP_BARRIER : Fld := ⟨0x380000 + 0x0, 39, 11, .rw, true, 0⟩
/-- 0x0000 [38:25] (14, table at R400): Latch set at each verdict -/
def Reg.AGATE.CTL_NOTIFY : Fld := ⟨0x380000 + 0x0, 25, 14, .rw, true, 0⟩
/-- 0x0000 [24] (14, table at R400): NOTIFY valid -/
def Reg.AGATE.CTL_NOTIFY_V : Fld := ⟨0x380000 + 0x0, 24, 1, .rw, true, 0⟩
/-- 0x0000 [15:0] (14, table at R400): Lead's wait for missing reports (R395); 0 acts as 1 -/
def Reg.AGATE.VERDICT_TIMEOUT_US : Fld := ⟨0x380000 + 0x0, 0, 16, .rw, true, 1000⟩
/-- 0x0008 [63:60] (14, table at R400): STEP: 0 IDLE, 1 OPEN, 2 WAIT; other codes are not used -/
def Reg.AGATE.STEP_STATE : Fld := ⟨0x380000 + 0x8, 60, 4, .ro, false, 0⟩
/-- 0x0008 [59] (14, table at R400): The open run is a replay (R398) -/
def Reg.AGATE.STEP_REPLAY : Fld := ⟨0x380000 + 0x8, 59, 1, .ro, false, 0⟩
/-- 0x0008 [31:24] (14, table at R400): Open run -/
def Reg.AGATE.STEP_RUN : Fld := ⟨0x380000 + 0x8, 24, 8, .ro, false, 0⟩
/-- 0x0008 [15:0] (14, table at R400): Open step -/
def Reg.AGATE.STEP_STEP : Fld := ⟨0x380000 + 0x8, 0, 16, .ro, false, 0⟩
/-- 0x0010 [63:0] (14, table at R400): Device time of the open -/
def Reg.AGATE.T_OPEN : Fld := ⟨0x380000 + 0x10, 0, 64, .ro, false, 0⟩
/-- 0x0018 [31:0] (14, table at R400): CLOSE_CNT at the open (R376) -/
def Reg.AGATE.CLOSE_BASE : Fld := ⟨0x380000 + 0x18, 0, 32, .ro, false, 0⟩
/-- 0x0020 [55:48] (14, table at R400): Run judged -/
def Reg.AGATE.VERDICT_RUN : Fld := ⟨0x380000 + 0x20, 48, 8, .ro, false, 0⟩
/-- 0x0020 [47:44] (14, table at R400): 0 none; 1 commit; 2 repeat -/
def Reg.AGATE.VERDICT_KIND : Fld := ⟨0x380000 + 0x20, 44, 4, .ro, false, 0⟩
/-- 0x0020 [43:40] (14, table at R400): Reason (R395) -/
def Reg.AGATE.VERDICT_REASON : Fld := ⟨0x380000 + 0x20, 40, 4, .ro, false, 0⟩
/-- 0x0020 [39:30] (14, table at R400): Bucket of the first failure -/
def Reg.AGATE.VERDICT_BUCKET : Fld := ⟨0x380000 + 0x20, 30, 10, .ro, false, 0⟩
/-- 0x0020 [29:24] (14, table at R400): Device of the first failure -/
def Reg.AGATE.VERDICT_DEVICE : Fld := ⟨0x380000 + 0x20, 24, 6, .ro, false, 0⟩
/-- 0x0020 [15:0] (14, table at R400): Step judged -/
def Reg.AGATE.VERDICT_STEP : Fld := ⟨0x380000 + 0x20, 0, 16, .ro, false, 0⟩
/-- 0x0028 [63:0] (14, table at R400): T_V of the last verdict -/
def Reg.AGATE.T_VERDICT : Fld := ⟨0x380000 + 0x28, 0, 64, .ro, false, 0⟩
/-- 0x0030 [63:0] (14, table at R400): Commits -/
def Reg.AGATE.COMMITS : Fld := ⟨0x380000 + 0x30, 0, 64, .rc, false, 0⟩
/-- 0x0038 [63:0] (14, table at R400): Repeats -/
def Reg.AGATE.REPEATS : Fld := ⟨0x380000 + 0x38, 0, 64, .rc, false, 0⟩
/-- 0x0040 [63:0] (14, table at R400): Local contributions taken -/
def Reg.AGATE.TAKEN : Fld := ⟨0x380000 + 0x40, 0, 64, .rc, false, 0⟩
/-- 0x0048 [63:0] (14, table at R400): Remote contributions completed -/
def Reg.AGATE.RECEIVED : Fld := ⟨0x380000 + 0x48, 0, 64, .rc, false, 0⟩
/-- 0x0050 [31:0] (14, table at R400): Contributions with σ rounded to the grid (R379) -/
def Reg.AGATE.UNDER : Fld := ⟨0x380000 + 0x50, 0, 32, .rc, false, 0⟩
/-- 0x0058 [31:0] (14, table at R400): Contributions out of range (R380) -/
def Reg.AGATE.RANGE : Fld := ⟨0x380000 + 0x58, 0, 32, .rc, false, 0⟩
/-- 0x0060 [63:0] (14, table at R400): agputs and packets discarded (R378, R392) -/
def Reg.AGATE.DISCARD : Fld := ⟨0x380000 + 0x60, 0, 64, .rc, false, 0⟩
/-- 0x0068 [63:0] (14, table at R400): Sum elements saturated -/
def Reg.AGATE.SAT : Fld := ⟨0x380000 + 0x68, 0, 64, .rc, false, 0⟩
/-- 0x0070 [63:0] (14, table at R400): Sum and error-memory elements flushed -/
def Reg.AGATE.FLUSH : Fld := ⟨0x380000 + 0x70, 0, 64, .rc, false, 0⟩
/-- 0x0078 [31:0] (14, table at R400): Residue and parity events (R399) -/
def Reg.AGATE.RES_EVT : Fld := ⟨0x380000 + 0x78, 0, 32, .rc, false, 0⟩
/-- 0x0100 + 8·r [31:0] (14, table at R400): Bucket failures with reason r, r = 1–10 (R393) -/
def Reg.AGATE.FAIL (r : Nat) : Fld := ⟨0x380000 + 0x100 + 8 * r, 0, 32, .rc, false, 0⟩
/-- 0x8000 + 32·b [63] (14, table at R400): BUCKET[b], b = 0–1,023 -/
def Reg.AGATE.BUCKET_VALID (b : Nat) : Fld := ⟨0x380000 + 0x8000 + 32 * b, 63, 1, .rw, true, 0⟩
/-- 0x8000 + 32·b [55:48] (14, table at R400): Signed power of two (R383) -/
def Reg.AGATE.BUCKET_SCALE_EXP (b : Nat) : Fld := ⟨0x380000 + 0x8000 + 32 * b, 48, 8, .rw, true, 0⟩
/-- 0x8000 + 32·b [47:40] (14, table at R400): 0x01 FP32 or 0x02 BF16 -/
def Reg.AGATE.BUCKET_OUT_TYPE (b : Nat) : Fld := ⟨0x380000 + 0x8000 + 32 * b, 40, 8, .rw, true, 0⟩
/-- 0x8000 + 32·b [39:37] (14, table at R400): Contributions per device, minus 1 -/
def Reg.AGATE.BUCKET_CONTRIB_M1 (b : Nat) : Fld := ⟨0x380000 + 0x8000 + 32 * b, 37, 3, .rw, true, 0⟩
/-- 0x8000 + 32·b [24:0] (14, table at R400): Entries, 2^20 to 2^24 -/
def Reg.AGATE.BUCKET_N (b : Nat) : Fld := ⟨0x380000 + 0x8000 + 32 * b, 0, 25, .rw, true, 0⟩
/-- 0x8008 + 32·b [56:0] (14, table at R400): Virtual address of the receive area (R390) -/
def Reg.AGATE.BUCKET_RXBASE (b : Nat) : Fld := ⟨0x380000 + 0x8008 + 32 * b, 0, 57, .rw, true, 0⟩
/-- 0x8010 + 32·b [47] (14, table at R400): Set a latch when the sums are written -/
def Reg.AGATE.BUCKET_SUM_V (b : Nat) : Fld := ⟨0x380000 + 0x8010 + 32 * b, 47, 1, .rw, true, 0⟩
/-- 0x8010 + 32·b [46:33] (14, table at R400): Sum latch index -/
def Reg.AGATE.BUCKET_SUM (b : Nat) : Fld := ⟨0x380000 + 0x8010 + 32 * b, 33, 14, .rw, true, 0⟩
/-- 0x8010 + 32·b [31:0] (14, table at R400): Deadline after T_OPEN, µs -/
def Reg.AGATE.BUCKET_DEADLINE_US (b : Nat) : Fld := ⟨0x380000 + 0x8010 + 32 * b, 0, 32, .rw, true, 0⟩
/-- 0x8018 + 32·b [63:60] (14, table at R400): 0 idle; 1 collecting; 2 summing; 3 awaiting epochs and verdicts; 4 reported success; 5 failed -/
def Reg.AGATE.BUCKET_STATE (b : Nat) : Fld := ⟨0x380000 + 0x8018 + 32 * b, 60, 4, .ro, false, 0⟩
/-- 0x8018 + 32·b [59:56] (14, table at R400): Reason of the failure -/
def Reg.AGATE.BUCKET_REASON (b : Nat) : Fld := ⟨0x380000 + 0x8018 + 32 * b, 56, 4, .ro, false, 0⟩
/-- 0x8018 + 32·b [19:16] (14, table at R400): Local contributions taken in the open run -/
def Reg.AGATE.BUCKET_LOCAL (b : Nat) : Fld := ⟨0x380000 + 0x8018 + 32 * b, 16, 4, .ro, false, 0⟩
/-- 0x8018 + 32·b [9:0] (14, table at R400): Contributions complete in the open run, 0–512 -/
def Reg.AGATE.BUCKET_RECEIVED (b : Nat) : Fld := ⟨0x380000 + 0x8018 + 32 * b, 0, 10, .ro, false, 0⟩

/-- The fields of the register at offset r of the block AGATE: the rows of its table. -/
def Reg.AGATE.fields (r : Nat) : List Fld :=
  if r = 0x0 then [Reg.AGATE.CTL_EN, Reg.AGATE.CTL_JOB, Reg.AGATE.CTL_STEP_BARRIER, Reg.AGATE.CTL_NOTIFY, Reg.AGATE.CTL_NOTIFY_V, Reg.AGATE.VERDICT_TIMEOUT_US]
  else if r = 0x8 then [Reg.AGATE.STEP_STATE, Reg.AGATE.STEP_REPLAY, Reg.AGATE.STEP_RUN, Reg.AGATE.STEP_STEP]
  else if r = 0x10 then [Reg.AGATE.T_OPEN]
  else if r = 0x18 then [Reg.AGATE.CLOSE_BASE]
  else if r = 0x20 then [Reg.AGATE.VERDICT_RUN, Reg.AGATE.VERDICT_KIND, Reg.AGATE.VERDICT_REASON, Reg.AGATE.VERDICT_BUCKET, Reg.AGATE.VERDICT_DEVICE, Reg.AGATE.VERDICT_STEP]
  else if r = 0x28 then [Reg.AGATE.T_VERDICT]
  else if r = 0x30 then [Reg.AGATE.COMMITS]
  else if r = 0x38 then [Reg.AGATE.REPEATS]
  else if r = 0x40 then [Reg.AGATE.TAKEN]
  else if r = 0x48 then [Reg.AGATE.RECEIVED]
  else if r = 0x50 then [Reg.AGATE.UNDER]
  else if r = 0x58 then [Reg.AGATE.RANGE]
  else if r = 0x60 then [Reg.AGATE.DISCARD]
  else if r = 0x68 then [Reg.AGATE.SAT]
  else if r = 0x70 then [Reg.AGATE.FLUSH]
  else if r = 0x78 then [Reg.AGATE.RES_EVT]
  else if 0x100 ≤ r ∧ r < 0x158 ∧ (r - 0x100) % 8 = 0 then [Reg.AGATE.FAIL ((r - 0x100) / 8)]
  else if 0x8000 ≤ r ∧ r < 0x10000 ∧ (r - 0x8000) % 32 = 0 then [Reg.AGATE.BUCKET_VALID ((r - 0x8000) / 32), Reg.AGATE.BUCKET_SCALE_EXP ((r - 0x8000) / 32), Reg.AGATE.BUCKET_OUT_TYPE ((r - 0x8000) / 32), Reg.AGATE.BUCKET_CONTRIB_M1 ((r - 0x8000) / 32), Reg.AGATE.BUCKET_N ((r - 0x8000) / 32)]
  else if 0x8008 ≤ r ∧ r < 0x10008 ∧ (r - 0x8008) % 32 = 0 then [Reg.AGATE.BUCKET_RXBASE ((r - 0x8008) / 32)]
  else if 0x8010 ≤ r ∧ r < 0x10010 ∧ (r - 0x8010) % 32 = 0 then [Reg.AGATE.BUCKET_SUM_V ((r - 0x8010) / 32), Reg.AGATE.BUCKET_SUM ((r - 0x8010) / 32), Reg.AGATE.BUCKET_DEADLINE_US ((r - 0x8010) / 32)]
  else if 0x8018 ≤ r ∧ r < 0x10018 ∧ (r - 0x8018) % 32 = 0 then [Reg.AGATE.BUCKET_STATE ((r - 0x8018) / 32), Reg.AGATE.BUCKET_REASON ((r - 0x8018) / 32), Reg.AGATE.BUCKET_LOCAL ((r - 0x8018) / 32), Reg.AGATE.BUCKET_RECEIVED ((r - 0x8018) / 32)]
  else []

/-! ### ERR -/

/-- 0x0000 [63] (15, table at R429): STATUS: device in the FE state (R428) -/
def Reg.ERR.STATUS_FE : Fld := ⟨0x30000 + 0x0, 63, 1, .ro, false, 0⟩
/-- 0x0000 [21:0] (15, table at R429): Global source of the first FE record -/
def Reg.ERR.FE_SRC : Fld := ⟨0x30000 + 0x0, 0, 22, .ro, false, 0⟩
/-- 0x0008 [63] (15, table at R429): CTL: set a latch per record (R410) -/
def Reg.ERR.CTL_NOTIFY_V : Fld := ⟨0x30000 + 0x8, 63, 1, .rw, false, 0⟩
/-- 0x0008 [47:34] (15, table at R429): Latch index -/
def Reg.ERR.CTL_NOTIFY : Fld := ⟨0x30000 + 0x8, 34, 14, .rw, false, 0⟩
/-- 0x0008 [33:32] (15, table at R429): Lowest class notified: 0 CE, 1 DE, 2 FE; 3 acts as 2 -/
def Reg.ERR.CTL_NOTIFY_MIN : Fld := ⟨0x30000 + 0x8, 32, 2, .rw, false, 0⟩
/-- 0x0010 [63:0] (15, table at R429): Sequence number of the next record (R408) -/
def Reg.ERR.LOG_SEQ : Fld := ⟨0x30000 + 0x10, 0, 64, .ro, false, 1⟩
/-- 0x0018 [63:0] (15, table at R429): Oldest sequence number host software has not yet read (R409) -/
def Reg.ERR.LOG_RD : Fld := ⟨0x30000 + 0x18, 0, 64, .rw, false, 0⟩
/-- 0x0020 [63:0] (15, table at R429): CE records -/
def Reg.ERR.CE_CNT : Fld := ⟨0x30000 + 0x20, 0, 64, .rc, false, 0⟩
/-- 0x0028 [63:0] (15, table at R429): DE records -/
def Reg.ERR.DE_CNT : Fld := ⟨0x30000 + 0x28, 0, 64, .rc, false, 0⟩
/-- 0x0030 [63:0] (15, table at R429): FE records -/
def Reg.ERR.FE_CNT : Fld := ⟨0x30000 + 0x30, 0, 64, .rc, false, 0⟩
/-- 0x0038 [31:0] (15, table at R429): Unread records replaced (R409) -/
def Reg.ERR.LOST : Fld := ⟨0x30000 + 0x38, 0, 32, .rc, false, 0⟩
/-- 0x0040 [32] (15, table at R429): A failing verdict has occurred since last cleared (R416, R418) -/
def Reg.ERR.RETRACT_VALID : Fld := ⟨0x30000 + 0x40, 32, 1, .w1c, false, 0⟩
/-- 0x0040 [31:0] (15, table at R429): Epoch of the last failing verdict -/
def Reg.ERR.RETRACT_EPOCH : Fld := ⟨0x30000 + 0x40, 0, 32, .ro, false, 0⟩
/-- 0x0048 [63:0] (15, table at R429): Corrected core-store words, all cores -/
def Reg.ERR.CS_CORR : Fld := ⟨0x30000 + 0x48, 0, 64, .rc, false, 0⟩
/-- 0x0050 [31:0] (15, table at R429): Core-store pieces poisoned (R404) -/
def Reg.ERR.CS_UNCORR : Fld := ⟨0x30000 + 0x50, 0, 32, .rc, false, 0⟩
/-- 0x0058 [63:0] (15, table at R429): Patrol passes completed (R403) -/
def Reg.ERR.SCRUB_PASSES : Fld := ⟨0x30000 + 0x58, 0, 64, .rc, false, 0⟩
/-- 0x0060 [31:0] (15, table at R429): SILL_CORR events (R426, R427) -/
def Reg.ERR.SILL_CORR : Fld := ⟨0x30000 + 0x60, 0, 32, .rc, false, 0⟩
/-- 0x0068 [31:0] (15, table at R429): Jobs killed on this device (R414) -/
def Reg.ERR.KILLS : Fld := ⟨0x30000 + 0x68, 0, 32, .rc, false, 0⟩
/-- 0x0100 + 8·n [25] (15, table at R429): Activation unit under observation (R419) -/
def Reg.ERR.OBS_ACT (n : Nat) : Fld := ⟨0x30000 + 0x100 + 8 * n, 25, 1, .ro, false, 0⟩
/-- 0x0100 + 8·n [24] (15, table at R429): Beryl under observation -/
def Reg.ERR.OBS_BERYL (n : Nat) : Fld := ⟨0x30000 + 0x100 + 8 * n, 24, 1, .ro, false, 0⟩
/-- 0x0100 + 8·n [23:16] (15, table at R429): Bit t: tile t retired (R420) -/
def Reg.ERR.OBS_RETIRED (n : Nat) : Fld := ⟨0x30000 + 0x100 + 8 * n, 16, 8, .ro, false, 0⟩
/-- 0x0100 + 8·n [15:8] (15, table at R429): Bit t: tile t under observation -/
def Reg.ERR.OBS_OBSERVED (n : Nat) : Fld := ⟨0x30000 + 0x100 + 8 * n, 8, 8, .ro, false, 0⟩
/-- 0x0100 + 8·n [7:0] (15, table at R429): Residue and parity events in the last 24 hours, saturating -/
def Reg.ERR.OBS_EVENTS (n : Nat) : Fld := ⟨0x30000 + 0x100 + 8 * n, 0, 8, .ro, false, 0⟩
/-- 0x0140 [8] (15, table at R429): Agate under observation -/
def Reg.ERR.AGATE_OBSERVED : Fld := ⟨0x30000 + 0x140, 8, 1, .ro, false, 0⟩
/-- 0x0140 [7:0] (15, table at R429): Events in the last 24 hours, saturating -/
def Reg.ERR.AGATE_EVENTS : Fld := ⟨0x30000 + 0x140, 0, 8, .ro, false, 0⟩
/-- 0x1000 + 8·k [63:0] (15, table at R429): FIRST_FE[k], k = 0–7: word k of the first FE record (R409) -/
def Reg.ERR.FIRST_FE (k : Nat) : Fld := ⟨0x30000 + 0x1000 + 8 * k, 0, 64, .ro, false, 0⟩
/-- 0x8000 + 64·q + 8·k [63:0] (15, table at R429): LOG: word k of the record in place q, q = 0–511 -/
def Reg.ERR.LOG (q k : Nat) : Fld := ⟨0x30000 + 0x8000 + 64 * q + 8 * k, 0, 64, .ro, false, 0⟩

/-- The fields of the register at offset r of the block ERR: the rows of its table. -/
def Reg.ERR.fields (r : Nat) : List Fld :=
  if r = 0x0 then [Reg.ERR.STATUS_FE, Reg.ERR.FE_SRC]
  else if r = 0x8 then [Reg.ERR.CTL_NOTIFY_V, Reg.ERR.CTL_NOTIFY, Reg.ERR.CTL_NOTIFY_MIN]
  else if r = 0x10 then [Reg.ERR.LOG_SEQ]
  else if r = 0x18 then [Reg.ERR.LOG_RD]
  else if r = 0x20 then [Reg.ERR.CE_CNT]
  else if r = 0x28 then [Reg.ERR.DE_CNT]
  else if r = 0x30 then [Reg.ERR.FE_CNT]
  else if r = 0x38 then [Reg.ERR.LOST]
  else if r = 0x40 then [Reg.ERR.RETRACT_VALID, Reg.ERR.RETRACT_EPOCH]
  else if r = 0x48 then [Reg.ERR.CS_CORR]
  else if r = 0x50 then [Reg.ERR.CS_UNCORR]
  else if r = 0x58 then [Reg.ERR.SCRUB_PASSES]
  else if r = 0x60 then [Reg.ERR.SILL_CORR]
  else if r = 0x68 then [Reg.ERR.KILLS]
  else if 0x100 ≤ r ∧ r < 0x140 ∧ (r - 0x100) % 8 = 0 then [Reg.ERR.OBS_ACT ((r - 0x100) / 8), Reg.ERR.OBS_BERYL ((r - 0x100) / 8), Reg.ERR.OBS_RETIRED ((r - 0x100) / 8), Reg.ERR.OBS_OBSERVED ((r - 0x100) / 8), Reg.ERR.OBS_EVENTS ((r - 0x100) / 8)]
  else if r = 0x140 then [Reg.ERR.AGATE_OBSERVED, Reg.ERR.AGATE_EVENTS]
  else if 0x1000 ≤ r ∧ r < 0x1040 ∧ (r - 0x1000) % 8 = 0 then [Reg.ERR.FIRST_FE ((r - 0x1000) / 8)]
  else if 0x8000 ≤ r ∧ r < 0x10000 ∧ (r - 0x8000) % 8 = 0 then [Reg.ERR.LOG ((r - 0x8000) / 64) ((r - 0x8000) % 64 / 8)]
  else []

/-! ### SNAP -/

/-- 0x0000 [63:60] (16, table at R448): STATUS: 0 idle, 1 opening, 2 open, 3 restoring; other codes are not used -/
def Reg.SNAP.STATUS_STATE : Fld := ⟨0x3A0000 + 0x0, 60, 4, .ro, false, 0⟩
/-- 0x0000 [59] (16, table at R448): The buddy was lost (R440) -/
def Reg.SNAP.BUDDY_LOST : Fld := ⟨0x3A0000 + 0x0, 59, 1, .w1c, false, 0⟩
/-- 0x0000 [58] (16, table at R448): Images also go to the host (R442) -/
def Reg.SNAP.HOST_ALSO : Fld := ⟨0x3A0000 + 0x0, 58, 1, .ro, false, 0⟩
/-- 0x0000 [57] (16, table at R448): The buddy shares the origin's feed -/
def Reg.SNAP.SAME_FEED : Fld := ⟨0x3A0000 + 0x0, 57, 1, .ro, false, 0⟩
/-- 0x0000 [56] (16, table at R448): A snapshot was abandoned (R440) -/
def Reg.SNAP.ABANDONED : Fld := ⟨0x3A0000 + 0x0, 56, 1, .w1c, false, 0⟩
/-- 0x0000 [53:48] (16, table at R448): Job of the open snapshot -/
def Reg.SNAP.STATUS_JOB : Fld := ⟨0x3A0000 + 0x0, 48, 6, .ro, false, 0⟩
/-- 0x0000 [32] (16, table at R448): Slot being written -/
def Reg.SNAP.STATUS_SLOT : Fld := ⟨0x3A0000 + 0x0, 32, 1, .ro, false, 0⟩
/-- 0x0000 [31:0] (16, table at R448): Open snapshot -/
def Reg.SNAP.STATUS_SNAP_ID : Fld := ⟨0x3A0000 + 0x0, 0, 32, .ro, false, 0⟩
/-- 0x0008 [63:0] (16, table at R448): Cut time (R431) -/
def Reg.SNAP.T_CUT : Fld := ⟨0x3A0000 + 0x8, 0, 64, .ro, false, 0⟩
/-- 0x0010 [39:32] (16, table at R448): Agate's RUN at the cut -/
def Reg.SNAP.CUT_RUN : Fld := ⟨0x3A0000 + 0x10, 32, 8, .ro, false, 0⟩
/-- 0x0010 [15:0] (16, table at R448): Step s -/
def Reg.SNAP.CUT_STEP : Fld := ⟨0x3A0000 + 0x10, 0, 16, .ro, false, 0⟩
/-- 0x0018 [63] (16, table at R448): BUDDY: a buddy is selected -/
def Reg.SNAP.BUDDY_VALID : Fld := ⟨0x3A0000 + 0x18, 63, 1, .ro, false, 0⟩
/-- 0x0018 [62] (16, table at R448): Images go to the host alone -/
def Reg.SNAP.BUDDY_TO_HOST : Fld := ⟨0x3A0000 + 0x18, 62, 1, .ro, false, 0⟩
/-- 0x0018 [13:8] (16, table at R448): Buddy device number -/
def Reg.SNAP.BUDDY_DEVICE : Fld := ⟨0x3A0000 + 0x18, 8, 6, .ro, false, 0⟩
/-- 0x0018 [7:4] (16, table at R448): Buddy's FEED_ID -/
def Reg.SNAP.FEED_BUDDY : Fld := ⟨0x3A0000 + 0x18, 4, 4, .ro, false, 0⟩
/-- 0x0018 [3:0] (16, table at R448): Own FEED_ID -/
def Reg.SNAP.FEED_SELF : Fld := ⟨0x3A0000 + 0x18, 0, 4, .ro, false, 0⟩
/-- 0x0020 [63:32] (16, table at R448): Blocks in the set -/
def Reg.SNAP.BLOCKS_TOTAL : Fld := ⟨0x3A0000 + 0x20, 32, 32, .ro, false, 0⟩
/-- 0x0020 [31:0] (16, table at R448): Blocks DONE -/
def Reg.SNAP.BLOCKS_COPIED : Fld := ⟨0x3A0000 + 0x20, 0, 32, .ro, false, 0⟩
/-- 0x0028 [31:0] (16, table at R448): Blocks acknowledged at the destination -/
def Reg.SNAP.BLOCKS_SENT : Fld := ⟨0x3A0000 + 0x28, 0, 32, .ro, false, 0⟩
/-- 0x0030 [63:0] (16, table at R448): Blocks copied for a held write (R435) -/
def Reg.SNAP.TOUCH_COPIES : Fld := ⟨0x3A0000 + 0x30, 0, 64, .rc, false, 0⟩
/-- 0x0038 [63:0] (16, table at R448): Write hold time (R435) -/
def Reg.SNAP.HOLD_NS : Fld := ⟨0x3A0000 + 0x38, 0, 64, .rc, false, 0⟩
/-- 0x0040 [63:0] (16, table at R448): Time with the reserve full (R436) -/
def Reg.SNAP.RESERVE_FULL_NS : Fld := ⟨0x3A0000 + 0x40, 0, 64, .rc, false, 0⟩
/-- 0x0048 [63:0] (16, table at R448): Image bytes sent -/
def Reg.SNAP.BYTES_SENT : Fld := ⟨0x3A0000 + 0x48, 0, 64, .rc, false, 0⟩
/-- 0x0050 [31:0] (16, table at R448): Poisoned sectors recorded (R437) -/
def Reg.SNAP.POISONED_SECT : Fld := ⟨0x3A0000 + 0x50, 0, 32, .rc, false, 0⟩
/-- 0x0058 [63:32] (16, table at R448): Snapshots completed -/
def Reg.SNAP.COMPLETED : Fld := ⟨0x3A0000 + 0x58, 32, 32, .rc, false, 0⟩
/-- 0x0058 [31:0] (16, table at R448): Snapshots abandoned -/
def Reg.SNAP.ABANDONED_CNT : Fld := ⟨0x3A0000 + 0x58, 0, 32, .rc, false, 0⟩
/-- 0x0060 [63:0] (16, table at R448): Open time of the last snapshot (R432) -/
def Reg.SNAP.PARK_NS : Fld := ⟨0x3A0000 + 0x60, 0, 64, .ro, false, 0⟩
/-- 0x0068 [63:0] (16, table at R448): Cost of the last snapshot (R443) -/
def Reg.SNAP.COST_NS : Fld := ⟨0x3A0000 + 0x68, 0, 64, .ro, false, 0⟩
/-- 0x0070 [63] (16, table at R448): LAST: an image is current -/
def Reg.SNAP.LAST_VALID : Fld := ⟨0x3A0000 + 0x70, 63, 1, .ro, false, 0⟩
/-- 0x0070 [32] (16, table at R448): Its slot -/
def Reg.SNAP.LAST_SLOT : Fld := ⟨0x3A0000 + 0x70, 32, 1, .ro, false, 0⟩
/-- 0x0070 [31:0] (16, table at R448): Its SNAP_ID -/
def Reg.SNAP.LAST_SNAP_ID : Fld := ⟨0x3A0000 + 0x70, 0, 32, .ro, false, 0⟩
/-- 0x0078 [63:0] (16, table at R448): Completion time of the current image -/
def Reg.SNAP.T_COMPLETE : Fld := ⟨0x3A0000 + 0x78, 0, 64, .ro, false, 0⟩
/-- 0x0100 [47:32] (16, table at R448): Counting window, hours; 0 acts as 1 -/
def Reg.SNAP.WINDOW_H : Fld := ⟨0x3A0000 + 0x100, 32, 16, .rw, false, 720⟩
/-- 0x0100 [31:0] (16, table at R448): Prior mean time between restores, hours -/
def Reg.SNAP.PRIOR_H : Fld := ⟨0x3A0000 + 0x100, 0, 32, .rw, false, 1000⟩
/-- 0x0108 [63:32] (16, table at R448): RATE: hours observed -/
def Reg.SNAP.OBS_H : Fld := ⟨0x3A0000 + 0x108, 32, 32, .ro, false, 0⟩
/-- 0x0108 [31:0] (16, table at R448): Restore-class events in the window -/
def Reg.SNAP.EVENTS : Fld := ⟨0x3A0000 + 0x108, 0, 32, .ro, false, 0⟩
/-- 0x0110 [63:32] (16, table at R448): ADVISE: interval τ, ms -/
def Reg.SNAP.ADVISE_MS : Fld := ⟨0x3A0000 + 0x110, 32, 32, .ro, false, 0⟩
/-- 0x0110 [31:0] (16, table at R448): Interval in steps -/
def Reg.SNAP.ADVISE_STEPS : Fld := ⟨0x3A0000 + 0x110, 0, 32, .ro, false, 0⟩
/-- 0x0118 [63] (16, table at R448): Set a latch at completion and abandonment -/
def Reg.SNAP.NOTIFY_V : Fld := ⟨0x3A0000 + 0x118, 63, 1, .rw, false, 0⟩
/-- 0x0118 [13:0] (16, table at R448): Latch index -/
def Reg.SNAP.NOTIFY : Fld := ⟨0x3A0000 + 0x118, 0, 14, .rw, false, 0⟩
/-- 0x0200 [47:0] (16, table at R448): Physical base of the reserve, in job 0 -/
def Reg.SNAP.RESERVE_BASE : Fld := ⟨0x3A0000 + 0x200, 0, 48, .ro, false, 0⟩
/-- 0x0208 [63:0] (16, table at R448): Reserve bytes -/
def Reg.SNAP.RESERVE_SIZE : Fld := ⟨0x3A0000 + 0x208, 0, 64, .ro, false, 0⟩
/-- 0x0210 [47:0] (16, table at R448): Physical base of the buddy area, in job 0 -/
def Reg.SNAP.BUDDY_BASE : Fld := ⟨0x3A0000 + 0x210, 0, 48, .ro, false, 0⟩
/-- 0x0218 [63:0] (16, table at R448): Buddy area bytes -/
def Reg.SNAP.BUDDY_SIZE : Fld := ⟨0x3A0000 + 0x218, 0, 64, .ro, false, 0⟩

/-- The fields of the register at offset r of the block SNAP: the rows of its table. -/
def Reg.SNAP.fields (r : Nat) : List Fld :=
  if r = 0x0 then [Reg.SNAP.STATUS_STATE, Reg.SNAP.BUDDY_LOST, Reg.SNAP.HOST_ALSO, Reg.SNAP.SAME_FEED, Reg.SNAP.ABANDONED, Reg.SNAP.STATUS_JOB, Reg.SNAP.STATUS_SLOT, Reg.SNAP.STATUS_SNAP_ID]
  else if r = 0x8 then [Reg.SNAP.T_CUT]
  else if r = 0x10 then [Reg.SNAP.CUT_RUN, Reg.SNAP.CUT_STEP]
  else if r = 0x18 then [Reg.SNAP.BUDDY_VALID, Reg.SNAP.BUDDY_TO_HOST, Reg.SNAP.BUDDY_DEVICE, Reg.SNAP.FEED_BUDDY, Reg.SNAP.FEED_SELF]
  else if r = 0x20 then [Reg.SNAP.BLOCKS_TOTAL, Reg.SNAP.BLOCKS_COPIED]
  else if r = 0x28 then [Reg.SNAP.BLOCKS_SENT]
  else if r = 0x30 then [Reg.SNAP.TOUCH_COPIES]
  else if r = 0x38 then [Reg.SNAP.HOLD_NS]
  else if r = 0x40 then [Reg.SNAP.RESERVE_FULL_NS]
  else if r = 0x48 then [Reg.SNAP.BYTES_SENT]
  else if r = 0x50 then [Reg.SNAP.POISONED_SECT]
  else if r = 0x58 then [Reg.SNAP.COMPLETED, Reg.SNAP.ABANDONED_CNT]
  else if r = 0x60 then [Reg.SNAP.PARK_NS]
  else if r = 0x68 then [Reg.SNAP.COST_NS]
  else if r = 0x70 then [Reg.SNAP.LAST_VALID, Reg.SNAP.LAST_SLOT, Reg.SNAP.LAST_SNAP_ID]
  else if r = 0x78 then [Reg.SNAP.T_COMPLETE]
  else if r = 0x100 then [Reg.SNAP.WINDOW_H, Reg.SNAP.PRIOR_H]
  else if r = 0x108 then [Reg.SNAP.OBS_H, Reg.SNAP.EVENTS]
  else if r = 0x110 then [Reg.SNAP.ADVISE_MS, Reg.SNAP.ADVISE_STEPS]
  else if r = 0x118 then [Reg.SNAP.NOTIFY_V, Reg.SNAP.NOTIFY]
  else if r = 0x200 then [Reg.SNAP.RESERVE_BASE]
  else if r = 0x208 then [Reg.SNAP.RESERVE_SIZE]
  else if r = 0x210 then [Reg.SNAP.BUDDY_BASE]
  else if r = 0x218 then [Reg.SNAP.BUDDY_SIZE]
  else []

/-! ### GEN -/

/-- 0x0000 [23:16] (17, table at R470): Silicon stepping -/
def Reg.GEN.STEPPING : Fld := ⟨0x0 + 0x0, 16, 8, .ro, false, 0⟩
/-- 0x0000 [15:8] (17, table at R470): Bit n: core n present (R1) -/
def Reg.GEN.CORE_MASK : Fld := ⟨0x0 + 0x0, 8, 8, .ro, false, 0⟩
/-- 0x0000 [7:4] (17, table at R470): Cores present, 7 or 8 -/
def Reg.GEN.CORES : Fld := ⟨0x0 + 0x0, 4, 4, .ro, false, 0⟩
/-- 0x0000 [3:0] (17, table at R470): 8 grade N8, 7 grade N7 -/
def Reg.GEN.GRADE : Fld := ⟨0x0 + 0x0, 0, 4, .ro, false, 0⟩
/-- 0x0008 [63:0] (17, table at R470): Device serial number -/
def Reg.GEN.SERIAL : Fld := ⟨0x0 + 0x8, 0, 64, .ro, false, 0⟩
/-- 0x0010 [2] (17, table at R470): This device is a member (R468) -/
def Reg.GEN.MEMBER : Fld := ⟨0x0 + 0x10, 2, 1, .ro, false, 0⟩
/-- 0x0010 [1] (17, table at R470): This device holds rings -/
def Reg.GEN.LEAD : Fld := ⟨0x0 + 0x10, 1, 1, .ro, false, 0⟩
/-- 0x0010 [0] (17, table at R470): Sill firmware accepts ring 0 -/
def Reg.GEN.READY : Fld := ⟨0x0 + 0x10, 0, 1, .ro, false, 0⟩
/-- 0x0018 [11:8] (17, table at R470): 1–7: 2.5 to 128 GT/s -/
def Reg.GEN.LINK_SPEED : Fld := ⟨0x0 + 0x18, 8, 4, .ro, false, 0⟩
/-- 0x0018 [7:4] (17, table at R470): 1, 2 or 4 -/
def Reg.GEN.LINK_WIDTH : Fld := ⟨0x0 + 0x18, 4, 4, .ro, false, 0⟩
/-- 0x0018 [0] (17, table at R470): Link trained -/
def Reg.GEN.LINK_UP : Fld := ⟨0x0 + 0x18, 0, 1, .ro, false, 0⟩
/-- 0x0100 [63:6] (17, table at R470): RING0_SQ: host bus address / 64 -/
def Reg.GEN.RING0_SQ_BASE : Fld := ⟨0x0 + 0x100, 6, 58, .rw, false, 0⟩
/-- 0x0108 [63:5] (17, table at R470): RING0_CQ: host bus address / 32 -/
def Reg.GEN.RING0_CQ_BASE : Fld := ⟨0x0 + 0x108, 5, 59, .rw, false, 0⟩
/-- 0x0110 [63] (17, table at R470): RING0_CTL: ring 0 enabled (R457) -/
def Reg.GEN.RING0_EN : Fld := ⟨0x0 + 0x110, 63, 1, .rw, false, 0⟩
/-- 0x0110 [23:16] (17, table at R470): MSI-X vector -/
def Reg.GEN.RING0_VEC : Fld := ⟨0x0 + 0x110, 16, 8, .rw, false, 0⟩
/-- 0x0110 [15:14] (17, table at R470): As the ring context's IRQ -/
def Reg.GEN.RING0_IRQ : Fld := ⟨0x0 + 0x110, 14, 2, .rw, false, 0⟩
/-- 0x0110 [4:0] (17, table at R470): 6 to 16; other values act as 6 -/
def Reg.GEN.RING0_LOG2_SIZE : Fld := ⟨0x0 + 0x110, 0, 5, .rw, false, 6⟩
/-- 0x0200 [63] (17, table at R470): BAR4_CTL: aperture enabled (R454) -/
def Reg.GEN.BAR4_EN : Fld := ⟨0x0 + 0x200, 63, 1, .rw, false, 0⟩
/-- 0x0200 [56:21] (17, table at R470): Virtual address of offset 0, 2 MiB units -/
def Reg.GEN.BAR4_BASE : Fld := ⟨0x0 + 0x200, 21, 36, .rw, false, 0⟩
/-- 0x0200 [5:0] (17, table at R470): Job; 0 disables -/
def Reg.GEN.BAR4_JOB : Fld := ⟨0x0 + 0x200, 0, 6, .rw, false, 0⟩
/-- 0x0300 [31:0] (17, table at R470): Doorbell writes ignored (R458) -/
def Reg.GEN.DB_ERR : Fld := ⟨0x0 + 0x300, 0, 32, .rc, false, 0⟩
/-- 0x0308 [15:0] (17, table at R470): Ring of the last ignored doorbell -/
def Reg.GEN.DB_ERR_LAST : Fld := ⟨0x0 + 0x308, 0, 16, .ro, false, 0⟩
/-- 0x0310 [31:0] (17, table at R470): BAR accesses refused (R453) -/
def Reg.GEN.BAR_ERR : Fld := ⟨0x0 + 0x310, 0, 32, .rc, false, 0⟩
/-- 0x0318 [31:0] (17, table at R470): Doorbells ignored on a member (R468) -/
def Reg.GEN.DB_IGNORED : Fld := ⟨0x0 + 0x318, 0, 32, .rc, false, 0⟩
/-- 0x0320 [31:0] (17, table at R470): Completions dropped while the link was down (R451) -/
def Reg.GEN.CPL_DROP : Fld := ⟨0x0 + 0x320, 0, 32, .rc, false, 0⟩
/-- 0x0400 + 8·j [63] (17, table at R470): HLATCH_VEC[j], j = 0–7 (R466) -/
def Reg.GEN.HLATCH_EN (j : Nat) : Fld := ⟨0x0 + 0x400 + 8 * j, 63, 1, .rw, false, 0⟩
/-- 0x0400 + 8·j [7:0] (17, table at R470): MSI-X vector -/
def Reg.GEN.HLATCH_VEC (j : Nat) : Fld := ⟨0x0 + 0x400 + 8 * j, 0, 8, .rw, false, 0⟩
/-- 0x0440 [63:0] (17, table at R470): Bit i: member i reported a host-latch edge (R467) -/
def Reg.GEN.MEMBER_EDGE : Fld := ⟨0x0 + 0x440, 0, 64, .w1c, false, 0⟩
/-- 0x0448 [63] (17, table at R470): MEMBER_VEC -/
def Reg.GEN.MEMBER_VEC_EN : Fld := ⟨0x0 + 0x448, 63, 1, .rw, false, 0⟩
/-- 0x0448 [7:0] (17, table at R470): MSI-X vector -/
def Reg.GEN.MEMBER_VEC_VEC : Fld := ⟨0x0 + 0x448, 0, 8, .rw, false, 0⟩
/-- 0x0500 [63:0] (17, table at R470): Longest doorbell-to-pickup time of class 0 (R463) -/
def Reg.GEN.CLASS0_MAX_NS : Fld := ⟨0x0 + 0x500, 0, 64, .rc, false, 0⟩
/-- 0x0508 [31:0] (17, table at R470): Class-0 commands beyond a bound -/
def Reg.GEN.CLASS0_OVER : Fld := ⟨0x0 + 0x508, 0, 32, .rc, false, 0⟩
/-- 0x0510 [15:0] (17, table at R470): Class-0 entries outstanding (R464) -/
def Reg.GEN.CLASS0_OUT : Fld := ⟨0x0 + 0x510, 0, 16, .ro, false, 0⟩

/-- The fields of the register at offset r of the block GEN: the rows of its table. -/
def Reg.GEN.fields (r : Nat) : List Fld :=
  if r = 0x0 then [Reg.GEN.STEPPING, Reg.GEN.CORE_MASK, Reg.GEN.CORES, Reg.GEN.GRADE]
  else if r = 0x8 then [Reg.GEN.SERIAL]
  else if r = 0x10 then [Reg.GEN.MEMBER, Reg.GEN.LEAD, Reg.GEN.READY]
  else if r = 0x18 then [Reg.GEN.LINK_SPEED, Reg.GEN.LINK_WIDTH, Reg.GEN.LINK_UP]
  else if r = 0x100 then [Reg.GEN.RING0_SQ_BASE]
  else if r = 0x108 then [Reg.GEN.RING0_CQ_BASE]
  else if r = 0x110 then [Reg.GEN.RING0_EN, Reg.GEN.RING0_VEC, Reg.GEN.RING0_IRQ, Reg.GEN.RING0_LOG2_SIZE]
  else if r = 0x200 then [Reg.GEN.BAR4_EN, Reg.GEN.BAR4_BASE, Reg.GEN.BAR4_JOB]
  else if r = 0x300 then [Reg.GEN.DB_ERR]
  else if r = 0x308 then [Reg.GEN.DB_ERR_LAST]
  else if r = 0x310 then [Reg.GEN.BAR_ERR]
  else if r = 0x318 then [Reg.GEN.DB_IGNORED]
  else if r = 0x320 then [Reg.GEN.CPL_DROP]
  else if 0x400 ≤ r ∧ r < 0x440 ∧ (r - 0x400) % 8 = 0 then [Reg.GEN.HLATCH_EN ((r - 0x400) / 8), Reg.GEN.HLATCH_VEC ((r - 0x400) / 8)]
  else if r = 0x440 then [Reg.GEN.MEMBER_EDGE]
  else if r = 0x448 then [Reg.GEN.MEMBER_VEC_EN, Reg.GEN.MEMBER_VEC_VEC]
  else if r = 0x500 then [Reg.GEN.CLASS0_MAX_NS]
  else if r = 0x508 then [Reg.GEN.CLASS0_OVER]
  else if r = 0x510 then [Reg.GEN.CLASS0_OUT]
  else []

/-! ### FW -/

/-- 0x0000 [39:32] (17, table at R471): Last boot stage reached (R535): 0 reset; 1 security block ready; 2 fuses read and retirements applied; 3 rails set; 4 casements calibrated, or 1 s elapsed; 5 windows started; 6 map formed; 7 job-0 area laid out; 8 ready. Other codes are not used. -/
def Reg.FW.STAGE : Fld := ⟨0x50000 + 0x0, 32, 8, .ro, false, 0⟩
/-- 0x0000 [4] (17, table at R471): The PCIe link last trained below 128 GT/s or below x4 -/
def Reg.FW.LINK_REDUCED : Fld := ⟨0x50000 + 0x0, 4, 1, .ro, false, 0⟩
/-- 0x0000 [3] (17, table at R471): SEC.STATUS.ID_VALID is 0 (R509) -/
def Reg.FW.NO_IDENTITY : Fld := ⟨0x50000 + 0x0, 3, 1, .ro, false, 0⟩
/-- 0x0000 [2] (17, table at R471): At least one window was EXCLUDED at bring-up (R258) -/
def Reg.FW.WINDOW_EXCLUDED : Fld := ⟨0x50000 + 0x0, 2, 1, .ro, false, 0⟩
/-- 0x0000 [1] (17, table at R471): At least one casement had no good feed at T_W (R536) -/
def Reg.FW.CASEMENT_DARK : Fld := ⟨0x50000 + 0x0, 1, 1, .ro, false, 0⟩
/-- 0x0000 [0] (17, table at R471): No window entered the map; MEM_TOP is 0 (R537) -/
def Reg.FW.NO_MEMORY : Fld := ⟨0x50000 + 0x0, 0, 1, .ro, false, 0⟩
/-- 0x0008 [31:0] (17, table at R471): Version of the mask-ROM Sill firmware -/
def Reg.FW.ROM_VERSION : Fld := ⟨0x50000 + 0x8, 0, 32, .ro, false, 0⟩
/-- 0x0010 [63:0] (17, table at R471): Heartbeats given by Sill firmware to the security block since PERST# (R427) -/
def Reg.FW.HEARTBEAT : Fld := ⟨0x50000 + 0x10, 0, 64, .ro, false, 0⟩
/-- 0x0018 [63:0] (17, table at R471): Device time at which GEN.STATUS.READY was set; 0 before then -/
def Reg.FW.T_READY : Fld := ⟨0x50000 + 0x18, 0, 64, .ro, false, 0⟩
/-- 0x0020 [15] (17, table at R471): A command handler is running -/
def Reg.FW.BUSY : Fld := ⟨0x50000 + 0x20, 15, 1, .ro, false, 0⟩
/-- 0x0020 [9:8] (17, table at R471): Class of that handler (R462) -/
def Reg.FW.CLASS : Fld := ⟨0x50000 + 0x20, 8, 2, .ro, false, 0⟩
/-- 0x0020 [7:0] (17, table at R471): Tests and calibrations held as pending (R499), saturating -/
def Reg.FW.PENDING : Fld := ⟨0x50000 + 0x20, 0, 8, .ro, false, 0⟩

/-- The fields of the register at offset r of the block FW: the rows of its table. -/
def Reg.FW.fields (r : Nat) : List Fld :=
  if r = 0x0 then [Reg.FW.STAGE, Reg.FW.LINK_REDUCED, Reg.FW.NO_IDENTITY, Reg.FW.WINDOW_EXCLUDED, Reg.FW.CASEMENT_DARK, Reg.FW.NO_MEMORY]
  else if r = 0x8 then [Reg.FW.ROM_VERSION]
  else if r = 0x10 then [Reg.FW.HEARTBEAT]
  else if r = 0x18 then [Reg.FW.T_READY]
  else if r = 0x20 then [Reg.FW.BUSY, Reg.FW.CLASS, Reg.FW.PENDING]
  else []

/-! ### SEC -/

/-- 0x0000 [39:36] (19, table at R525): Highest level since PERST#, including one latched during it (R524) -/
def Reg.SEC.ALARM : Fld := ⟨0x40000 + 0x0, 36, 4, .ro, false, 0⟩
/-- 0x0000 [4] (19, table at R525): Level 3 has occurred (R522) -/
def Reg.SEC.ID_DEAD : Fld := ⟨0x40000 + 0x0, 4, 1, .ro, false, 0⟩
/-- 0x0000 [3] (19, table at R525): A CSK is held -/
def Reg.SEC.CSK_VALID : Fld := ⟨0x40000 + 0x0, 3, 1, .ro, false, 0⟩
/-- 0x0000 [2] (19, table at R525): AK held and certified -/
def Reg.SEC.AK_VALID : Fld := ⟨0x40000 + 0x0, 2, 1, .ro, false, 0⟩
/-- 0x0000 [1] (19, table at R525): IDK derived and matching IDCERT (R509) -/
def Reg.SEC.ID_VALID : Fld := ⟨0x40000 + 0x0, 1, 1, .ro, false, 0⟩
/-- 0x0000 [0] (19, table at R525): Boot of the security block complete -/
def Reg.SEC.READY : Fld := ⟨0x40000 + 0x0, 0, 1, .ro, false, 0⟩
/-- 0x0008 [63] (19, table at R525): ALARM_CTL: no further writes until PERST# -/
def Reg.SEC.ALARM_CTL_LOCK : Fld := ⟨0x40000 + 0x8, 63, 1, .w1s, false, 0⟩
/-- 0x0008 [15:0] (19, table at R525): Bits [2s+1:2s]: level of sensor s (R521); 0 acts as the floor -/
def Reg.SEC.ALARM_CTL_LEVEL : Fld := ⟨0x40000 + 0x8, 0, 16, .rw, false, 0xB9AF⟩
/-- 0x0010 [7:0] (19, table at R525): Bit s: sensor s tripped now -/
def Reg.SEC.SENSORS : Fld := ⟨0x40000 + 0x10, 0, 8, .ro, false, 0⟩
/-- 0x0018 [31:0] (19, table at R525): Level-1 alarms -/
def Reg.SEC.NOTICE_CNT : Fld := ⟨0x40000 + 0x18, 0, 32, .rc, false, 0⟩
/-- 0x0020 [63:0] (19, table at R525): LAST_ALARM: device time of the last alarm -/
def Reg.SEC.LAST_ALARM_TIME : Fld := ⟨0x40000 + 0x20, 0, 64, .ro, false, 0⟩
/-- 0x0028 [7:4] (19, table at R525): Its level -/
def Reg.SEC.LAST_ALARM_LEVEL : Fld := ⟨0x40000 + 0x28, 4, 4, .ro, false, 0⟩
/-- 0x0028 [3:0] (19, table at R525): Its sensor -/
def Reg.SEC.LAST_ALARM_SENSOR : Fld := ⟨0x40000 + 0x28, 0, 4, .ro, false, 0⟩
/-- 0x0030 [31:0] (19, table at R525): Boots since manufacture -/
def Reg.SEC.BOOT_COUNT : Fld := ⟨0x40000 + 0x30, 0, 32, .ro, false, 0⟩
/-- 0x0038 [63:32] (19, table at R525): Fused minimum patch version -/
def Reg.SEC.MIN_VERSION : Fld := ⟨0x40000 + 0x38, 32, 32, .ro, false, 0⟩
/-- 0x0038 [31:0] (19, table at R525): Patch version in force (R504) -/
def Reg.SEC.VERSION : Fld := ⟨0x40000 + 0x38, 0, 32, .ro, false, 0⟩
/-- 0x0040 [63:0] (19, table at R525): Verifications performed -/
def Reg.SEC.VERIFY_CNT : Fld := ⟨0x40000 + 0x40, 0, 64, .rc, false, 0⟩
/-- 0x0048 [31:0] (19, table at R525): Verifications failed -/
def Reg.SEC.VERIFY_FAIL : Fld := ⟨0x40000 + 0x48, 0, 32, .rc, false, 0⟩
/-- 0x0050 [19:16] (19, table at R525): 1 certificate; 2 signature; 3 late; 4 duplicate; 5 serial mismatch -/
def Reg.SEC.LAST_VERIFY_REASON : Fld := ⟨0x40000 + 0x50, 16, 4, .ro, false, 0⟩
/-- 0x0050 [15:8] (19, table at R525): 1 patch; 2 sled; 3 peer -/
def Reg.SEC.LAST_VERIFY_KIND : Fld := ⟨0x40000 + 0x50, 8, 8, .ro, false, 0⟩
/-- 0x0050 [7:0] (19, table at R525): Window number or device number -/
def Reg.SEC.LAST_VERIFY_WHO : Fld := ⟨0x40000 + 0x50, 0, 8, .ro, false, 0⟩
/-- 0x0058 [63:0] (19, table at R525): Signatures made -/
def Reg.SEC.SIGN_CNT : Fld := ⟨0x40000 + 0x58, 0, 64, .rc, false, 0⟩
/-- 0x0060 [63:0] (19, table at R525): Identifier of the CSK held (R517); 0 when none -/
def Reg.SEC.CSK_ID : Fld := ⟨0x40000 + 0x60, 0, 64, .ro, false, 0⟩
/-- 0x1000 + 8·k [63:0] (19, table at R525): Word k, k = 0–415: bytes 0–1,792 the IDK public key, 1,793–2,047 zero, 2,048–3,327 the domain-10 signature -/
def Reg.SEC.IDCERT (k : Nat) : Fld := ⟨0x40000 + 0x1000 + 8 * k, 0, 64, .ro, false, 0⟩

/-- The fields of the register at offset r of the block SEC: the rows of its table. -/
def Reg.SEC.fields (r : Nat) : List Fld :=
  if r = 0x0 then [Reg.SEC.ALARM, Reg.SEC.ID_DEAD, Reg.SEC.CSK_VALID, Reg.SEC.AK_VALID, Reg.SEC.ID_VALID, Reg.SEC.READY]
  else if r = 0x8 then [Reg.SEC.ALARM_CTL_LOCK, Reg.SEC.ALARM_CTL_LEVEL]
  else if r = 0x10 then [Reg.SEC.SENSORS]
  else if r = 0x18 then [Reg.SEC.NOTICE_CNT]
  else if r = 0x20 then [Reg.SEC.LAST_ALARM_TIME]
  else if r = 0x28 then [Reg.SEC.LAST_ALARM_LEVEL, Reg.SEC.LAST_ALARM_SENSOR]
  else if r = 0x30 then [Reg.SEC.BOOT_COUNT]
  else if r = 0x38 then [Reg.SEC.MIN_VERSION, Reg.SEC.VERSION]
  else if r = 0x40 then [Reg.SEC.VERIFY_CNT]
  else if r = 0x48 then [Reg.SEC.VERIFY_FAIL]
  else if r = 0x50 then [Reg.SEC.LAST_VERIFY_REASON, Reg.SEC.LAST_VERIFY_KIND, Reg.SEC.LAST_VERIFY_WHO]
  else if r = 0x58 then [Reg.SEC.SIGN_CNT]
  else if r = 0x60 then [Reg.SEC.CSK_ID]
  else if 0x1000 ≤ r ∧ r < 0x1D00 ∧ (r - 0x1000) % 8 = 0 then [Reg.SEC.IDCERT ((r - 0x1000) / 8)]
  else []

/-! ### Fields that other rules name -/

/-- Latch L is bit L mod 64 of LATCH.STATE word L div 64 (R304); each latch is a field of its own. -/
def Reg.LATCH.latch (l : Nat) : Fld := ⟨0x80000 + 8 * (l / 64), l % 64, 1, .ro, false, 0⟩
/-- MSI-X table entry v, message address (R470, R451). -/
def Reg.GEN.MSIX_ADDR (v : Nat) : Fld := ⟨0x2000 + 16 * v, 0, 64, .rw, false, 0⟩
/-- MSI-X table entry v, message data (R470, R451). -/
def Reg.GEN.MSIX_DATA (v : Nat) : Fld := ⟨0x2008 + 16 * v, 0, 32, .rw, false, 0⟩
/-- MSI-X table entry v, Vector Control mask bit, 1 after reset (R451, R470). -/
def Reg.GEN.MSIX_MASK (v : Nat) : Fld := ⟨0x2008 + 16 * v, 32, 1, .rw, false, 1⟩
/-- Pending bit of vector v in the pending-bit array (R465, R470). -/
def Reg.GEN.MSIX_PENDING (v : Nat) : Fld := ⟨0x3000 + 8 * (v / 64), v % 64, 1, .ro, false, 0⟩

/-- The fields of the LATCH block at offset r, the latches themselves included (R304). -/
def Reg.LATCH.allFields (r : Nat) : List Fld :=
  if r < 0x800 then (List.range 64).map fun i => Reg.LATCH.latch (r / 8 * 64 + i)
  else Reg.LATCH.fields r

/-- The fields of the GEN block at offset r, the MSI-X table and mover 8 included (R470, R281). -/
def Reg.GEN.allFields (r : Nat) : List Fld :=
  if 0x2000 ≤ r ∧ r < 0x3000 then
    if r % 16 = 0 then [Reg.GEN.MSIX_ADDR ((r - 0x2000) / 16)]
    else [Reg.GEN.MSIX_DATA ((r - 0x2000) / 16), Reg.GEN.MSIX_MASK ((r - 0x2000) / 16)]
  else if 0x3000 ≤ r ∧ r < 0x3020 then
    (List.range 64).map fun i => Reg.GEN.MSIX_PENDING ((r - 0x3000) / 8 * 64 + i)
  else if 0x8000 ≤ r ∧ r < 0x9000 then Reg.MOVER.fields 8 (r - 0x8000)
  else Reg.GEN.fields r

/-- The fields of CORE[n] at offset r, its mover's block included (R281). -/
def Reg.CORE.allFields (n r : Nat) : List Fld :=
  if 0x6000 ≤ r ∧ r < 0x6800 then Reg.MOVER.fields n (r - 0x6000) else Reg.CORE.fields n r

/-- The fields of the register at the 8-byte-aligned BAR0 offset off (R452); none where no block lies. -/
def Reg.fieldsAt (off : Nat) : List Fld :=
  if off < 0x10000 then Reg.GEN.allFields off
  else if off < 0x20000 then Reg.TIME.fields (off - 0x10000)
  else if off < 0x30000 then Reg.PWR.fields (off - 0x20000)
  else if off < 0x40000 then Reg.ERR.fields (off - 0x30000)
  else if off < 0x50000 then Reg.SEC.fields (off - 0x40000)
  else if off < 0x60000 then Reg.FW.fields (off - 0x50000)
  else if off < 0x80000 then []
  else if off < 0xA0000 then Reg.LATCH.allFields (off - 0x80000)
  else if off < 0x100000 then Reg.BARRIER.fields (off - 0xA0000)
  else if off < 0x200000 then Reg.CORE.allFields ((off - 0x100000) / 0x20000) ((off - 0x100000) % 0x20000)
  else if off < 0x280000 then
    if (off - 0x200000) / 0x4000 ≠ 0 ∧ 0x3F00 ≤ (off - 0x200000) % 0x4000 then []
    else Reg.WIN.fields ((off - 0x200000) / 0x4000) ((off - 0x200000) % 0x4000)
  else if off < 0x300000 then []
  else if off < 0x340000 then
    if (off - 0x300000) / 0x4000 ≠ 0 ∧ 0x3F00 ≤ (off - 0x300000) % 0x4000 then []
    else Reg.DOOR.fields ((off - 0x300000) / 0x4000) ((off - 0x300000) % 0x4000)
  else if off < 0x380000 then Reg.CASE.fields ((off - 0x340000) / 0x4000) ((off - 0x340000) % 0x4000)
  else if off < 0x390000 then Reg.AGATE.fields (off - 0x380000)
  else if off < 0x3A0000 then Reg.EXPERT.fields (off - 0x390000)
  else if off < 0x3B0000 then
    if 0x8000 ≤ off - 0x3A0000 then Reg.MOVER.fields 9 (off - 0x3A8000) else Reg.SNAP.fields (off - 0x3A0000)
  else if off < 0x3C0000 then Reg.XLAT.fields (off - 0x3B0000)
  else []

end Sys2Proof.Machine
end

