-- ==== Sys2Proof/Machine/State.lean ====
section
/-!
DEFINITION. Machine/State.lean: everything the manual gives the block, as plain data. Registers are fields in
one sparse store (Regs.lean names them); what lies behind the registers, between them and in flight has
records of its own here. The two closed types of stops stand at the end.
-/

namespace Sys2Proof.Machine

/-- Where the device is in its reset sequence (R531 to R534). -/
inductive Phase where
  /-- after the effective release -/
  | up
  /-- PERST# is asserted -/
  | perst
  /-- a rail dropped: every domain but the security block is in reset -/
  | railReset
deriving DecidableEq, Repr

/-- What fuses, straps and the security block's own storage hold; it survives PERST# (R508, R534, R544). -/
structure Kept where
  grade : Grade
  stepping : Nat
  serial : Nat
  minVersion : Nat
  idCert : Nat
  straps : Straps
  bootCount : Nat
  alarmLevels : Nat
  identityDead : Bool
  /-- stored retirements: core number and the mask of its retired tiles (R420) -/
  retiredTiles : List (Nat × Nat)
  retiredCores : List Nat
  /-- cores whose stored retirements end at the next PERST# (R501) -/
  retireClear : List Nat
deriving DecidableEq, Repr

/-- One instruction of the issue window, with what it captured at admission (R158, R41). -/
structure Insn where
  tag : Nat
  pc : Nat
  word : BitVec 128
  dD : BitVec 1024
  dA : BitVec 1024
  dB : BitVec 1024
  dX : BitVec 1024
  time : Nat
  waitOk : Bool
  dispatched : Bool
  /-- its unit has ended its work, so the instruction may complete (R204) -/
  done : Bool
  /-- the hazard rule has delayed it (counted once, R202) -/
  delayed : Bool
  sat : Nat
  flush : Nat
  nan : Nat
  /-- acknowledgements still to come (lop), or 1 while a jmp waits for its latch, and 2 where a halt has set PC meanwhile (R209,
  R220, R490) -/
  waits : Nat
  /-- a word of its window entry fails parity (R401) -/
  bad : Bool := false
deriving DecidableEq, Repr

/-- A fetched instruction word that is not admitted yet (R193). -/
structure Fetched where
  addr : Nat
  word : BitVec 128
  /-- the physical address that it was read at -/
  pa : Nat
deriving DecidableEq, Repr

/-- A tile fence that waits for its sweep end (R105). -/
inductive FenceKind where
  | test | unfence | retire
deriving DecidableEq, Repr

/-- How far the gmm in Garnet has come (R105, R118): the pages bound to it, its sweeps up to the fence that took effect last, and
where its next sweep began then: the batch element and the row block. -/
structure GmmRun where
  pages : List (Nat × Nat)
  done : Nat
  be : Nat
  off : Nat
deriving DecidableEq, Repr

/-- What a core holds beside its registers. -/
structure CoreSt where
  /-- descriptor slots; a slot that is not listed holds zero (R194) -/
  slots : List (Nat × BitVec 1024)
  /-- slots that PROGRAM_LOAD has written since the stream last started (R487) -/
  marks : List Nat
  window : List Insn
  fetched : List Fetched
  fetchPc : Nat
  /-- an end has been admitted: nothing after it is (R208) -/
  endSeen : Bool
  /-- latches for which a watch is out (R292) -/
  watching : List Nat
  /-- function table and derivative table images (R109), by 64-bit word -/
  tabF : List (Nat × BitVec 64)
  tabD : List (Nat × BitVec 64)
  /-- writes to generator states held until nothing is in flight (R89): the lane, plus 256 for the low half of the state and
  512 for its high half, and the value -/
  heldGen : List (Nat × BitVec 64)
  fences : List (FenceKind × Nat)
  gmm : Option GmmRun
  /-- since when the hold condition has lasted (R48) -/
  idleSince : Option Nat
  retired : Bool
  /-- what holds a word that fails parity: descriptor slot k as k, launch slot k as 4,096 + k, loop counter k as 4,112 + k (R401) -/
  badWords : List Nat := []
deriving DecidableEq, Repr

/-- A core as it is after PERST#. -/
def CoreSt.zero : CoreSt :=
  { slots := [], marks := [], window := [], fetched := [], fetchPc := 0, endSeen := false, watching := [],
    tabF := [], tabD := [], heldGen := [], fences := [], gmm := none, idleSince := none,
    retired := false }

/-- What a message asks of a latch's home (R282, R291 to R293). -/
inductive HomeOp where
  | set | clear | watch | read
deriving DecidableEq, Repr

/-- A message on its way to a latch's home (R291 to R293). -/
structure LatchMsg where
  src : Nat
  latch : Nat
  op : HomeOp
  /-- the lop that waits for the acknowledgement, or the jmp that reads: core and tag -/
  ack : Option (Nat × Nat)
  /-- the set of a barrier's close, which counts as a device unit's (R294, R295) -/
  close : Bool
  /-- the router at which it was injected (R15), and its number among the messages injected (R283) -/
  from_ : Nat
  sent : Nat
deriving DecidableEq, Repr

/-- A recorded watcher, or a notification on its way: core and latch (R292), and a notification's number among the
messages injected (R283). -/
structure WatchMsg where
  core : Nat
  latch : Nat
  sent : Nat
deriving DecidableEq, Repr

/-- A barrier message: participant 0 to 7 for a core, 8 for the host; the barr's tag; a withdrawal or an
arrival (R295, R298). -/
structure BarMsg where
  part : Nat
  counter : Nat
  tag : Nat
  leave : Bool
  /-- its stream has been killed, so that no instruction waits for it any more (R298) -/
  dead : Bool
  /-- its number among the messages injected (R283) -/
  sent : Nat
deriving DecidableEq, Repr

/-- A multicast copy in a hold store: group, packet of the group, router (R290). -/
structure HeldCopy where
  group : Nat
  packet : Nat
  router : Nat
deriving DecidableEq, Repr

/-- A multicast packet that waits at its source because four of its group are in flight: group, source number, and the
target routers without buffer space (R289). -/
structure McastWait where
  group : Nat
  src : Nat
  full : List Nat
deriving DecidableEq, Repr

/-- What a home answers a core: a latch of a lop is done, the value that a jmp reads, or the refusal of an arrival (R293, R295). -/
inductive Answered where
  | lop | jmp (set : Bool) | refused
deriving DecidableEq, Repr

/-- An answer on its way from a home's router to a core: the tag of the instruction, and its number among the messages injected
(R283, R293, R295). -/
structure AckMsg where
  router : Nat
  core : Nat
  tag : Nat
  what : Answered
  sent : Nat
deriving DecidableEq, Repr

/-- The sets and clears of one latch that have been performed at the present time and may have come in one beat: the source and the
time of the last one, and whether a set and whether a clear is among them (R291). -/
structure BeatMsgs where
  latch : Nat
  src : Nat
  at_ : Nat
  set : Bool
  clear : Bool
deriving DecidableEq, Repr

/-- What the network holds in flight and at the homes. -/
structure NetSt where
  /-- sets, clears, watches and reads, in the order in which they were sent -/
  latchMsgs : List LatchMsg
  watchers : List WatchMsg
  notes : List WatchMsg
  /-- arrivals and withdrawals, in the order in which they were sent -/
  arrivals : List BarMsg
  releases : List BarMsg
  /-- answers of homes, in the order in which they were sent -/
  acks : List AckMsg
  /-- arrivals counted at each counter, oldest first, with their tags -/
  counted : List BarMsg
  /-- writes to monitored words that the monitors have not tested yet: monitor number and the word's value; the
  number plus 256 where the word became poisoned (R300, R301) -/
  monWrites : List (Nat × BitVec 64)
  /-- monitor number, and the tag of its mwait -/
  monTags : List (Nat × Nat)
  /-- copies in the hold stores, oldest first (R290) -/
  held : List HeldCopy
  /-- multicast packets that wait at their sources, oldest first (R289) -/
  mcastWaits : List McastWait
  /-- the number of the next multicast packet -/
  mcastNext : Nat
  /-- the number of the next message injected (R283) -/
  sent : Nat
  /-- for each latch, what was performed last (R291) -/
  beats : List BeatMsgs
  /-- flits of control packets that a router has forwarded and no read of ROUTER_FLITS has taken: router and count (R304) -/
  flits : List (Nat × Nat)
deriving DecidableEq, Repr

/-- A cached page-table entry of a translation slice: source, job, level, virtual address over the level's
page size, entry (R181). -/
structure XEnt where
  src : Nat
  job : Nat
  level : Nat
  vpn : Nat
  entry : BitVec 64
deriving DecidableEq, Repr

/-- An invalidation in progress: job, all, first unit, units, who worked through a dropped entry when it began: bursts as mover *
4096 + channel with the burst's number, and what State.translated numbers beside them (R187); and how many jobs were made invalid
meanwhile, whose own invalidations end with it (R188). -/
structure Inval where
  job : Nat
  all : Bool
  va : Nat
  pages : Nat
  users : List (Nat × Nat)
  more : Nat
  /-- the command that completes with it (R485) -/
  req : Option Req
deriving DecidableEq, Repr

/-- Who waits for a memory request at a window. -/
inductive Owner where
  /-- no unit waits -/
  | none
  /-- a burst of a mover channel: mover, channel, burst number -/
  | burst (m ch n : Nat)
  /-- a WRITE packet: number in State.doors.pendingWrites -/
  | packet (n : Nat)
  /-- a unit that has taken the data it reads, or given the data it writes, when it issued the request, and that goes on
  when its requests are complete (log entry 8) -/
  | unit
deriving DecidableEq, Repr

/-- One sector request (R235). -/
structure MemReq where
  queue : Nat
  src : Nat
  job : Nat
  pa : Nat
  write : Bool
  /-- bytes to write with their enables: none leaves the byte (R240) -/
  data : List (Option Byte)
  poison : Bool
  owner : Owner
  /-- a write whose effect stands in memory already, before its tag: what stood in its bytes before, and whether the sector was
  poisoned -/
  applied : Bool := false
  before : List (Option Byte) := []
  wasBad : Bool := false
  /-- the values that the write left in the words of armed monitors: monitor number and value (R300) -/
  hits : List (Nat × BitVec 64) := []
deriving DecidableEq, Repr

/-- What a unit does when the last of its requests is complete. -/
inductive LaterAct where
  /-- an instruction's work has ended: core and tag -/
  | done (core tag : Nat)
  /-- a latch is set: source and latch -/
  | latch (src latch : Nat)
  /-- a packet is sent -/
  | packet (ty : Nat) (h : Hdr) (p : Bytes)
deriving DecidableEq, Repr

/-- What waits for the requests of an admission queue to be complete. -/
structure Later where
  queue : Nat
  act : LaterAct
deriving DecidableEq, Repr

/-- A sector request with a tag (R235, R247). -/
structure TagSt where
  tag : Nat
  req : MemReq
  channel : Nat
  sector : Nat
  granted : Nat
  /-- for a read, what the sled will return, and the poison mark; for a write, the sector as the write leaves it -/
  data : Bytes
  poison : Bool
  /-- 0 outstanding, 1 timed out, 2 a WRP sent for a timed-out write -/
  phase : Nat
  /-- a read's sector has been replaced whole since, so that an error of the sled in it is gone (R242) -/
  stale : Bool := false
  /-- an error on the mesh marks what a read brings back (R285) -/
  mesh : Bool := false
deriving DecidableEq, Repr

/-- What a window holds beside its registers. -/
structure WinSt where
  queue : List MemReq
  lastQueue : Nat
  tags : List TagSt
  /-- successive failed retrainings (R249) -/
  failures : Nat
  /-- fibre pairs that retraining has found unusable (R246) -/
  lost : List Nat
  /-- a case of R249 has come about, so that the window fails -/
  failing : Bool
  /-- when the windows were started, and when the nonce was sent (R258, R518) -/
  startedAt : Nat
  nonceAt : Nat
  nonce : Option Nat
  ready : Bool
  /-- since when each channel has been hot; channels whose event has been raised, with the time since which
  they have not been hot (R256) -/
  hotSince : List (Nat × Nat)
  hotRaised : List (Nat × Option Nat)
  /-- reads completed in the last 1 µs: time and round trip (R262's MEAN_NS) -/
  rtts : List (Nat × Nat)
  /-- timed-out writes whose WRP waits for a tag, oldest first (R247) -/
  wrps : List TagSt
  /-- the sector admitted last to each channel (R256) -/
  lastSec : List (Nat × Nat)
deriving DecidableEq, Repr

/-- A window as it is after PERST#. -/
def WinSt.zero : WinSt :=
  { queue := [], lastQueue := 37, tags := [], failures := 0, lost := [], failing := false, startedAt := 0,
    nonceAt := 0, nonce := none, ready := false, hotSince := [], hotRaised := [], rtts := [], wrps := [], lastSec := [] }

/-- A flit that has been sent and is not acknowledged (R244): its sequence number, whether it went out with NAK, its message
bytes, the tags of the messages that end in it, those of a message that goes on in the next one, and how often it has been sent
again in succession. A message to a sled has the tag of its request; a door packet's tag is its job (R318). -/
structure Flit where
  seq : Nat
  nak : Bool
  body : Bytes
  tags : List Nat
  begun : List Nat
  replays : Nat
deriving DecidableEq, Repr

/-- A message or packet in a transmit queue: the bytes that are still to be sent, its tags, and whether its first bytes have gone
out in a flit already (R233). -/
structure TxMsg where
  bytes : Bytes
  tags : List Nat
  begun : Bool
deriving DecidableEq, Repr

/-- One end of an optical link (R232, R235, R244): the transmit queue of messages or packets, oldest first; the sequence number of the next flit; the replay buffer, oldest first; the sequence number of the last flit
received in order and intact; whether flits are discarded until a replay arrives; and whether the next flit carries NAK. -/
structure LinkSt where
  txq : List TxMsg
  txSeq : Nat
  replay : List Flit
  rxLast : Nat
  discarding : Bool
  nakDue : Bool
deriving DecidableEq, Repr

/-- A link as it is when it has trained: the far end's flits begin at 0 too. -/
def LinkSt.zero : LinkSt := { txq := [], txSeq := 0, replay := [], rxLast := 4095, discarding := false, nakDue := false }

/-- A source piece a burst has read: its physical address, its bytes, its poison mark; none while the read
is outstanding. -/
structure Piece where
  pa : Nat
  data : Option (Bytes × Bool)
deriving DecidableEq, Repr

/-- One burst of a transfer that has been cut and is not written yet (R268): its number, the range of its
destination sectors, the source pieces it reads, and the pages it translated (virtual 2 MiB unit; physical
address with POISON_KILL in bit 0 and SNAP in bit 1). -/
structure Burst where
  n : Nat
  first : Nat
  last : Nat
  reads : List Piece
  pages : List (Nat × Nat)
  /-- the units that it has still to read: physical address and bytes (R264) -/
  todo : List (Nat × Nat)
  /-- the bytes that each of its tiles takes of a compressed source (R278) -/
  lens : List Nat
deriving DecidableEq, Repr

/-- A transfer that holds a slot of its mover (R271). -/
structure Run where
  m : Nat
  ch : Nat
  core : Nat
  tag : Nat
  job : Nat
  word : BitVec 128
  dD : BitVec 1024
  dA : BitVec 1024
  slot : Nat
  order : Nat
  /-- the next destination sector to cut a burst from, and the destination sectors in all -/
  next : Nat
  total : Nat
  bursts : List Burst
  burstNo : Nat
  /-- codes of elements whose bits lie in a later burst too, and scale codes chosen so far (R268) -/
  carry : List (Nat × Nat)
  scales : List (Nat × Nat)
  /-- writes that have left and are not yet acknowledged (R276), and WRITE tags not yet answered (R314) -/
  acks : Nat
  ackTags : List Nat
  /-- writes have gone to host memory, and the read that follows the last of them has been issued (R276) -/
  toHost : Bool
  flushed : Bool
  /-- the instruction has completed in the window, and the transfer waits for its arrival (R203) -/
  posted : Bool
  /-- the stream has been started anew since: every instruction in its window is later (R202, R488) -/
  old : Bool := false
  waitingReq : Bool
deriving DecidableEq, Repr

/-- A WRITE packet being performed at this device (R313). -/
structure PendingWrite where
  n : Nat
  door : Nat
  hdr : Hdr
  left : Nat
  faulted : Bool
deriving DecidableEq, Repr

/-- A door packet with its type. -/
structure Pkt where
  ty : Nat
  h : Hdr
  p : Bytes
deriving DecidableEq, Repr

/-- A ledger entry (R320). -/
structure Ledger where
  door : Nat
  origin : Nat
  epoch : Nat
  /-- the physical addresses of the sectors; bit 0 is set where the page has POISON_KILL (R184) -/
  sectors : List Nat
  /-- the job on this device -/
  job : Nat
deriving DecidableEq, Repr

/-- What the doors hold beside their registers. -/
structure DoorsSt where
  /-- packets handed to a door link, oldest first: door, pair, packet -/
  tx : List (Nat × Nat × Pkt)
  ledger : List Ledger
  pendingWrites : List PendingWrite
  nextWrite : Nat
  nextTag : Nat
  /-- origins whose CLOSE has been received, with the newest closed epoch -/
  closed : List (Nat × Nat)
  /-- per link, successive failed retrainings; lost pairs: key door * 4 + pair -/
  failures : List (Nat × Nat)
  lost : List Nat
  /-- since when the ledger of a door is full -/
  fullSince : List (Nat × Nat)
  /-- the epochs this device has closed up to, plus 1 (R317) -/
  nextClose : Nat
  /-- TIME exchanges: time of the last one -/
  lastExchange : Nat
  /-- feed identities of the members, by device number (R441) -/
  feeds : List (Nat × Nat)
  /-- bulk packets that wait at their doors for room at the unit that performs them, oldest first: door and packet (R312,
  R334) -/
  waiting : List (Nat × Pkt)
  /-- the offset that slewing has still to remove, and what it has removed of the next nanosecond, in ps (R36, R323) -/
  slewPs : Int
  phasePs : Int
  /-- casements that have calibrated since the reset (R535) -/
  calibrated : List Nat
deriving DecidableEq, Repr

/-- An xdisp, xrecv or xret of an open batch. -/
structure XPart where
  core : Nat
  tag : Nat
  /-- the job of its stream (R338) -/
  job : Nat
  expert : Nat
  dD : BitVec 1024
  dA : BitVec 1024
  dX : BitVec 1024
  /-- the count phase faulted; the instruction is finished -/
  faulted : Bool
  finished : Bool
  /-- pages bound at dispatch: 2 MiB virtual unit and physical page -/
  bound : List (Nat × Nat)
  topk : Nat
  /-- the expert of each choice, by token and then choice; none where it is unrouted (R337) -/
  choices : List (Option Nat)
  /-- the return buffer and its latch, as they stood at dispatch (R346, R353) -/
  base : Nat
  latch : Option Nat
  /-- return rows that are expected and not complete -/
  owed : List Nat
  /-- tags of TOKEN packets not acknowledged yet (R342) -/
  ackTags : List Nat
deriving DecidableEq, Repr

/-- The demands of one member position: 64 counts, and what must agree (R338). -/
structure Demand where
  pos : Nat
  counts : List Nat
  topk : Nat
  type : Nat
  rowBytes : Nat
  job : Nat
deriving DecidableEq, Repr

/-- An xret of an open batch that has dispatched: its expert, whether it has sent its results, its core and tag. -/
structure XRet where
  expert : Nat
  ok : Bool
  core : Nat
  tag : Nat
deriving DecidableEq, Repr

/-- An open batch (R333 to R335). -/
structure Batch where
  gen : Nat
  job : Nat
  /-- its entry in the registers, 0 to 7 -/
  slot : Nat
  xdisps : List XPart
  xrecvs : List XPart
  xrets : List XRet
  sent : Bool
  demands : List Demand
  /-- rows for each expert, and of them from the pool, once the allocation is done -/
  rows : List Nat
  pool : List Nat
  /-- pieces of receive rows that have been written: expert, row, piece -/
  got : List (Nat × Nat × Nat)
  /-- tags of receive rows: expert, row, tag -/
  tags : List (Nat × Nat × Nat)
  /-- pieces of return rows that have been written: core, row, piece -/
  gotRet : List (Nat × Nat × Nat)
deriving DecidableEq, Repr

/-- A contribution that Agate has not taken yet (R377). -/
structure Contribution where
  core : Nat
  tag : Nat
  bucket : Nat
  dD : BitVec 1024
  dA : BitVec 1024
  dX : BitVec 1024
deriving DecidableEq, Repr

/-- A piece of a contribution that has come: its number, the STEP of its packet, and the reason for which it fails its bucket (0
none; R392 to R394). -/
structure RxPiece where
  n : Nat
  step : Nat
  bad : Nat
deriving DecidableEq, Repr

/-- A slot of a receive area that has begun to arrive (R390). -/
structure RxSlot where
  run : Nat
  bucket : Nat
  dev : Nat
  index : Nat
  pieces : List RxPiece
  /-- EPOCH of the header in piece 0 (R394) -/
  epoch : Nat
  /-- the destination of a local contribution's sum -/
  dD : BitVec 1024
  localC : Bool
deriving DecidableEq, Repr

/-- A report the lead has taken (R395). -/
structure Report where
  bucket : Nat
  dev : Nat
  check : Nat
  reason : Nat
deriving DecidableEq, Repr

/-- What Agate holds beside its registers. -/
structure AgateSt where
  waiting : List Contribution
  /-- agputs of the run dispatched to each bucket -/
  dispatched : List (Nat × Nat)
  slots : List RxSlot
  /-- buckets whose sum stage has ended, with the checksum (R388, R389) -/
  summed : List (Nat × Nat)
  reports : List Report
  /-- sum latches set in this run -/
  latched : List Nat
  replay : Bool
  /-- times of the last verdicts, newest first (R443) -/
  verdictTimes : List Nat
deriving DecidableEq, Repr

/-- A block of the snapshot set: 2 MiB unit, physical address, state 0 PENDING, 1 COPYING in the sweep, 2 DONE, 3 COPYING
into the reserve, whether a write is held on it, and since when (R434, R435). -/
structure Block where
  va : Nat
  pa : Nat
  state : Nat
  touched : Bool
  since : Nat
  /-- sectors whose read came back poisoned (R437) -/
  bad : List Nat := []
deriving DecidableEq, Repr

/-- A write held for a snapshot copy (R435): the request, and since when. -/
structure Held where
  unit : Nat
  req : MemReq
  since : Nat
deriving DecidableEq, Repr

/-- A block as the image holds it: 2 MiB unit, physical address, contents with poisoned sectors as zeros, and the
poisoned sectors (R437, R438). -/
structure ImageBlock where
  va : Nat
  pa : Nat
  data : Bytes
  poison : List Nat
deriving DecidableEq, Repr

/-- What the state record keeps of one core beside registers (R432). -/
structure CoreRec where
  core : Nat
  job : Nat
  resumePc : Nat
  slots : List (Nat × BitVec 1024)
  tabF : List (Nat × BitVec 64)
  tabD : List (Nat × BitVec 64)
deriving DecidableEq, Repr

/-- The state record (R432): the cores, the registers that it names with their values, and the channel contexts of the
job. -/
structure StateRec where
  cores : List CoreRec
  fields : List (Fld × Nat)
  contexts : List (Nat × BitVec 64)
  /-- the bytes of the record -/
  size : Nat
deriving DecidableEq, Repr

/-- An image: its header's fields, the record, the tables, and the blocks in the order in which they were copied; the
key under which its destination holds it (R438). -/
structure Image where
  snapId : Nat
  slot : Nat
  job : Nat
  origin : Nat
  memTop : Nat
  tCut : Nat
  cutStep : Nat
  cutRun : Nat
  nonceBase : Nat
  key : Option Bytes
  record : StateRec
  /-- the job's leaves as unit, level and entry, and the bytes of its tables -/
  tree : List (Nat × Nat × Nat)
  treeBytes : Nat
  blocks : List ImageBlock
  /-- it goes to the host's area, and to the buddy -/
  toHost : Bool
  toBuddy : Bool
  /-- the area in host memory, the number of the next unit, and the bytes that have been written so far (R438, R442) -/
  hostAddr : Nat := 0
  unit : Nat := 0
  offset : Nat := 0
  /-- the bytes of the last sector that has been sent, where it is not full -/
  tail : Bytes := []
deriving DecidableEq, Repr

/-- A restore that waits for the invalidation of the job's tables (R445): its command, the image, T_RESUME, and the unit of the image
whose tag fails, where one does. -/
structure Restore where
  r : Req
  image : Image
  tResume : Nat
  fails : Option Nat
deriving DecidableEq, Repr

/-- A snapshot that has been asked for and is not open (R431). -/
structure SnapAsk where
  r : Req
  snapId : Nat
  ranges : List Nat
  hostAddr : Nat
  hostSize : Nat
  tCut : Nat
  at_ : Nat
deriving DecidableEq, Repr

/-- What the snapshot unit holds beside its registers, and the images of this device that its destination holds. -/
structure SnapSt where
  isOpen : Bool
  asked : Option SnapAsk
  blocks : List Block
  heldWrites : List Held
  /-- blocks in the reserve, oldest first, with their places in it (R436) -/
  reserve : List (Nat × ImageBlock)
  /-- swept blocks that are DONE and wait until the reserve is drained (R436) -/
  ready : List ImageBlock := []
  reserveFullSince : Option Nat
  /-- the image being written -/
  image : Option Image
  /-- tags of the last packets of units that the buddy has not acknowledged, and whether the unit is a block (R439) -/
  acks : List (Nat × Bool) := []
  /-- the command that opened it (R431) -/
  opener : Option Req := none
  /-- bytes sent and time held for this snapshot (R443) -/
  bytes : Nat
  heldNs : Nat
  /-- the current image and the one before it is released (R439); they live at their destination -/
  current : Option Image
  /-- a restore under way (R445) -/
  restoring : Option Restore := none
deriving DecidableEq, Repr

/-- No snapshot is open any more. -/
def SnapSt.closed (x : SnapSt) : SnapSt :=
  { x with isOpen := false, blocks := [], heldWrites := [], reserve := [], ready := [], reserveFullSince := none, image := none,
           acks := [], opener := none }

/-- A ring (R456). -/
structure Ring where
  id : Nat
  log2 : Nat
  cls : Nat
  job : Nat
  vec : Nat
  irq : Nat
  sqBase : Nat
  cqBase : Nat
  sqHead : Nat
  sqTail : Nat
  cqTail : Nat
  cqHead : Nat
  /-- completion entries written and not freed -/
  cqUsed : Nat
  phase : Bool
  stopped : Bool
  /-- picked up and not completed -/
  inProgress : Nat
  /-- when the doorbell came for each entry that is not picked up (R463) -/
  bells : List Nat
  /-- the entry that has been read and waits for its pickup -/
  entry : Option Bytes
  /-- a read of the entry at the head is out -/
  reading : Bool
  /-- RING_DESTROY waits for the entries in progress (R481) -/
  destroying : Option Req
deriving DecidableEq, Repr

/-- A command that has been picked up and has not completed (R459). -/
structure Handler where
  ring : Nat
  cmdId : Nat
  opcode : Nat
  cls : Nat
  irq : Bool
  sqHead : Nat
  bellAt : Nat
  /-- it has been counted in CLASS0_OVER -/
  late : Bool
  /-- it waits for other units and has released Sill firmware (R462) -/
  waits : Bool
deriving DecidableEq, Repr

/-- A completion that is due (R460). -/
structure Completion where
  ring : Nat
  cmdId : Nat
  status : Nat
  result0 : Nat
  result1 : Nat
  device : Nat
  irq : Bool
deriving DecidableEq, Repr

/-- A command that waits for its parts on other devices (R472): the devices, the failing status of the lowest device
number, and the results so far; whole is false where the one target's completion passes through. -/
structure Relay where
  r : Req
  waiting : List Nat
  status : Nat
  device : Nat
  result0 : Nat
  result1 : Nat
  whole : Bool
deriving DecidableEq, Repr

/-- A test or calibration that is pending or running (R499): mask holds windows or casements. Without a request it is
one that Sill firmware queued for itself (R421). -/
structure TestSt where
  r : Option Req
  kind : Nat
  core : Nat
  tile : Nat
  mask : Nat
  running : Bool
deriving DecidableEq, Repr

/-- What a host memory read is for (R461, R276, R497). -/
inductive HostUse where
  | entry (ring : Nat) (retried : Bool)
  | burst (m ch n pa : Nat)
  /-- a read of a channel of mover m that has been freed: its data is discarded (R280) -/
  | dropped (m : Nat)
  /-- number of the HOST_COPY, and the virtual address at which the data goes -/
  | copy (n va : Nat) (retried : Bool)
deriving DecidableEq, Repr

/-- A HOST_COPY toward the device whose reads are not all back (R497): its number, the reads that are left, the status it has
come to, and the 2 MiB units in which it has written data (R474). -/
structure HostCopy where
  n : Nat
  r : Req
  left : Nat
  status : Nat
  pages : List Nat
  /-- the reads that have not been issued yet: host address, virtual address, length (R264) -/
  todo : List (Nat × Nat × Nat) := []
deriving DecidableEq, Repr

/-- A host memory read that has not completed. -/
structure HostRead where
  id : Nat
  addr : Nat
  len : Nat
  use : HostUse
deriving DecidableEq, Repr

/-- A posted write to host memory (R276, R455). -/
structure HostWrite where
  addr : Nat
  data : Bytes
deriving DecidableEq, Repr

/-- A CONFIG_FORM in progress (R480): its request, its members as bits, the devices that have not answered, the greatest
TIME.NOW of the other devices, the feed identities at 4 bits for each device, and since when. -/
structure Forming where
  r : Req
  members : Nat
  missing : List Nat
  now : Nat
  feeds : Nat
  since : Nat
deriving DecidableEq, Repr

/-- What the host interface and Sill firmware hold beside registers. -/
structure HostSt where
  rings : List Ring
  handlers : List Handler
  due : List Completion
  relayed : List Relay
  reads : List HostRead
  nextRead : Nat
  copies : List HostCopy
  /-- posted writes to host memory, oldest first -/
  out : List HostWrite
  /-- read completions sent to the host: data, and 0 successful, 1 poisoned, 2 completer abort, 3 unsupported -/
  cpl : List (Bytes × Nat)
  /-- MSI-X messages sent, oldest first: vector -/
  msi : List Nat
  /-- the class of classes 1 to 3 served last, and the ring served last of each class (R462) -/
  lastClass : Nat
  lastRing : List (Nat × Nat)
  d3hot : Bool
  /-- event ring: host address, log2 size, vector, enable; the next event number (R482) -/
  evAddr : Nat
  evLog2 : Nat
  evVec : Nat
  evEn : Bool
  evSeq : Nat
  /-- owner table: tensor and entry (R174) -/
  owners : List (Nat × Bytes)
  /-- the job-0 area (R483), and the tables in use with their jobs -/
  poolBase : Nat
  poolSize : Nat
  reserveSize : Nat
  buddySize : Nat
  tables : List (Nat × Nat)
  /-- jobs that have been killed (R414) -/
  killed : List Nat
  tests : List TestSt
  /-- invalidations that wait for the one in progress: command, job, first unit, units (R187, R485) -/
  invals : List (Req × Nat × Nat × Nat)
  /-- MCAST_SET commands that wait: command, group, value (R498) -/
  mcasts : List (Req × Nat × Nat)
  /-- CONFIG_FORM that is in progress: on the lead, or as a part on a device that it forms with (R480) -/
  forming : Option Forming
  /-- the snapshot key that a forming has drawn or received and not yet put in force (R515) -/
  newKey : Option Bytes
  /-- members lost (R480) -/
  lostMembers : List Nat
  /-- residue and parity events: source, unit, tile, time (R419) -/
  obsEvents : List (Nat × Nat × Nat × Nat)
  /-- when Sill firmware last tested a tile of its own accord: 8 n + t for tile t of core n, and the time (R423) -/
  tileTests : List (Nat × Nat)
  /-- Sill firmware is the cause of the FE state, and answers nothing any more (R428) -/
  sillDown : Bool
  heartbeatAt : Nat
  romCheckedAt : Nat
  /-- restore-class events for the snapshot rate: times (R443) -/
  restoreEvents : List Nat
  formedAt : Nat
  /-- the patch table in force, without its signature (R504) -/
  patch : Option Bytes
  /-- of the configuration space: the payload and read request sizes that the host has set, in bytes, and the uncorrectable error
  status of AER, by its bits in the PCI Express Base Specification (R449; log entry 52) -/
  maxPayload : Nat := 128
  maxRead : Nat := 512
  aer : Nat := 0
deriving DecidableEq, Repr

/-- A result whose residue verdict has not been given yet (R116, R154, R316). -/
structure Check where
  src : Nat
  unit : Nat
  tag : Nat
  job : Nat
  epoch : Nat
  /-- the bucket of a sum of Agate's -/
  bucket : Nat
  /-- pages of the destination: virtual and physical -/
  pages : List (Nat × Nat)
deriving DecidableEq, Repr

/-- What the security block holds beside its registers (R506 to R525). -/
structure SecSt where
  /-- VAUX is in its range, so that the sensors are armed and the I3C target answers (R521, R545) -/
  powered : Bool
  /-- number of the draw from which the attestation key comes (R508) -/
  akSeed : Option Nat
  /-- the snapshot key (R508) -/
  csk : Option Bytes
  /-- exchanges in progress: peer, the message sent last, the number of the draw of its key pair, and the nonce (R514) -/
  peers : List (Nat × Nat × Nat × Bytes)
deriving DecidableEq, Repr

/-- What the power manager and the sensors hold beside registers. -/
structure PwrSt where
  /-- what the uncore rail goes to, and the store rail (R30) -/
  uncoreMv : Nat
  storeMv : Nat
  uncoreTj : Nat
  optMv : List (Nat × Nat)
  /-- the base voltage of the computing cores, in mV (R50, R51) -/
  base : Nat
  /-- rails that move to their set point at 25 mV/µs: core number, or 8 for the uncore rail, with the voltage from which the
  rail set out, and when (R48, R49, R56) -/
  ramps : List (Nat × Nat × Nat)
  /-- cores whose rail the ceiling lowers, the number 8 for the uncore sensor, with the time of the last step (R53) -/
  ceiling : List (Nat × Nat)
deriving DecidableEq, Repr

/-- The state of the block. -/
structure State where
  phase : Phase
  kept : Kept
  /-- register fields by key, each listed where it differs from its reset value -/
  regs : List (Nat × Nat)
  /-- main memory and core stores by physical address (R176): rising addresses, no zero byte listed -/
  mem : List Host.Cell
  /-- poisoned 32-byte pieces, by physical address over 32, rising (R401, R242) -/
  poison : List Nat
  cores : List (Nat × CoreSt)
  net : NetSt
  slices : List XEnt
  inval : Option Inval
  wins : List (Nat × WinSt)
  /-- what units do when their requests are complete, oldest first -/
  later : List Later
  /-- the optical links: a window's by its number, a door's pair as 32 + 4 d + k -/
  links : List (Nat × LinkSt)
  contexts : List (Nat × BitVec 64)
  runs : List Run
  runOrder : Nat
  doors : DoorsSt
  batches : List Batch
  agate : AgateSt
  snap : SnapSt
  host : HostSt
  checks : List Check
  sec : SecSt
  pwr : PwrSt
  /-- the model's own: how many free values have been drawn -/
  freeCtr : Nat
  /-- the model's own: the commands that wait, first in, first out -/
  pending : List Instr
deriving DecidableEq, Repr

/-- What fuses and straps hold in the reset state: grade N8, device number 0 (log entry 4). -/
def Kept.reset : Kept :=
  { grade := .n8, stepping := 0, serial := 0, minVersion := 0, idCert := 0,
    straps := { trayId := 0, trayPos := 0, feedId := 0 }, bootCount := 0, alarmLevels := 0,
    identityDead := false, retiredTiles := [], retiredCores := [], retireClear := [] }

/-- An empty network. -/
def NetSt.reset : NetSt :=
  { latchMsgs := [], watchers := [], notes := [], arrivals := [], releases := [], acks := [], counted := [], monWrites := [],
    monTags := [], held := [], mcastWaits := [], mcastNext := 0, sent := 0, beats := [], flits := [] }

/-- Doors that carry nothing. -/
def DoorsSt.reset : DoorsSt :=
  { tx := [], ledger := [], pendingWrites := [], nextWrite := 0, nextTag := 0, closed := [],
    failures := [], lost := [], fullSince := [], nextClose := 0, lastExchange := 0, feeds := [], waiting := [], slewPs := 0,
    phasePs := 0, calibrated := [] }

/-- Agate idle. -/
def AgateSt.reset : AgateSt :=
  { waiting := [], dispatched := [], slots := [], summed := [], reports := [], latched := [], replay := false,
    verdictTimes := [] }

/-- No snapshot. -/
def SnapSt.reset : SnapSt :=
  { isOpen := false, asked := none, blocks := [], heldWrites := [], reserve := [], reserveFullSince := none,
    image := none, bytes := 0, heldNs := 0, current := none }

/-- No rings, no commands. -/
def HostSt.reset : HostSt :=
  { rings := [], handlers := [], due := [], relayed := [], reads := [], nextRead := 0, copies := [], out := [], cpl := [],
    msi := [], lastClass := 3, lastRing := [], d3hot := false, evAddr := 0, evLog2 := 6, evVec := 0,
    evEn := false, evSeq := 1, owners := [], poolBase := 0, poolSize := 0, reserveSize := 0, buddySize := 0,
    tables := [], killed := [], tests := [], invals := [], mcasts := [], forming := none, newKey := none,
    lostMembers := [], obsEvents := [], tileTests := [], sillDown := false, heartbeatAt := 0, romCheckedAt := 0, restoreEvents := [], formedAt := 0,
    patch := none }

/-- The security block before its start-up tests, powered. -/
def SecSt.reset : SecSt := { powered := true, akSeed := none, csk := none, peers := [] }

/-- Rails at their set points, sensors at 0 (log entry 16). -/
def PwrSt.reset : PwrSt :=
  { uncoreMv := 750, storeMv := 750, uncoreTj := 0, optMv := [], base := 750, ramps := [], ceiling := [] }

/-- The machine right after its effective release with nothing kept from before (R33, R531; log entries 3 to
5): every register at its reset value, memory with nothing listed, nothing in flight, no command waiting. -/
def State.reset : State :=
  { phase := .up, kept := Kept.reset, regs := [], mem := [], poison := [], cores := [], net := NetSt.reset,
    slices := [], inval := none, wins := [], later := [], links := [], contexts := [], runs := [], runOrder := 0,
    doors := DoorsSt.reset,
    batches := [], agate := AgateSt.reset, snap := SnapSt.reset, host := HostSt.reset, checks := [],
    sec := SecSt.reset, pwr := PwrSt.reset, freeCtr := 0, pending := [] }

/-- Why a command stops the model. -/
inductive Fault where
  /-- The command's operands contradict each other, so that no such command exists: a packet whose payload
  is not the 64 bytes for each sector that its header announces (R310). Raised by the commands that carry a
  payload. Safe: nothing on the hardware corresponds to it. -/
  | illFormed
deriving DecidableEq, Repr

/-- Why the model has no meaning for a command. -/
inductive Refusal where
  /-- The arm of the command in exec has no meaning yet. Raised by exec alone. Safe: the model says nothing. -/
  | notModelled (mnemonic : String)
deriving DecidableEq, Repr

end Sys2Proof.Machine
end

