-- ==== Sys2Proof/Machine/Bits.lean ====
section
/-!
DEFINITION. Machine/Bits.lean: byte order, bit fields, sign, rounding to multiples, checks over bytes.
-/

namespace Sys2Proof.Machine

/-- n as k bytes, lowest first (R7). -/
def bytesOf (k n : Nat) : Bytes :=
  (List.range k).map fun i => BitVec.ofNat 8 (n / 256 ^ i)

/-- The number that bytes spell, lowest first (R7). -/
def natOf : Bytes → Nat
  | [] => 0
  | b :: r => b.toNat + 256 * natOf r

/-- Bits [hi:lo] of n. -/
def bitsOf (n hi lo : Nat) : Nat := n / 2 ^ lo % 2 ^ (hi + 1 - lo)

/-- Bit i of n. -/
def bitOf (n i : Nat) : Bool := n.testBit i

/-- A number from bits, 1 for true. -/
def ofBool (b : Bool) : Nat := if b then 1 else 0

/-- n as a signed number of w bits. -/
def signed (w n : Nat) : Int :=
  if 2 ^ (w - 1) ≤ n % 2 ^ w then ((n % 2 ^ w : Nat) : Int) - ((2 ^ w : Nat) : Int) else ((n % 2 ^ w : Nat) : Int)

/-- An integer as w bits of two's complement. -/
def unsigned (w : Nat) (i : Int) : Nat := (i % ((2 ^ w : Nat) : Int)).toNat

/-- a over b, rounded up. -/
def ceilDiv (a b : Nat) : Nat := (a + b - 1) / b

/-- The bytes of a list from position a, n of them; zero beyond the end. -/
def slice (a n : Nat) (l : Bytes) : Bytes :=
  (List.range n).map fun i => (l.drop a).getD i 0

/-- One bit of CRC-32C, reflected (R142). -/
def crcBit (c : Nat) : Nat :=
  if c % 2 = 1 then (c / 2) ^^^ 0x82F63B78 else c / 2

/-- One byte of CRC-32C. -/
def crcByte (c : Nat) (b : Byte) : Nat :=
  crcBit (crcBit (crcBit (crcBit (crcBit (crcBit (crcBit (crcBit (c ^^^ b.toNat))))))))

/-- CRC-32C with initial value and final XOR of all ones (R142). -/
def crc32c (l : Bytes) : Nat :=
  (l.foldl crcByte 0xFFFFFFFF) ^^^ 0xFFFFFFFF

/-- Every element of a list that does not satisfy p before the first that does, and that first one. -/
def splitFirst {α : Type} (p : α → Bool) : List α → Option (List α × α × List α)
  | [] => none
  | a :: r => if p a then some ([], a, r) else
    match splitFirst p r with
    | some (x, y, z) => some (a :: x, y, z)
    | none => none

/-- The value at a key of an association list. -/
def lookupD {α : Type} (d : α) (k : Nat) (l : List (Nat × α)) : α :=
  match l.find? (fun e => e.1 = k) with
  | some e => e.2
  | none => d

/-- Put a value at a key of an association list, at its front. -/
def assocPut {α : Type} (k : Nat) (v : α) (l : List (Nat × α)) : List (Nat × α) :=
  (k, v) :: l.filter (fun e => e.1 ≠ k)

end Sys2Proof.Machine
end

