-- ==== Sys2Proof/Machine/Link.lean ====
section
/-!
DEFINITION. Machine/Link.lean: what an optical link carries (R232, R233, R244, R310): messages of a window, door packets,
flits with their trailer and their lanes, and the two ends' sequence numbers and replay buffer.
-/

namespace Sys2Proof.Machine

/-! ### Messages and packets -/

/-- A message header: operation, bit 32 of the sector address, tag (R233). -/
def msgHeader (op hi tag : Nat) : Bytes := bytesOf 2 (tag % 4096 + hi % 2 * 2 ^ 12 + op % 8 * 2 ^ 13)

/-- The sector that a request leaves, with its enables: bytes outside the request are not enabled (R240). -/
def MemReq.sectorData (r : MemReq) : List (Option Byte) :=
  (List.range 64).map fun i => if i < r.pa % 64 then none else r.data.getD (i - r.pa % 64) none

/-- The request writes its whole sector (R233). -/
def MemReq.full (r : MemReq) : Bool := r.sectorData.all Option.isSome

/-- A byte mask: bit i enables byte i (R233). -/
def maskOf (l : List (Option Byte)) : Nat := (l.zipIdx.map fun e => if e.1.isSome then 2 ^ e.2 else 0).sum

/-- The message of a request to a sled sector address (R233): RD, WRP for poison, WR for a whole sector, else WRM. -/
def MemReq.message (r : MemReq) (tag sector : Nat) : Bytes :=
  let head := fun op => msgHeader op (sector / 2 ^ 32) tag ++ bytesOf 4 sector
  let data := r.sectorData.map fun b => b.getD 0
  if !r.write then head 1
  else if r.poison then head 4
  else if r.full then head 2 ++ data
  else head 3 ++ bytesOf 8 (maskOf r.sectorData) ++ data

/-- A management message (R233). -/
def mgmtMessage (body : Bytes) : Bytes := msgHeader 7 0 0 ++ bytesOf 2 body.length ++ body

/-- The 32 header bytes of a door packet (R310). -/
def packetHead (ty : Nat) (h : Hdr) : Bytes :=
  bytesOf 1 ty ++ bytesOf 1 (h.sectors.toNat + (if h.relayed then 64 else 0) + (if h.ackReq then 128 else 0)) ++
    bytesOf 2 h.tag.toNat ++ bytesOf 4 h.src.toNat ++ bytesOf 1 h.dst.toNat ++ bytesOf 1 h.job.toNat ++ bytesOf 2 0 ++
    bytesOf 4 h.poison.toNat ++ bytesOf 8 h.addr.toNat ++ bytesOf 4 h.epoch.toNat ++ bytesOf 4 0

/-- A bulk packet: WRITE, EXPERT, and AGATE of KIND CONTRIB (R312). -/
def bulk (ty kind : Nat) : Bool := ty == 1 || ty == 5 || (ty == 4 && kind == 1)

/-- A packet as its bytes show it: whether it is bulk, and its flow from origin to target, none where it is unordered (R310,
R311). -/
def packetKey (b : Bytes) : Bool × Option (Nat × Nat) :=
  let ty := natOf (slice 0 1 b)
  (bulk ty (natOf (slice 16 1 b) % 8), if ty = 2 ∨ ty = 8 then none else some (natOf (slice 4 4 b) / 65536, natOf (slice 8 1 b)))

/-- A control packet is served before a bulk packet that waits, if they are not of one flow (R311, R312). -/
def servedBefore (x y : Bytes) : Bool :=
  let a := packetKey x
  let b := packetKey y
  !a.1 && b.1 && (a.2.isNone || a.2 != b.2)

/-! ### Flits (R232) -/

/-- The low half of a flit's trailer (R232). -/
def trailerLow (seq ack : Nat) (nak idle : Bool) : Nat :=
  (if idle then 2 ^ 6 else 0) + (if nak then 2 ^ 7 else 0) + ack % 4096 * 2 ^ 8 + seq % 4096 * 2 ^ 20

/-- The 4,096 bytes of a flit: its messages, PAD up to byte 4,087, the trailer with the CRC over all before it (R232). -/
def flitBytes (seq ack : Nat) (nak : Bool) (body : Bytes) : Bytes :=
  let front := slice 0 4088 body ++ bytesOf 4 (trailerLow seq ack nak body.isEmpty)
  front ++ bytesOf 4 (crc32c front)

/-- A received flit is intact (R232, R244). -/
def flitIntact (f : Bytes) : Bool := decide (natOf (slice 4092 4 f) = crc32c (f.take 4092))

/-- SEQ, ACK and NAK of a received flit (R232). -/
def flitSeq (f : Bytes) : Nat := natOf (slice 4088 4 f) / 2 ^ 20
def flitAck (f : Bytes) : Nat := natOf (slice 4088 4 f) / 2 ^ 8 % 4096
def flitNak (f : Bytes) : Bool := bitOf (natOf (slice 4088 4 f)) 7

/-- What a lane carries of a flit: 128-byte units in turn over the active lanes, lane 0 first (R232). -/
def laneBytes (lanes lane : Nat) (f : Bytes) : Bytes :=
  ((List.range 32).filter fun u => u % lanes == lane).flatMap fun u => slice (128 * u) 128 f

/-! ### One end of a link (R244) -/

/-- What the next flit takes of a transmit queue, as far as its message bytes have room (R233): the bytes, the tags of the messages
that end in it, those of one that goes on in the next flit, and what stays in the queue. -/
def fillFlit : Nat → List TxMsg → Bytes × List Nat × List Nat × List TxMsg
  | _, [] => ([], [], [], [])
  | room, m :: r =>
    if room = 0 then ([], [], [], m :: r)
    else if m.bytes.length ≤ room then
      let x := fillFlit (room - m.bytes.length) r
      (m.bytes ++ x.1, m.tags ++ x.2.1, x.2.2.1, x.2.2.2)
    else (m.bytes.take room, [], m.tags, { m with bytes := m.bytes.drop room, begun := true } :: r)

/-- Send a flit; it is kept until it is acknowledged, and takes a NAK that is due (R244). -/
def LinkSt.push (l : LinkSt) (body : Bytes) (tags begun : List Nat) : LinkSt :=
  { l with txSeq := (l.txSeq + 1) % 4096, replay := l.replay ++ [⟨l.txSeq, l.nakDue, body, tags, begun, 0⟩], nakDue := false }

/-- Pack the transmit queue into flits, at most k of them: messages stand back to back, and one may go on in the next flit
(R233). -/
def LinkSt.pack : Nat → LinkSt → LinkSt
  | 0, l => l
  | k + 1, l =>
    if l.txq.isEmpty then l
    else
      let x := fillFlit 4088 l.txq
      LinkSt.pack k (({ l with txq := x.2.2.2 } : LinkSt).push x.1 x.2.1 x.2.2.1)

/-- What the transmit queue holds goes out as far as the replay buffer has room: while it is full, nothing new is sent (R244). -/
def LinkSt.drain (l : LinkSt) : LinkSt := l.pack (256 - l.replay.length)

/-- The first n messages of the transmit queue may go out; those behind them wait (R312). -/
def LinkSt.drainSome (l : LinkSt) (n : Nat) : LinkSt :=
  let out := ({ l with txq := l.txq.take n } : LinkSt).drain
  { out with txq := out.txq ++ l.txq.drop n }

/-- A message enters the transmit queue of a window, and leaves at once where nothing keeps it (R235, R244). -/
def LinkSt.send (l : LinkSt) (body : Bytes) (tags : List Nat) : LinkSt :=
  ({ l with txq := l.txq ++ [⟨body, tags, false⟩] } : LinkSt).drain

/-- A packet of a job enters the transmit queue of a door's link: control before the bulk packets that still wait whole (R312). -/
def LinkSt.queuePacket (l : LinkSt) (body : Bytes) (job : Nat) : LinkSt :=
  let after := (l.txq.reverse.takeWhile fun y => !y.begun && servedBefore body y.bytes).reverse
  { l with txq := l.txq.take (l.txq.length - after.length) ++ [⟨body, [job], false⟩] ++ after }

/-- The far end has acknowledged the oldest n flits. -/
def LinkSt.ackSome (l : LinkSt) (n : Nat) : LinkSt := { l with replay := l.replay.drop n }

/-- The far end has acknowledged the flit with a sequence number and those before it (R232, R244). -/
def LinkSt.ackSeq (l : LinkSt) (seq : Nat) : LinkSt :=
  match splitFirst (fun f => f.seq == seq) l.replay with
  | some (_, _, rest) => { l with replay := rest }
  | none => l

/-- What is sent and not acknowledged, or waits to be sent, is discarded (R318). -/
def LinkSt.discard (l : LinkSt) : LinkSt := { l with replay := [], txq := [] }

/-- The jobs of the packets of which something stands in a door's replay buffer (R318). -/
def LinkSt.jobs (l : LinkSt) : List Nat := (l.replay.flatMap fun f => f.tags ++ f.begun).eraseDups

/-- The bytes of a flit of the replay buffer as it goes out now (R232, R244). -/
def LinkSt.image (l : LinkSt) (f : Flit) : Bytes := flitBytes f.seq l.rxLast f.nak f.body

/-- A flit has arrived in order and intact: what was discarded has been replayed, and a NAK that is due is due no more (R244). -/
def LinkSt.received (l : LinkSt) : LinkSt :=
  { l with rxLast := (l.rxLast + 1) % 4096, discarding := false, nakDue := false }

/-- A flit fails its CRC: it and every later flit is discarded until the replay arrives, and the next flit sent carries NAK: where
nothing else waits to be sent, that is a flit of PAD alone, with IDLE set (R232, R244). -/
def LinkSt.crcFailed (l : LinkSt) : LinkSt :=
  let l := { l with discarding := true, nakDue := true }
  if l.txq.isEmpty && decide (l.replay.length < 256) then l.push [] [] [] else l

/-- The far end has answered the request with a tag: it has received the flit in which its message ends, and every flit before it
(R244). -/
def LinkSt.ackTag (l : LinkSt) (tag : Nat) : LinkSt :=
  match splitFirst (fun f => f.tags.contains tag) l.replay with
  | some (_, _, rest) => ({ l with replay := rest } : LinkSt).drain
  | none => match splitFirst (fun m => m.tags.contains tag) l.txq with
    | some (_, _, rest) => ({ l with replay := [], txq := rest } : LinkSt).drain
    | none => l

/-- The far end has acknowledged everything. -/
def LinkSt.ackAll (l : LinkSt) : LinkSt := ({ l with replay := [] } : LinkSt).drain

/-- NAK: the newest n flits are sent again, and what is older has been acknowledged (R244). They go out without the NAK that they
had; one that is due goes out in the first of them. -/
def LinkSt.resend (l : LinkSt) (n : Nat) : LinkSt :=
  let kept := l.replay.drop (l.replay.length - n)
  let again := fun (e : Flit × Nat) => { e.1 with replays := e.1.replays + 1, nak := l.nakDue && e.2 == 0 }
  ({ l with replay := kept.zipIdx.map again, nakDue := l.nakDue && kept.isEmpty } : LinkSt).drain

/-- What an intact flit does by its trailer. One that is not the next in order is discarded, as it is while a replay is awaited;
else its ACK, and with NAK the replay from ACK + 1 (R232, R244). Its messages have commands of their own. -/
def LinkSt.hear (l : LinkSt) (f : Bytes) : LinkSt :=
  if flitSeq f ≠ (l.rxLast + 1) % 4096 then l
  else
    let l := l.received.ackSeq (flitAck f)
    if flitNak f then l.resend l.replay.length else l.drain

/-- Some flit has been replayed 8 times in succession (R245). -/
def LinkSt.stuck (l : LinkSt) : Bool := l.replay.any fun f => decide (8 ≤ f.replays)

/-- After a retraining, transmission resumes from the last acknowledged flit (R245). -/
def LinkSt.resume (l : LinkSt) : LinkSt :=
  { l with replay := l.replay.map (fun f => { f with replays := 0 }), discarding := false, nakDue := false }

/-- The number of a door pair's link; a window's link has the window's number. -/
def doorLinkNo (d k : Nat) : Nat := 32 + 4 * d + (if d = 15 then k else 0)

end Sys2Proof.Machine
end

