-- ==== Sys2Proof/Machine/Ops.lean ====
section
/-!
DEFINITION. Machine/Ops.lean: the named operations over registers, memory, latches, packets, interrupts and
error records that every command shares.
-/

namespace Sys2Proof.Machine

/-! ### Registers -/

/-- The value of a register field. -/
def State.get (s : State) (f : Fld) : Nat := sparseGet f.reset f.key s.regs

/-- Set a register field, whatever its access code: the block's own write. -/
def State.put (s : State) (f : Fld) (v : Nat) : State :=
  { s with regs := sparseSet f.reset f.key (v % 2 ^ f.w) s.regs }

/-- Count: a counter stays at its maximum value (R11). -/
def State.inc (s : State) (f : Fld) (n : Nat) : State :=
  s.put f (min (s.get f + n) (2 ^ f.w - 1))

/-- Keep the greatest value seen in a field. -/
def State.peak (s : State) (f : Fld) (n : Nat) : State :=
  if s.get f < n then s.put f n else s

/-- Put several fields. -/
def State.puts (s : State) (l : List (Fld × Nat)) : State := l.foldl (fun s e => s.put e.1 e.2) s

/-- Device time (R33). -/
def State.now (s : State) : Nat := s.get Reg.TIME.NOW

/-- The greatest device time: the counter stays there, since it does not wrap (R33). -/
def maxTime : Nat := 2 ^ 64 - 1

/-- Device time moves forward to t; it never goes back, and it does not wrap (R33). -/
def State.advanceTo (s : State) (t : Nat) : State :=
  if s.now < t then s.put Reg.TIME.NOW (min t maxTime) else s

/-- The block is out of reset and performs commands. -/
def State.live (s : State) : Bool := s.phase == .up

/-- The device is in the FE state (R428). -/
def State.fe (s : State) : Bool := s.get Reg.ERR.STATUS_FE == 1

/-- Core n is present (R1). -/
def State.present (s : State) (n : Nat) : Bool := n < 7 || (n == 7 && s.kept.grade == .n8)

/-- A mover is present (R2). -/
def State.moverPresent (s : State) (m : Nat) : Bool := decide (8 ≤ m) || s.present m

/-- A source number of R19's table that this device has: none of an absent core or its mover (R2, R20). -/
def State.isSource (s : State) (src : Nat) : Bool :=
  if src < 8 then s.present src
  else if 0x500 ≤ src ∧ src < 0x50A then s.moverPresent (src - 0x500)
  else (decide (0x100 ≤ src) && decide (src < 0x120)) || (decide (0x200 ≤ src) && decide (src < 0x210)) ||
    (decide (0x300 ≤ src) && decide (src < 0x310)) || (decide (0x400 ≤ src) && decide (src < 0x408))

/-- The router at column x and row y (R15). -/
def routerAt (x y : Nat) : Nat := 6 * y + x

/-- The router to which casement c is attached (R15). -/
def caseRouter (c : Nat) : Nat :=
  if c < 4 then routerAt (1 + c) 0 else if c < 8 then routerAt 5 (c - 3)
  else if c < 12 then routerAt (12 - c) 5 else routerAt 0 (16 - c)

/-- The routers to which core n is attached; its issue unit sits on the first (R15, R282). -/
def coreRouters (n : Nat) : List Nat := [routerAt (1 + n % 4) (1 + 2 * (n / 4)), routerAt (1 + n % 4) (2 + 2 * (n / 4))]

/-- The router at which a source's messages enter the mesh (R15): windows and doors are at their casement. A core's mover is
taken to be on the core's second router (log entry 88). -/
def routerOf (src : Nat) : Nat :=
  if src < 8 then (coreRouters src).headD 0
  else if 0x100 ≤ src ∧ src < 0x120 then caseRouter ((src - 0x100) / 2)
  else if 0x200 ≤ src ∧ src < 0x210 then caseRouter (src - 0x200)
  else if 0x300 ≤ src ∧ src < 0x310 then caseRouter (src - 0x300)
  else if src = 0x402 then routerAt 5 0
  else if src = 0x403 then routerAt 5 5
  else if src = 0x404 ∨ src = 0x509 then routerAt 0 5
  else if 0x500 ≤ src ∧ src < 0x508 then (coreRouters (src - 0x500)).getLastD 0
  else routerAt 0 0

/-- The router at which an index's latches and barrier counters live (R15). -/
def homeRouter (index : Nat) : Nat := index % 36


/-- The routers that a packet crosses: first along x, then along y (R283). -/
def meshPath (a b : Nat) : List Nat :=
  let x := a % 6
  let y := a / 6
  let x' := b % 6
  let y' := b / 6
  let steps := fun (p q : Nat) => (List.range (max p q - min p q + 1)).map fun i => if p ≤ q then p + i else p - i
  ((steps x x').map fun i => routerAt i y) ++ ((steps y y').drop 1).map fun j => routerAt x' j

/-- The cores present. -/
def State.coreList (s : State) : List Nat := (List.range 8).filter s.present

/-- What core n holds beside registers. -/
def State.core (s : State) (n : Nat) : CoreSt := sparseGet CoreSt.zero n s.cores

/-- Replace what core n holds. -/
def State.setCore (s : State) (n : Nat) (c : CoreSt) : State :=
  { s with cores := sparseSet CoreSt.zero n c s.cores }

/-- What window w holds beside registers. -/
def State.win (s : State) (w : Nat) : WinSt := sparseGet WinSt.zero w s.wins

/-- Replace what window w holds. -/
def State.setWin (s : State) (w : Nat) (x : WinSt) : State :=
  { s with wins := sparseSet WinSt.zero w x s.wins }

/-- Word k of a mover's channel context (R265). -/
def State.ctx (s : State) (m ch k : Nat) : Nat := (sparseGet 0 (m * 32768 + ch * 8 + k) s.contexts).toNat

/-- Write word k of a mover's channel context. -/
def State.setCtx (s : State) (m ch k v : Nat) : State :=
  { s with contexts := sparseSet 0 (m * 32768 + ch * 8 + k) (BitVec.ofNat 64 v) s.contexts }

/-- The end of an optical link that this device holds (R232, R244). -/
def State.link (s : State) (k : Nat) : LinkSt := sparseGet LinkSt.zero k s.links

/-- Replace this device's end of a link. -/
def State.setLink (s : State) (k : Nat) (l : LinkSt) : State := { s with links := sparseSet LinkSt.zero k l s.links }

/-- A free value's number: the counter moves on, so that the next one is another. -/
def State.draw (s : State) : State := { s with freeCtr := s.freeCtr + 1 }

/-- This device's number: tray in [5:4], position in [3:0] (R21, R544). -/
def State.dev (s : State) : Nat := s.kept.straps.trayId.toNat * 16 + s.kept.straps.trayPos.toNat

/-- A global source (R21). -/
def State.gsrc (s : State) (src : Nat) : Nat := s.dev * 65536 + src

/-- The check epoch of the present device time (R315). -/
def State.epoch (s : State) : Nat := s.now / 1024

/-- Epoch a is at or after epoch b, by the signed difference of their low 32 bits (R315). -/
def epochGe (a b : Nat) : Bool := decide (0 ≤ signed 32 ((a + 2 ^ 32 - b % 2 ^ 32) % 2 ^ 32))

/-! ### Memory (R176, R401, R404, R240, R242) -/

/-- Where the core stores begin. -/
def csBase : Nat := 0x100000000000

/-- The bytes of one core store. -/
def csSize : Nat := 0x4000000

/-- Where host memory begins. -/
def hostBase : Nat := 0x800000000000

/-- The byte at a physical address of main memory or a core store. -/
def State.byte (s : State) (pa : Nat) : Byte := sparseGet 0 pa s.mem

/-- Bytes from a physical address. -/
def State.bytes (s : State) (pa n : Nat) : Bytes := (List.range n).map fun i => s.byte (pa + i)

/-- Write one byte. -/
def State.setByte (s : State) (pa : Nat) (b : Byte) : State := { s with mem := sparseSet 0 pa b s.mem }

/-- Write the bytes that are present, from a physical address up. -/
def State.setBytes (s : State) (pa : Nat) : List (Option Byte) → State
  | [] => s
  | none :: r => s.setBytes (pa + 1) r
  | some b :: r => (s.setByte pa b).setBytes (pa + 1) r

/-- The unit that poison marks at an address: a 32-byte piece of a core store, a 64-byte sector of main
memory, in pieces of 32 bytes. -/
def poisonUnit (pa : Nat) : Nat := if csBase ≤ pa then 1 else 2

/-- The first piece of the unit that holds an address. -/
def unitOf (pa : Nat) : Nat := pa / 32 / poisonUnit pa * poisonUnit pa

/-- The unit that holds an address is poisoned. -/
def State.poisoned (s : State) (pa : Nat) : Bool := s.poison.contains (unitOf pa)

/-- Some unit of a range is poisoned. -/
def State.poisonedIn (s : State) (pa n : Nat) : Bool :=
  n != 0 && s.poison.any fun p => decide (p * 32 < pa + n) && decide (pa < (p + poisonUnit (p * 32)) * 32)

/-- Clear the poison of the units that lie whole in a range. -/
def State.clearPoison (s : State) (pa n : Nat) : State :=
  { s with poison := s.poison.filter fun p =>
      !(decide (pa ≤ p * 32) && decide ((p + poisonUnit (p * 32)) * 32 ≤ pa + n)) }

/-- The 64-bit word that monitor m watches. -/
def State.monPa (s : State) (m : Nat) : Nat := s.get (Reg.BARRIER.MON_PA m) * 8

/-- The armed monitors whose word meets a range. -/
def State.watching (s : State) (pa n : Nat) : List Nat :=
  (s.net.monTags.filter fun e => decide (s.monPa e.1 < pa + n) && decide (pa < s.monPa e.1 + 8)).map Prod.fst

/-- Poison the unit that holds an address; a monitor of a word in it, numbered 256 more, learns of it (R301,
R413). -/
def State.setPoison (s : State) (pa : Nat) : State :=
  let u := unitOf pa
  let hit := (s.watching (32 * u) (32 * poisonUnit pa)).map fun m => (m + 256, (0 : BitVec 64))
  { s with poison := setInsert u s.poison, net := { s.net with monWrites := s.net.monWrites ++ hit } }

/-- The armed monitors whose word meets a range and has changed since old, each with the word's new value (R300). -/
def State.monHits (s old : State) (pa n : Nat) : List (Nat × BitVec 64) :=
  ((s.watching pa n).filter fun m => s.bytes (s.monPa m) 8 != old.bytes (s.monPa m) 8).map fun m =>
    (m, BitVec.ofNat 64 (natOf (s.bytes (s.monPa m) 8)))

/-- Values for the monitors to test. -/
def State.noteHits (s : State) (l : List (Nat × BitVec 64)) : State :=
  { s with net := { s.net with monWrites := s.net.monWrites ++ l } }

/-- Every armed monitor whose word a write in a range has changed takes the word's new value (R300). -/
def State.noteMonitors (s old : State) (pa n : Nat) : State := s.noteHits (s.monHits old pa n)

/-- A write performed in main memory or a core store: the bytes, the poison of units replaced whole, and the
monitors (R240, R300, R404). -/
def State.store (s : State) (pa : Nat) (data : Bytes) : State :=
  ((s.setBytes pa (data.map some)).clearPoison pa data.length).noteMonitors s pa data.length

/-! ### Latches, packets, interrupts -/

/-- A control packet enters the mesh at a router for another one: it has the next number, and every router that it crosses, its
first and its last among them, forwards its one flit (R282, R283, R304; log entry 106). -/
def NetSt.cross (t : NetSt) (a b : Nat) : NetSt :=
  { t with sent := t.sent + 1,
           flits := (meshPath a b).foldl (fun l r => sparseSet 0 r (sparseGet 0 r l + 1) l) t.flits }

/-- Inject a message to a latch's home at a router (R283, R291). -/
def State.injectLatch (s : State) (router : Nat) (src latch : Nat) (op : HomeOp) (ack : Option (Nat × Nat)) (close : Bool) :
    State :=
  { s with net := { s.net.cross router (homeRouter (latch % 16384)) with
      latchMsgs := s.net.latchMsgs ++ [⟨src, latch % 16384, op, ack, close, router, s.net.sent⟩] } }

/-- Send one latch message from a unit (R291, R293). -/
def State.sendLatch (s : State) (src latch : Nat) (set : Bool) (ack : Option (Nat × Nat)) : State :=
  s.injectLatch (routerOf src) src latch (if set then .set else .clear) ack false

/-- The device is a member of a formed configuration and not its lead (R325). -/
def State.isMember (s : State) : Bool :=
  s.get (Reg.DOOR.FORMED 0) == 1 && s.get (Reg.DOOR.IS_LEAD 0) == 0

/-- The lead's device number; a device alone is its own lead (R468). -/
def State.lead (s : State) : Nat := if s.get (Reg.DOOR.FORMED 0) = 1 then s.get (Reg.DOOR.LEAD 0) else s.dev

/-- The members of the configuration, this device included. -/
def State.members (s : State) : List Nat :=
  if s.get (Reg.DOOR.FORMED 0) = 1 then (List.range 64).filter fun d => bitOf (s.get (Reg.DOOR.MEMBERS 0)) d else [s.dev]

/-- The other devices of the configuration. -/
def State.others (s : State) : List Nat := s.members.filter fun d => d ≠ s.dev

/-- The door from tray position p to position q (R306). -/
def doorTo (p q : Nat) : Nat := q - (if p < q then 1 else 0)

/-- A door's link, or one pair of door 15, carries packets: it is not OFF, EXCLUDED or DOWN. -/
def State.linkUsable (s : State) (d k : Nat) : Bool :=
  let st := s.get (Reg.DOOR.LINK_STATE d (if d = 15 then k else 0))
  st == 3 || st == 4

/-- The door and pair that a packet for a device takes by R308's table. -/
def State.direct (s : State) (dst : Nat) : Nat × Nat :=
  if dst / 16 = s.dev / 16 then (doorTo (s.dev % 16) (dst % 16), 0) else (15, (dst / 16 + 4 - s.dev / 16 - 1) % 4)

/-- A link from device a to device b, neither of them this one, is UP: no packet tells a device the state of another's links, so
that it is free (R309; log entry 41). -/
def State.farUp (s : State) (a b : Nat) : Bool := a == b || Config.openValue 41 (2 * ((s.freeCtr * 64 + a) * 64 + b)) % 2 == 0

/-- The links of the detour over tray position r are all UP (R309). -/
def State.detourUp (s : State) (dst r : Nat) : Bool :=
  s.linkUsable (doorTo (s.dev % 16) r) 0 &&
    (dst / 16 == s.dev / 16 || s.farUp (s.dev / 16 * 16 + r) (dst / 16 * 16 + r)) && s.farUp (dst / 16 * 16 + r) dst

/-- The lowest tray position through which a packet for a device can go round (R309). -/
def State.detour (s : State) (dst : Nat) : Option Nat :=
  (List.range 16).find? fun r => decide (r ≠ s.dev % 16) && (decide (dst / 16 ≠ s.dev / 16) || decide (r ≠ dst % 16)) &&
    s.detourUp dst r

/-- The door and pair on which a packet for a device leaves (R308), or, where that link is DOWN, those of the detour (R309);
none when no way is left. -/
def State.route (s : State) (dst : Nat) : Option (Nat × Nat) :=
  let go := s.direct dst
  if dst = s.dev then none
  else if s.linkUsable go.1 go.2 then some go
  else if s.get (Reg.DOOR.LINK_STATE go.1 (if go.1 = 15 then go.2 else 0)) = 6 then
    (s.detour dst).map fun r => (doorTo (s.dev % 16) r, 0)
  else none

/-- A header for a packet of this device. -/
def State.hdr (s : State) (src dst job addr sectors : Nat) : Hdr :=
  { ackReq := false, relayed := false, sectors := BitVec.ofNat 6 sectors, tag := 0,
    src := BitVec.ofNat 22 (s.gsrc src), dst := BitVec.ofNat 6 dst, job := BitVec.ofNat 6 job, poison := 0,
    addr := BitVec.ofNat 57 addr, epoch := BitVec.ofNat 32 s.epoch }

/-- The packets of a door's transmit queue for which the next hop has credits go out, as far as the replay buffer has room. The
credits of the next hop are not seen here, nor when the last packet of a flow has left its old route: how many packets wait is
free (R312, R319; log entry 87). -/
def State.pushOut (s : State) (d k : Nat) : State :=
  let l := s.link (doorLinkNo d k)
  s.draw.setLink (doorLinkNo d k) (l.drainSome (l.txq.length - Config.openValue 87 s.freeCtr % (l.txq.length + 1)))

/-- Hand a packet to a door's link: it enters the link's transmit queue (R244, R310, R312). -/
def State.sendOn (s : State) (d k : Nat) (x : Pkt) : State :=
  let s := s.setLink (doorLinkNo d k) ((s.link (doorLinkNo d k)).queuePacket (packetHead x.ty x.h ++ x.p) x.h.job.toNat)
  (({ s with doors := { s.doors with tx := s.doors.tx ++ [(d, k, x)] } } : State).inc (Reg.DOOR.TX_BYTES d)
    (32 + x.p.length)).pushOut d k

/-- Hand a packet to its route, when one is left (R308, R309). -/
def State.sendPkt (s : State) (ty : Nat) (h : Hdr) (p : Bytes) : State :=
  match s.route h.dst.toNat with
  | some (d, k) => s.sendOn d k (Pkt.mk ty h p)
  | none => s

/-- Send one packet of a type and address to every other device of the configuration. -/
def State.sendAll (s : State) (ty src job addr : Nat) (p : Bytes) : State :=
  s.others.foldl (fun s d => s.sendPkt ty (s.hdr src d job addr (p.length / 64)) p) s

/-- Send an MSI-X vector: pending while masked, else a message (R465, R466). -/
def State.sendVec (s : State) (v : Nat) : State :=
  if s.get (Reg.GEN.MSIX_MASK v) = 1 then s.put (Reg.GEN.MSIX_PENDING v) 1
  else { s with host := { s.host with msi := s.host.msi ++ [v] } }

/-- What configuration space says of the device: its ID and its class code (R449). -/
def State.deviceId (s : State) : Nat := if s.kept.grade = .n8 then 0x0864 else 0x0874
def classCode : Nat := 0x120000

/-- The writes that carry bytes: at most the maximal payload each, which is 128 bytes or more (R449). -/
def postedWrites (size addr : Nat) (data : Bytes) : List HostWrite :=
  let n := max 128 size
  if data.length ≤ n then [⟨addr, data⟩]
  else (List.range (ceilDiv data.length n)).map fun i => ⟨addr + n * i, (data.drop (n * i)).take n⟩

/-- Post a write to host memory by host bus address. -/
def State.hostPost (s : State) (addr : Nat) (data : Bytes) : State :=
  { s with host := { s.host with out := s.host.out ++ postedWrites s.host.maxPayload addr data } }

/-- Note an uncorrectable error in AER: bit 12 a poisoned TLP received, 14 a completion timeout, 15 a completer abort, 20 an
unsupported request (R449; log entry 52). -/
def State.noteAer (s : State) (b : Nat) : State := { s with host := { s.host with aer := s.host.aer ||| 2 ^ b } }

/-- An event entry of 32 bytes (R482). -/
def eventBytes (seq code dev job core time v0 v1 : Nat) (phase : Bool) : Bytes :=
  bytesOf 4 seq ++ bytesOf 1 code ++ bytesOf 1 dev ++ bytesOf 1 job ++ bytesOf 1 core ++ bytesOf 8 time ++
    bytesOf 8 v0 ++ bytesOf 4 v1 ++ bytesOf 3 0 ++ bytesOf 1 (if phase then 128 else 0)

/-- Number and write one event into the event ring (R482). Events are counted without bound, and the entry's SEQ is the low 32 bits
of the number: it wraps to 0 (DESIGN CHOICE, log entry 118). -/
def State.writeEvent (s : State) (code dev job core time v0 v1 : Nat) : State :=
  let seq := s.host.evSeq
  let size := 2 ^ s.host.evLog2
  let s' := { s with host := { s.host with evSeq := seq + 1 } }
  if s.host.evEn then
    (s'.hostPost (s.host.evAddr + 32 * (seq % size))
      (eventBytes seq code dev job core time v0 v1 (seq / size % 2 == 0))).sendVec s.host.evVec
  else s'

/-- An event arises: the lead numbers it, a member sends it to the lead (R482, R505). -/
def State.event (s : State) (code job core v0 v1 : Nat) : State :=
  if s.isMember then
    s.sendPkt 9 (s.hdr 0x400 s.lead 0 6 1)
      (eventBytes 0 code s.dev job core s.now v0 v1 false ++ bytesOf 32 0)
  else s.writeEvent code s.dev job core s.now v0 v1

/-! ### Error records (R405 to R410) -/

/-- What a rule says about a record: source, unit, class, job, code, tag, command flag, epoch, syndrome. -/
structure Rec where
  src : Nat
  unit : Nat
  cls : Nat
  job : Nat
  code : Nat
  tag : Nat
  cmd : Bool
  epoch : Option Nat
  synd : Nat
deriving DecidableEq, Repr

/-- A record with neither tag nor epoch. -/
def mkRec (src unit cls job code synd : Nat) : Rec := ⟨src, unit, cls, job, code, 0, false, none, synd⟩

/-- The core rail domain of a source: cores and their movers (R405). -/
def railCore (src : Nat) : Option Nat :=
  if src < 8 then some src else if 0x500 ≤ src ∧ src < 0x508 then some (src - 0x500) else none

/-- The hotspot of a source's rail domain (R405). -/
def State.tjOf (s : State) (src : Nat) : Nat :=
  match railCore src with
  | some n => s.get (Reg.PWR.CSTAT_TJ n)
  | none => if 0x300 ≤ src ∧ src < 0x310 then s.get (Reg.CASE.TJ (src - 0x300)) else s.pwr.uncoreTj

/-- What a rail that goes to a voltage stands at: it moves at 25 mV/µs from where it set out, in steps of 5 mV (R30, R48, R49,
R56). -/
def State.railNow (s : State) (rail goal : Nat) : Nat :=
  match s.pwr.ramps.find? (fun e => e.1 = rail) with
  | some e =>
    let far := 25 * (s.now - e.2.2) / 1000 / 5 * 5
    if e.2.1 ≤ goal then min goal (e.2.1 + far) else max goal (e.2.1 - far)
  | none => goal

/-- The voltage of a core's rail (R56). -/
def State.coreMv (s : State) (n : Nat) : Nat := s.railNow n (s.get (Reg.PWR.CSTAT_RAIL_MV n))

/-- A core's rail sets out for a voltage at 25 mV/µs (R48, R49). -/
def State.rampRail (s : State) (n goal : Nat) : State :=
  ({ s with pwr := { s.pwr with ramps := assocPut n (s.coreMv n, s.now) s.pwr.ramps } } : State).put
    (Reg.PWR.CSTAT_RAIL_MV n) goal

/-- A core's rail is put at a voltage at once. -/
def State.putRail (s : State) (n mv : Nat) : State :=
  ({ s with pwr := { s.pwr with ramps := s.pwr.ramps.filter fun e => e.1 ≠ n } } : State).put (Reg.PWR.CSTAT_RAIL_MV n) mv

/-- The rail of a source (R405). -/
def State.railOf (s : State) (src : Nat) : Nat :=
  match railCore src with
  | some n => s.coreMv n
  | none => if 0x300 ≤ src ∧ src < 0x310 then lookupD 0 (src - 0x300) s.pwr.optMv else s.railNow 8 s.pwr.uncoreMv

/-- The 60 bytes of a record before its check (R405). -/
def State.recBody (s : State) (r : Rec) : Bytes :=
  bytesOf 8 s.now ++ bytesOf 4 (s.gsrc r.src) ++ bytesOf 1 r.unit ++ bytesOf 1 (r.cls * 64 + r.job % 64) ++
    bytesOf 1 r.code ++ bytesOf 1 (ofBool r.cmd + (if r.epoch.isSome then 2 else 0)) ++ bytesOf 4 r.tag ++
    bytesOf 2 (s.tjOf r.src) ++ bytesOf 2 (s.railOf r.src) ++ bytesOf 16 r.synd ++
    bytesOf 8 (s.get Reg.ERR.LOG_SEQ) ++ bytesOf 4 (r.epoch.getD 0) ++ bytesOf 8 0

/-- A body with its CRC. -/
def sealRec (body : Bytes) : Bytes := body ++ bytesOf 4 (crc32c body)

/-- Put the eight words of a record. -/
def State.putWords (s : State) (at_ : Nat → Fld) (b : Bytes) : State :=
  (List.range 8).foldl (fun s k => s.put (at_ k) (natOf (slice (8 * k) 8 b))) s

/-- A 64-byte record enters the log; the notify latch follows (R408 to R410). -/
def State.enterLog (s : State) (cls : Nat) (src : Nat) (b : Bytes) : State :=
  let q := s.get Reg.ERR.LOG_SEQ
  let old := s.get (Reg.ERR.LOG (q % 512) 5)
  let s := if 512 < q ∧ s.get Reg.ERR.LOG_RD ≤ old then s.inc Reg.ERR.LOST 1 else s
  let s := (s.putWords (Reg.ERR.LOG (q % 512)) b).inc Reg.ERR.LOG_SEQ 1
  let s := if cls = 0 then s.inc Reg.ERR.CE_CNT 1 else if cls = 1 then s.inc Reg.ERR.DE_CNT 1
    else ({ s with host := { s.host with restoreEvents := s.now :: s.host.restoreEvents } } : State).inc Reg.ERR.FE_CNT 1
  if s.get Reg.ERR.CTL_NOTIFY_V = 1 ∧ min (s.get Reg.ERR.CTL_NOTIFY_MIN) 2 ≤ cls then
    s.sendLatch src (s.get Reg.ERR.CTL_NOTIFY) true none
  else s

/-- An FE record of a time from a global source is the first one: none stands, or one of a later time, or of the same time from a
higher source (R46, R409, R428). -/
def State.firstFE (s : State) (time gsrc : Nat) : Bool :=
  s.get (Reg.ERR.FIRST_FE 5) == 0 || decide (time < s.get (Reg.ERR.FIRST_FE 0)) ||
    (s.get (Reg.ERR.FIRST_FE 0) == time && decide (gsrc < s.get Reg.ERR.FE_SRC))

/-- Keep an FE record in FIRST_FE where it is the first one (R409). -/
def State.keepFE (s : State) (time gsrc : Nat) (b : Bytes) : State :=
  if s.firstFE time gsrc then (s.putWords Reg.ERR.FIRST_FE b).put Reg.ERR.FE_SRC gsrc else s

/-- Write one error record; a member's DE and FE records go to the lead too (R405, R411). -/
def State.addRec (s : State) (r : Rec) : State :=
  let b := sealRec (s.recBody r)
  let s' := s.enterLog r.cls r.src b
  let s' := if r.cls = 2 then s'.keepFE s.now (s.gsrc r.src) b else s'
  if r.cls ≠ 0 ∧ s.isMember then s'.sendPkt 9 (s.hdr 0x400 s.lead 0 3 1) b else s'

/-- A corrected event (class CE). -/
def State.ce (s : State) (src unit code synd : Nat) : State := s.addRec (mkRec src unit 0 0 code synd)

/-- The record of a host write that would have changed a field reserved to Sill firmware (R27, R407, R550). -/
def State.hostRefused (s : State) (off v : Nat) : State :=
  s.addRec (mkRec 0x401 0x14 1 0 0x2E (off % 2 ^ 26 + v % 2 ^ 64 * 2 ^ 26))

/-- A result has been written whose residue verdict is still to come (R116, R154, R316). -/
def State.pushCheck (s : State) (src unit tag job bucket : Nat) (pages : List (Nat × Nat)) : State :=
  { s with checks := s.checks ++ [⟨src, unit, tag, job, s.epoch, bucket, pages⟩] }

/-! ### Lists -/

/-- The entry at place i of a list of messages, or the oldest one that shares its way and so arrives before it
(R283), with the rest of the list. -/
def pick {α : Type} (same : α → α → Bool) (i : Nat) (l : List α) : Option (α × List α) :=
  match l[i]? with
  | none => none
  | some a => match splitFirst (same a) l with
    | some (x, y, z) => some (y, x ++ z)
    | none => none

/-- The members of a list after one entry has been replaced. -/
def mapIf {α : Type} (p : α → Bool) (f : α → α) (l : List α) : List α := l.map fun a => if p a then f a else a

end Sys2Proof.Machine
end

