-- ==== Sys2Proof/Machine/Operands.lean ====
section
/-!
DEFINITION. Machine/Operands.lean: what a tensor descriptor says (chapter 6): its fields, the addresses it
generates, its footprint, its scale tensor, the injectivity check and the checks that every use makes; and
reading and writing elements through pages that are already bound.
-/

namespace Sys2Proof.Machine

/-- How a PORT_INTERLEAVED descriptor is laid out: for the lane port or the broadcast port, which dimension
carries K, and the elements of a chunk (R99). -/
structure Il where
  lane : Bool
  kd : Nat
  w : Nat
deriving DecidableEq, Repr

/-- A descriptor, parsed; dimensions beyond RANK are left out, since they have size 1 and stride 0 (R160). -/
structure TD where
  base : Nat
  type : Nat
  rank : Nat
  sizes : List Nat
  strides : List Int
  bsize : Nat
  bdim : Nat
  sbase : Nat
  tensorId : Nat
  arrive : Bool
  distributed : Bool
  portIl : Bool
  compressed : Bool
  ordered : Bool
  /-- the interleaved layout that the instruction gives the descriptor, where it carries the flag -/
  il : Option Il
deriving DecidableEq, Repr

/-- Read a descriptor's fields; reserved bits are ignored (R157, R159). -/
def parseTD (b : BitVec 1024) : TD :=
  let n := b.toNat
  let f := n / 2 ^ 64 % 2 ^ 64
  let r := min (bitsOf f 10 8) 6
  { base := bitsOf n 56 0, type := bitsOf f 7 0, rank := bitsOf f 10 8,
    sizes := (List.range r).map fun d => n / 2 ^ (8 * (16 + 4 * d)) % 2 ^ 32,
    strides := (List.range r).map fun d => signed 40 (n / 2 ^ (8 * (40 + 5 * d))),
    bsize := bitsOf f 17 16, bdim := bitsOf f 20 18, sbase := n / 2 ^ 576 % 2 ^ 57,
    tensorId := bitsOf f 47 32, arrive := bitOf f 28, distributed := bitOf f 27, portIl := bitOf f 26,
    compressed := bitOf f 25, ordered := bitOf f 24, il := none }

/-- The width of an element type in bits (R57). -/
def typeBits (t : Nat) : Nat :=
  match t with
  | 0x01 => 32 | 0x02 => 16 | 0x03 => 16 | 0x04 => 8 | 0x05 => 8 | 0x06 => 6 | 0x07 => 6 | 0x08 => 4
  | 0x09 => 8 | 0x0A => 8 | 0x0B => 4 | 0x0C => 32 | 0x0D => 64 | 0x0E => 8 | 0x0F => 1 | _ => 0

/-- The types that may be block-scaled (R61). -/
def scalable (t : Nat) : Bool := [0x04, 0x05, 0x06, 0x07, 0x08, 0x09, 0x0B].contains t

/-- The elements in all. -/
def TD.count (d : TD) : Nat := d.sizes.foldl (· * ·) 1

/-- The size of a dimension; 1 beyond the rank (R160). -/
def TD.size (d : TD) (i : Nat) : Nat := d.sizes.getD i 1

/-- The stride of a dimension; 0 beyond the rank (R160). -/
def TD.stride (d : TD) (i : Nat) : Int := d.strides.getD i 0

/-- The element width in bits. -/
def TD.wbits (d : TD) : Nat := typeBits d.type

/-- The indices of a linear index, dimension 0 first (R170). -/
def unlin : List Nat → Nat → List Nat
  | [], _ => []
  | n :: r, i => i % n :: unlin r (i / n)

/-- The linear index of indices (R170). -/
def lin : List Nat → List Nat → Nat
  | n :: ns, i :: is => i + n * lin ns is
  | _, _ => 0

/-- The offset of indices in elements; the stride of a dimension of size 1 is not used (R161). -/
def offsetOf : List Nat → List Int → List Nat → Int
  | n :: ns, t :: ts, i :: is => (if n = 1 then 0 else (i : Int) * t) + offsetOf ns ts is
  | _, _, _ => 0

/-- The bytes of a segment of the interleaved layout (R99). -/
def TD.segment (d : TD) (l : Il) : Nat := l.w * d.wbits / 8

/-- The chunks of the interleaved layout. -/
def TD.ilChunks (d : TD) (l : Il) : Nat := ceilDiv (d.size l.kd) l.w

/-- The bytes of one batch element of the interleaved layout (R99). -/
def TD.ilBatch (d : TD) (l : Il) : Nat :=
  let blocks := ceilDiv (d.size (1 - l.kd)) 32
  (if l.lane then ceilDiv blocks 8 * 8 else blocks) * d.ilChunks l * 32 * d.segment l

/-- The bit offset of an element of the interleaved layout (R99). -/
def TD.ilBit (d : TD) (l : Il) (ix : List Nat) : Nat :=
  let k := ix.getD l.kd 0
  let r := ix.getD (1 - l.kd) 0
  let c := k / l.w
  let b := r / 32
  let place := if l.lane then (((b / 8 * d.ilChunks l + c) * 8 + b % 8) * 32 + r % 32) * d.segment l
    else ((b * d.ilChunks l + c) * 32 + r % 32) * d.segment l
  8 * (lin (d.sizes.drop 2) (ix.drop 2) * d.ilBatch l + place) + k % l.w * d.wbits

/-- The bit address of the element with indices ix, counted from virtual address 0 (R58, R99, R161). -/
def TD.bitAddr (d : TD) (ix : List Nat) : Nat :=
  match d.il with
  | some l => d.base * 8 + d.ilBit l ix
  | none => ((d.base * 8 : Nat) + (d.wbits : Int) * offsetOf d.sizes d.strides ix).toNat

/-- The virtual address of the first byte of an element. -/
def TD.va (d : TD) (ix : List Nat) : Nat := d.bitAddr ix / 8

/-- The lowest and the highest element offset (R163). -/
def offRange : List Nat → List Int → Int × Int
  | n :: ns, t :: ts =>
    let r := offRange ns ts
    if n ≤ 1 then r else (r.1 + min 0 (t * (n - 1)), r.2 + max 0 (t * (n - 1)))
  | _, _ => (0, 0)

/-- The tile slots of a COMPRESSED descriptor fill their bytes densely (R141): bytes of one slot. -/
def tileSlot (t : Nat) : Nat := 128 * typeBits t + 64

/-- The rows and columns of tiles, and the matrices beyond dimension 1. -/
def TD.tiles (d : TD) : Nat :=
  ceilDiv (d.size 0) 32 * ceilDiv (d.size 1) 32 * (d.sizes.drop 2).foldl (· * ·) 1

/-- The footprint: lowest and highest byte, as integers so that a range below 0 shows (R163, R141). -/
def TD.footprint (d : TD) : Int × Int :=
  match d.il with
  | some l => ((d.base : Int), (d.base : Int) + (d.ilBatch l * (d.sizes.drop 2).foldl (· * ·) 1 : Nat) - 1)
  | none =>
    if d.compressed then ((d.base : Int), (d.base : Int) + (tileSlot d.type * d.tiles : Nat) - 1)
    else
      let r := offRange d.sizes d.strides
      (((d.base * 8 : Nat) + d.wbits * r.1) / 8, ((d.base * 8 : Nat) + d.wbits * r.2 + d.wbits - 1) / 8)

/-- The block size in elements; 0 without block scales (R164). -/
def TD.block (d : TD) : Nat := if d.bsize = 1 then 16 else if d.bsize = 2 then 32 else 0

/-- The sizes of the scale tensor (R165). -/
def TD.scaleSizes (d : TD) : List Nat :=
  d.sizes.zipIdx.map fun e => if e.2 = d.bdim then ceilDiv e.1 d.block else e.1

/-- The virtual address of the scale of an element (R165). -/
def TD.scaleVa (d : TD) (ix : List Nat) : Nat :=
  d.sbase + lin d.scaleSizes (ix.zipIdx.map fun e => if e.2 = d.bdim then e.1 / d.block else e.1)

/-- The bytes of the scale tensor. -/
def TD.scaleCount (d : TD) : Nat := d.scaleSizes.foldl (· * ·) 1

/-- The footprint is empty (R163). -/
def TD.isEmpty (d : TD) : Bool := d.sizes.contains 0

/-- The byte ranges of a descriptor, scale tensor included: first byte and count; none when empty (R163). -/
def TD.ranges (d : TD) : List (Nat × Nat) :=
  if d.isEmpty then [] else
    let f := d.footprint
    (f.1.toNat, (f.2 - f.1 + 1).toNat) :: (if d.bsize = 0 then [] else [(d.sbase, d.scaleCount)])

/-- Two lists of ranges meet. -/
def meets (a b : List (Nat × Nat)) : Bool :=
  a.any fun x => b.any fun y => x.1 < y.1 + y.2 && y.1 < x.1 + x.2

/-- Insert a dimension by ascending magnitude of its stride. -/
def insDim (x : Nat × Nat) : List (Nat × Nat) → List (Nat × Nat)
  | [] => [x]
  | y :: r => if x.1 ≤ y.1 then x :: y :: r else y :: insDim x r

/-- The injectivity check over sorted (|stride|, size) pairs (R168). -/
def injChain (e : Nat) : List (Nat × Nat) → Bool
  | [] => true
  | (t, n) :: r => decide (e ≤ t) && injChain (e + t * (n - 1)) r

/-- The injectivity check (R168). -/
def TD.injective (d : TD) : Bool :=
  injChain 1 (((d.sizes.zip d.strides).filter fun e => decide (1 < e.1)).foldl
    (fun l e => insDim (e.2.natAbs, e.1) l) [])

/-! ### Faults -/

/-- The operand of a fault (R551). -/
def roleD : Nat := 1
def roleA : Nat := 2
def roleB : Nat := 3
def roleX : Nat := 4

/-- An instruction fault: code, role, tensor number, detail (R225, R551). -/
structure Flt where
  code : Nat
  role : Nat
  tensor : Nat
  detail : Nat
deriving DecidableEq, Repr

/-- A fault without an operand. -/
def flt (code : Nat) : Flt := ⟨code, 0, 0, 0⟩

/-- A fault that names an operand (R172). -/
def fltOf (code role : Nat) (d : TD) (detail : Nat) : Flt :=
  ⟨code, role, if d.distributed then d.tensorId else 0, detail⟩

/-- The detail of an ADDRESS fault (R551). -/
def addrDetail (va reason level job : Nat) : Nat :=
  va % 2 ^ 57 + reason * 2 ^ 57 + level * 2 ^ 61 + job % 64 * 2 ^ 63

/-- A unit hands a packet of its own to its route; where no way is left it faults the request with ADDRESS, as for a device outside
the configuration: which address the record of it names is free (R219, R309; log entries 24 and 41). -/
def State.sendReq (s : State) (unit ty : Nat) (h : Hdr) (p : Bytes) : State :=
  if (s.route h.dst.toNat).isSome then s.sendPkt ty h p
  else s.addRec (mkRec (h.src.toNat % 65536) unit 1 h.job.toNat 8
    (addrDetail (Config.openValue 41 (2 * s.freeCtr + 1)) (Config.openValue 24 0 % 16) 0 h.job.toNat)) |>.draw

/-- Send one such packet of a type and address to every other device of the configuration. -/
def State.reqAll (s : State) (unit ty src job addr : Nat) (p : Bytes) : State :=
  s.others.foldl (fun s d => s.sendReq unit ty (s.hdr src d job addr (p.length / 64)) p) s

def cENCODING : Nat := 0x01
def cSLOT : Nat := 0x02
def cLATE : Nat := 0x03
def cTYPE : Nat := 0x04
def cSHAPE : Nat := 0x05
def cLAYOUT : Nat := 0x06
def cALIAS : Nat := 0x07
def cADDRESS : Nat := 0x08
def cTABLE : Nat := 0x09
def cNUMERIC : Nat := 0x0A
def cINDEX : Nat := 0x0B
def cMETADATA : Nat := 0x0C
def cCONFIG : Nat := 0x0D
def cPOISON : Nat := 0x0E

/-- The first fault of a list of checks. -/
def firstFlt : List (Option Flt) → Option Flt
  | [] => none
  | some f :: _ => some f
  | none :: r => firstFlt r

/-- A check that fails with a fault. -/
def need (ok : Bool) (f : Flt) : Option Flt := if ok then none else some f

/-- Every row of a packed type starts on its boundary: a byte, or 3 bytes for FP6 (R58). -/
def TD.rowsAligned (d : TD) : Bool :=
  let q : Int := if d.wbits = 6 then 4 else if d.wbits < 8 ∧ d.wbits ≠ 0 then ((8 / d.wbits : Nat) : Int) else 1
  ((d.sizes.zip d.strides).drop 1).all fun e => decide (e.1 ≤ 1) || decide (e.2 % q = 0)

/-- The checks that every use of a descriptor makes: rank, type, alignment, block scales, flags, footprint
(R57, R58, R61, R160 to R164, R167). Which address the fault of a footprint outside the 57-bit space carries is not
stated: free (log entry 84). -/
def TD.check (d : TD) (role job : Nat) (types : List Nat) (scales compOk portOk : Bool) : Option Flt :=
  let w := d.wbits / 8
  firstFlt [
    need (1 ≤ d.rank && d.rank ≤ 6) (fltOf cSHAPE role d 0),
    need (types.contains d.type) (fltOf cTYPE role d 0),
    need (w ≤ 1 || d.base % w = 0) (fltOf cTYPE role d 0),
    need (d.portIl || d.compressed || d.rowsAligned) (fltOf cTYPE role d 0),
    need (d.bsize = 0 || (scales && d.bsize ≠ 3 && scalable d.type && d.bdim < d.rank)) (fltOf cTYPE role d 0),
    need (!(d.compressed && d.portIl)) (fltOf cLAYOUT role d 0),
    need (!d.compressed || compOk) (fltOf cLAYOUT role d 0),
    need (!d.portIl || portOk) (fltOf cLAYOUT role d 0),
    need (d.isEmpty || (decide (0 ≤ d.footprint.1) && decide (d.footprint.2 < 2 ^ 57)))
      (fltOf cADDRESS role d (addrDetail (Config.openValue 84 d.base) 7 3 job)),
    need (d.isEmpty || d.bsize = 0 || d.sbase + d.scaleCount ≤ 2 ^ 57)
      (fltOf cADDRESS (role + 8) d (addrDetail (Config.openValue 84 d.sbase) 7 3 job))]

/-- The checks of a descriptor that an instruction carries from one slot to another (R57, R61, R160, R162, R164, R199): its
rank, a type code above 0x0F, its alignment, its block scales, and both layout flags at once. Type 0x00, one layout flag and
the footprint are not checked, since nothing is read or written through it (log entry 92). -/
def TD.carried (d : TD) (role : Nat) : Option Flt :=
  let w := d.wbits / 8
  firstFlt [need (1 ≤ d.rank && d.rank ≤ 6) (fltOf cSHAPE role d 0),
    need (d.type ≤ 0x0F) (fltOf cTYPE role d 0), need (w ≤ 1 || d.base % w = 0) (fltOf cTYPE role d 0),
    need (d.portIl || d.compressed || d.rowsAligned) (fltOf cTYPE role d 0),
    need (d.bsize = 0 || (d.bsize ≠ 3 && scalable d.type && d.bdim < d.rank)) (fltOf cTYPE role d 0),
    need (!(d.compressed && d.portIl)) (fltOf cLAYOUT role d 0)]

/-- A descriptor that is written through passes the injectivity check or carries ORDERED_OVERLAP (R169,
R170). -/
def TD.checkWrite (d : TD) (role : Nat) : Option Flt :=
  need (d.compressed || d.portIl || d.injective || d.ordered) (fltOf cALIAS role d 0)

/-- Every value type but none, SCALE8, BIT and INT64 (R217, R267, R336). -/
def valueTypes : List Nat := [1, 2, 3, 4, 5, 6, 7, 8, 9, 10, 11, 12]

/-- Any type of R57 but none. -/
def anyTypes : List Nat := [1, 2, 3, 4, 5, 6, 7, 8, 9, 10, 11, 12, 13, 14, 15]

/-! ### Elements through bound pages -/

/-- Pages bound to an instruction: 2 MiB virtual unit and its physical address, with the page's POISON_KILL in
bit 0 and its SNAP in bit 1 of the address (R181). -/
abbrev Bound := List (Nat × Nat)

/-- The physical address of a virtual address through bound pages. -/
def Bound.pa (b : Bound) (va : Nat) : Nat := lookupD 0 (va / 2 ^ 21) b / 2 ^ 21 * 2 ^ 21 + va % 2 ^ 21

/-- The page of a virtual address has POISON_KILL set (R184). -/
def Bound.kill (b : Bound) (va : Nat) : Bool := lookupD 0 (va / 2 ^ 21) b % 2 == 1

/-- The page of a virtual address has SNAP set (R185). -/
def Bound.snap (b : Bound) (va : Nat) : Bool := lookupD 0 (va / 2 ^ 21) b / 2 % 2 == 1

/-- The bits of an element. -/
def State.readBits (s : State) (b : Bound) (bit w : Nat) : Nat :=
  let n := (bit % 8 + w + 7) / 8
  natOf ((List.range n).map fun i => s.byte (b.pa (bit / 8 + i))) / 2 ^ (bit % 8) % 2 ^ w

/-- Write the bits of an element and no other bit. -/
def State.writeBits (s : State) (b : Bound) (bit w v : Nat) : State :=
  let n := (bit % 8 + w + 7) / 8
  let old := natOf ((List.range n).map fun i => s.byte (b.pa (bit / 8 + i)))
  let new := old - old / 2 ^ (bit % 8) % 2 ^ w * 2 ^ (bit % 8) + v % 2 ^ w * 2 ^ (bit % 8)
  (List.range n).foldl (fun s i => s.setByte (b.pa (bit / 8 + i)) (BitVec.ofNat 8 (new / 256 ^ i))) s

/-- The virtual bytes whose every bit the elements l (bit address, width, code) write. -/
def coveredBytes (l : List (Nat × Nat × Nat)) : List Nat :=
  (l.map fun e => ((List.range (e.2.1 / 8 + 2)).map fun i => e.1 / 8 + i).filter fun v =>
    (List.range 8).all fun j => (if 8 ≤ e.2.1 then [e] else l).any fun x =>
      decide (x.1 ≤ v * 8 + j) && decide (v * 8 + j < x.1 + x.2.1)).flatten

/-- An element's code. -/
def State.elem (s : State) (b : Bound) (d : TD) (ix : List Nat) : Nat := s.readBits b (d.bitAddr ix) d.wbits

/-- An element's scale code. -/
def State.scale (s : State) (b : Bound) (d : TD) (ix : List Nat) : Nat := (s.byte (b.pa (d.scaleVa ix))).toNat

/-- Write one element; the monitors of words that it has changed take the values that it leaves in them: each element is a write of
its own (R300; log entry 89). -/
def State.writeElem (s : State) (b : Bound) (e : Nat × Nat × Nat) : State :=
  let t := s.writeBits b e.1 e.2.1 e.2.2
  if s.net.monTags.isEmpty then t else t.noteMonitors s 0 (2 ^ 64)

/-- After a bulk write over the bytes l: pieces replaced whole lose their poison (R404). -/
def State.finishWrite (s : State) (l : List Nat) : State :=
  { s with poison := s.poison.filter fun p =>
      !((List.range (32 * poisonUnit (p * 32))).all fun i => l.contains (p * 32 + i)) }

/-- Write elements: bit address, width, code; in the order of the list, so the last one stays (R170). -/
def State.writeElems (s : State) (b : Bound) (l : List (Nat × Nat × Nat)) : State :=
  (l.foldl (fun s e => s.writeElem b e) s).finishWrite ((coveredBytes l).map b.pa)

/-- The virtual bytes in which w bits at a bit address lie. -/
def bytesAt (bit w : Nat) : List Nat := (List.range ((bit % 8 + w + 7) / 8)).map (bit / 8 + ·)

/-- The first poisoned byte of the elements of a descriptor, with what is added to the operand's role: 8 for a byte of its scale
tensor (R413, R551). -/
def State.poisonedElems (s : State) (b : Bound) (d : TD) (ixs : List (List Nat)) : Option (Nat × Nat) :=
  let bad := fun (e : Nat × Nat) => s.poisoned (b.pa e.1)
  ((ixs.flatMap fun ix => (bytesAt (d.bitAddr ix) d.wbits).map fun va => (va, 0)) ++
    (if d.bsize = 0 then [] else ixs.map fun ix => (d.scaleVa ix, 8))).find? bad

/-- The POISON fault of an operand with a poisoned byte (R413, R551). -/
def poisonFltOf (role : Nat) (d : TD) (e : Nat × Nat) : Flt := fltOf cPOISON (role + e.2) d e.1

/-- All index lists of a descriptor in linear order. -/
def TD.allIx (d : TD) : List (List Nat) := (List.range d.count).map fun i => unlin d.sizes i

end Sys2Proof.Machine
end

