-- ==== Sys2Proof/Machine/Flags.lean ====
section
/-!
DEFINITION. Machine/Flags.lean: the number formats (chapter 3): exact values, conversion into every type
with its counts, block scales, the accumulator, the split of FP32, and the lane generators.
-/

namespace Sys2Proof.Machine

/-- An exact value: sign, magnitude m * 2^e, infinity, or NaN. -/
inductive Num where
  | fin (neg : Bool) (m : Nat) (e : Int)
  | inf (neg : Bool)
  | nan
deriving DecidableEq, Repr

/-- Zero with a sign. -/
def Num.zero (neg : Bool) : Num := .fin neg 0 0

/-- An integer. -/
def Num.ofInt (i : Int) : Num := .fin (decide (i < 0)) i.natAbs 0

/-- The signed numerator of a magnitude. -/
def sgn (neg : Bool) (m : Nat) : Int := if neg then -(m : Int) else m

/-- a * 2^(ea) as a multiple of 2^e, for e at most ea. -/
def alignTo (e : Int) (m : Nat) (em : Int) : Nat := m * 2 ^ (em - e).toNat

/-- The exact sum; a zero sum takes the sign z when its terms are not both negative zeros (R80, R113). -/
def Num.add (a b : Num) : Num :=
  match a, b with
  | .nan, _ => .nan
  | _, .nan => .nan
  | .inf x, .inf y => if x = y then .inf x else .nan
  | .inf x, _ => .inf x
  | _, .inf y => .inf y
  | .fin x m e, .fin y n f =>
    let g := min e f
    let t := sgn x (alignTo g m e) + sgn y (alignTo g n f)
    if t = 0 then .fin (x && y) 0 0 else .fin (decide (t < 0)) t.natAbs g

/-- The exact product (R80). -/
def Num.mul (a b : Num) : Num :=
  match a, b with
  | .nan, _ => .nan
  | _, .nan => .nan
  | .inf x, .inf y => .inf (x != y)
  | .inf x, .fin y n _ => if n = 0 then .nan else .inf (x != y)
  | .fin x m _, .inf y => if m = 0 then .nan else .inf (x != y)
  | .fin x m e, .fin y n f => .fin (x != y) (m * n) (e + f)

/-- The negation. -/
def Num.neg : Num → Num
  | .fin x m e => .fin (!x) m e
  | .inf x => .inf (!x)
  | .nan => .nan

/-- A value times a power of two. -/
def Num.scaleBy (a : Num) (k : Int) : Num :=
  match a with
  | .fin x m e => .fin x m (e + k)
  | x => x

/-- The value is a zero of either sign. -/
def Num.isZero : Num → Bool
  | .fin _ m _ => m == 0
  | _ => false

/-- The value is finite. -/
def Num.isFin : Num → Bool
  | .fin _ _ _ => true
  | _ => false

/-- The value is negative (a negative zero is not). -/
def Num.isNeg : Num → Bool
  | .fin x m _ => x && m != 0
  | .inf x => x
  | .nan => false

/-- m * 2^e at most n * 2^f. -/
def magLe (m : Nat) (e : Int) (n : Nat) (f : Int) : Bool :=
  decide (alignTo (min e f) m e ≤ alignTo (min e f) n f)

/-- Less-than for finite values and infinities; false with a NaN. -/
def Num.lt (a b : Num) : Bool :=
  match a, b with
  | .nan, _ => false
  | _, .nan => false
  | .inf x, .inf y => x && !y
  | .inf x, _ => x
  | _, .inf y => !y
  | .fin x m e, .fin y n f =>
    decide (sgn x (alignTo (min e f) m e) < sgn y (alignTo (min e f) n f))

/-- A floating-point layout (R57). -/
structure Fmt where
  ebits : Nat
  mbits : Nat
  bias : Int
  hasInf : Bool
  /-- the canonical NaN, where the type has one (R79) -/
  nanCode : Option Nat
  /-- the largest finite value as mantissa and exponent, and its code -/
  maxM : Nat
  maxE : Int
  maxCode : Nat
deriving DecidableEq, Repr

/-- The layout of a floating-point type; none for the other types (R57, R79). -/
def fmtOf (t : Nat) : Option Fmt :=
  match t with
  | 0x01 => some ⟨8, 23, 127, true, some 0x7FC00000, 0xFFFFFF, 104, 0x7F7FFFFF⟩
  | 0x02 => some ⟨8, 7, 127, true, some 0x7FC0, 0xFF, 120, 0x7F7F⟩
  | 0x03 => some ⟨5, 10, 15, true, some 0x7E00, 0x7FF, 5, 0x7BFF⟩
  | 0x04 => some ⟨4, 3, 7, false, some 0x7F, 14, 5, 0x7E⟩
  | 0x05 => some ⟨5, 2, 15, true, some 0x7E, 7, 13, 0x7B⟩
  | 0x06 => some ⟨3, 2, 3, false, none, 7, 2, 0x1F⟩
  | 0x07 => some ⟨2, 3, 1, false, none, 15, -1, 0x1F⟩
  | 0x08 => some ⟨2, 1, 1, false, none, 3, 1, 0x7⟩
  | _ => none

/-- The range of an integer type (R57). -/
def intRange (t : Nat) : Option (Int × Int) :=
  match t with
  | 0x09 => some (-128, 127)
  | 0x0A => some (0, 255)
  | 0x0B => some (-8, 7)
  | 0x0C => some (-(2 ^ 31), 2 ^ 31 - 1)
  | 0x0D => some (-(2 ^ 63), 2 ^ 63 - 1)
  | _ => none

/-- The value of a floating-point code (R57, R59). -/
def decodeFp (f : Fmt) (c : Nat) : Num :=
  let neg := bitOf c (f.ebits + f.mbits)
  let ex := c / 2 ^ f.mbits % 2 ^ f.ebits
  let mant := c % 2 ^ f.mbits
  if ex = 2 ^ f.ebits - 1 ∧ f.hasInf then (if mant = 0 then .inf neg else .nan)
  else if f.nanCode = some (c % 2 ^ (f.ebits + f.mbits)) ∧ !f.hasInf then .nan
  else if ex = 0 then .fin neg mant (1 - f.bias - f.mbits)
  else .fin neg (2 ^ f.mbits + mant) ((ex : Int) - f.bias - f.mbits)

/-- The value of a code of any value type (R57). -/
def decodeNum (t c : Nat) : Num :=
  match fmtOf t with
  | some f => decodeFp f c
  | none => match intRange t with
    | some (lo, _) => if lo < 0 then Num.ofInt (signed (typeBits t) c) else Num.ofInt c
    | none => Num.ofInt c

/-- A rounding mode with its draw (R71). -/
inductive Rnd where
  | rne | rz | sr (d : Nat)
deriving DecidableEq, Repr

/-- m * 2^k rounded to an integer (R71, R73). -/
def roundInt (r : Rnd) (m : Nat) (k : Int) : Nat :=
  if 0 ≤ k then m * 2 ^ k.toNat
  else
    let n := (-k).toNat
    let i := m / 2 ^ n
    let rest := m % 2 ^ n
    match r with
    | .rne => if 2 * rest > 2 ^ n ∨ (2 * rest = 2 ^ n ∧ i % 2 = 1) then i + 1 else i
    | .rz => i
    | .sr d => if d < rest * 65536 / 2 ^ n then i + 1 else i

/-- What a conversion counts (R86). -/
structure Cnt where
  sat : Nat
  flush : Nat
  nan : Nat
deriving DecidableEq, Repr

def Cnt.none : Cnt := ⟨0, 0, 0⟩
def Cnt.s : Cnt := ⟨1, 0, 0⟩
def Cnt.f : Cnt := ⟨0, 1, 0⟩
def Cnt.n : Cnt := ⟨0, 0, 1⟩
def Cnt.add (a b : Cnt) : Cnt := ⟨a.sat + b.sat, a.flush + b.flush, a.nan + b.nan⟩

/-- The sign bit of a code. -/
def signBit (f : Fmt) (neg : Bool) : Nat := if neg then 2 ^ (f.ebits + f.mbits) else 0

/-- The code of the magnitude i * 2^q, which the layout represents. -/
def packFp (f : Fmt) (i : Nat) (q : Int) : Nat :=
  if i = 0 then 0
  else
    let k : Int := (Nat.log2 i : Int) - f.mbits
    let i' := if 0 ≤ k then i / 2 ^ k.toNat else i * 2 ^ (-k).toNat
    let e := q + k + f.mbits + f.bias
    if e < 1 then i * 2 ^ (q - (1 - f.bias - f.mbits)).toNat
    else e.toNat * 2 ^ f.mbits + (i' - 2 ^ f.mbits)

/-- A value converted to a floating-point type (R78, R79). -/
def toFp (f : Fmt) (r : Rnd) (x : Num) : Nat × Cnt :=
  match x with
  | .nan => (f.nanCode.getD 0, Cnt.n)
  | .inf neg =>
    if f.hasInf then (signBit f neg + (2 ^ f.ebits - 1) * 2 ^ f.mbits, Cnt.none)
    else (signBit f neg + f.maxCode, Cnt.s)
  | .fin neg m e =>
    if m = 0 then (signBit f neg, Cnt.none)
    else
      let ovf := match r with
        | .rne => magLe (2 * f.maxM + 1) (f.maxE - 1) m e
        | _ => !magLe m e f.maxM f.maxE
      if ovf then
        if f.hasInf ∧ r ≠ .rz then (signBit f neg + (2 ^ f.ebits - 1) * 2 ^ f.mbits, Cnt.s)
        else (signBit f neg + f.maxCode, Cnt.s)
      else
        let q := max (e + Nat.log2 m) (1 - f.bias) - f.mbits
        let i := roundInt r m (e - q)
        if i = 0 then (signBit f neg, Cnt.f) else (signBit f neg + packFp f i q, Cnt.none)

/-- A value converted to an integer type (R78, R81). -/
def toInt (lo hi : Int) (w : Nat) (r : Rnd) (x : Num) : Nat × Cnt :=
  match x with
  | .nan => (0, Cnt.n)
  | .inf neg => (unsigned w (if neg then lo else hi), Cnt.s)
  | .fin neg m e =>
    let v := sgn neg (roundInt r m e)
    if v < lo then (unsigned w lo, Cnt.s)
    else if hi < v then (unsigned w hi, Cnt.s)
    else if v = 0 ∧ m ≠ 0 then (0, Cnt.f)
    else (unsigned w v, Cnt.none)

/-- A value converted to any value type (R78 to R81). -/
def convert (t : Nat) (r : Rnd) (x : Num) : Nat × Cnt :=
  match fmtOf t with
  | some f => toFp f r x
  | none => match intRange t with
    | some (lo, hi) => toInt lo hi (typeBits t) r x
    | none => (0, Cnt.none)

/-! ### Block scales (R60 to R65) -/

/-- An element's value after its block scale (R62, R63). -/
def scaled (scale : Nat) (v : Num) : Num := if scale = 0xFF then .nan else v.scaleBy ((scale : Int) - 127)

/-- The largest value that a scale must cover: M, or 127 and 7 for the integer types (R65). -/
def scaleMax (t : Nat) : Nat × Int :=
  match fmtOf t with
  | some f => (f.maxM, f.maxE)
  | none => if t = 0x0B then (7, 0) else (127, 0)

/-- The greatest magnitude of finite values. -/
def amax (l : List Num) : Nat × Int :=
  l.foldl (fun a x => match x with
    | .fin _ m e => if magLe m e a.1 a.2 then a else (m, e)
    | _ => a) (0, 0)

/-- The least e with a at most M * 2^e, between -127 and 127 (R65). -/
def scaleExp (t : Nat) (a : Nat × Int) : Int :=
  let M := scaleMax t
  let e0 := (Nat.log2 a.1 : Int) + a.2 - ((Nat.log2 M.1 : Int) + M.2)
  let e := if magLe a.1 a.2 M.1 (M.2 + e0) then e0 else e0 + 1
  max (-127) (min 127 e)

/-- The scale code of a block of results (R65). 0x100 stands for the code 0x00 of a block whose amax is 0: its low
byte is what is written as the scale, and every element of the block is written as encoding 0 (log entry 85). -/
def scaleCode (t : Nat) (l : List Num) : Nat :=
  if l.any fun x => !x.isFin then 0xFF
  else if (amax l).1 = 0 then 0x100
  else (scaleExp t (amax l) + 127).toNat

/-- An element of a block-scaled destination under its block's scale (R65). -/
def convertScaled (t : Nat) (r : Rnd) (scale : Nat) (x : Num) : Nat × Cnt :=
  if scale = 0xFF then (0, Cnt.n)
  else if scale = 0x100 then (0, Cnt.none)
  else convert t r (x.scaleBy (127 - (scale : Int)))

/-! ### The accumulator (R66, R67, R82) -/

/-- Round to the accumulator's 24-bit significand, to nearest even (R67); the exponent range is never left
(R66). An exact zero gives +0. -/
def accRound (x : Num) : Num :=
  match x with
  | .fin neg m e =>
    if m = 0 then .fin false 0 0
    else
      let q := e + Nat.log2 m - 23
      .fin neg (roundInt .rne m (e - q)) q
  | y => y

/-- One beat: the accumulator plus every product, rounded once (R67). -/
def beat (acc : Num) (ps : List Num) : Num := accRound (ps.foldl Num.add acc)

/-- Cut a list into runs of n. -/
def chunks {α : Type} (n : Nat) (l : List α) : List (List α) :=
  (List.range (ceilDiv l.length n)).map fun i => (l.drop (i * n)).take n

/-- A dot product over its products in ascending order, in beats of n (R67). -/
def dotBeats (n : Nat) (acc : Num) (ps : List Num) : Num := (chunks n ps).foldl beat acc

/-- The exact BF16 value nearest to a value, with the high part of R82 for values that overflow. -/
def hiPart (x : Num) : Num :=
  match x with
  | .fin neg m e =>
    if magLe 0x1FF 119 m e then .fin neg 0xFF 120
    else decodeNum 2 (convert 2 .rne (.fin neg m e)).1
  | y => y

/-- The low part of an FP32 value (R82). -/
def loPart (x : Num) : Num :=
  match x with
  | .fin _ _ _ => decodeNum 2 (convert 2 .rne (x.add (hiPart x).neg)).1
  | _ => Num.zero false

/-- A product with a low part: a zero low part contributes zero, whatever the other factor (R82). -/
def lowMul (lo other : Num) : Num := if lo.isZero then Num.zero false else lo.mul other

/-! ### Lane generators (R73 to R75) -/

/-- The constant that stands in place of a zero state (R75). -/
def genSeed : Nat := 0x9E3779B97F4A7C15

/-- The next state of a lane generator (R75). -/
def genNext (x : Nat) : Nat :=
  let x := x ^^^ (x * 2 ^ 13 % 2 ^ 64)
  let x := x ^^^ (x / 2 ^ 7)
  x ^^^ (x * 2 ^ 17 % 2 ^ 64)

/-- The draw of a state: bits 63 to 48 (R75). -/
def genDraw (x : Nat) : Nat := x / 2 ^ 48

/-- A state to load: the constant in place of zero (R75). -/
def genLoad (x : Nat) : Nat := if x % 2 ^ 64 = 0 then genSeed else x % 2 ^ 64

/-- Converting with lane l of core n: draws once under stochastic rounding (R74, R76). -/
def State.convertLane (s : State) (n l mode : Nat) (f : Rnd → Nat × Cnt) : State × Nat × Cnt :=
  if mode = 2 then
    let x := genNext (s.get (Reg.CORE.LANE_STATE n l))
    let r := f (.sr (genDraw x))
    (s.put (Reg.CORE.LANE_STATE n l) x, r.1, r.2)
  else
    let r := f (if mode = 1 then .rz else .rne)
    (s, r.1, r.2)

end Sys2Proof.Machine
end

