-- ==== Sys2Proof/Machine/Contain.lean ====
section
/-!
DEFINITION. Machine/Contain.lean: taking a fault, killing and halting a job, stopping Agate, cancelling a
batch, abandoning a snapshot, and the FE state (R225 to R228, R349, R397, R414, R428, R440).
-/

namespace Sys2Proof.Machine

/-! ### Fields of an instruction word (R196) -/

def Insn.op (i : Insn) : Nat := bitsOf i.word.toNat 127 120
def Insn.launch (i : Insn) : Nat := bitsOf i.word.toNat 119 118
def Insn.lslot (i : Insn) : Nat := bitsOf i.word.toNat 117 114
def Insn.waitV (i : Insn) : Bool := bitOf i.word.toNat 113
def Insn.wait (i : Insn) : Nat := bitsOf i.word.toNat 112 99
def Insn.postV (i : Insn) : Bool := bitOf i.word.toNat 98
def Insn.post (i : Insn) : Nat := bitsOf i.word.toNat 97 84
def Insn.dslot (i : Insn) : Nat := bitsOf i.word.toNat 83 72
def Insn.aslot (i : Insn) : Nat := bitsOf i.word.toNat 71 60
def Insn.bslot (i : Insn) : Nat := bitsOf i.word.toNat 59 48
def Insn.xslot (i : Insn) : Nat := bitsOf i.word.toNat 47 36
/-- Modifier bits [hi:lo]. -/
def Insn.mod (i : Insn) (hi lo : Nat) : Nat := bitsOf i.word.toNat hi lo

/-- The stream's job. -/
def State.jobOf (s : State) (n : Nat) : Nat := s.get (Reg.CORE.STREAM_JOB n)

/-- The stream's state (R191). -/
def State.streamState (s : State) (n : Nat) : Nat := s.get (Reg.CORE.STREAM_STATE n)

/-- Replace core n's window. -/
def State.setWindow (s : State) (n : Nat) (w : List Insn) : State := s.setCore n { s.core n with window := w }

/-- Change the instruction of core n that carries a tag. -/
def State.mapInsn (s : State) (n tag : Nat) (f : Insn → Insn) : State :=
  s.setWindow n (mapIf (fun i => i.tag == tag) f (s.core n).window)

/-! ### Streams that halt (R490) -/

/-- The generator state that a held write leaves: lane in the low 8 bits of the key, and above them 0 for a write of the whole
word, 1 for its low half, 2 for its high half (R7, R89). -/
def heldState (old : Nat) (key v : Nat) : Nat :=
  if key / 256 = 1 then old / 2 ^ 32 * 2 ^ 32 + v % 2 ^ 32
  else if key / 256 = 2 then v % 2 ^ 32 * 2 ^ 32 + old % 2 ^ 32
  else v

/-- Writes to generator states that waited for an empty core take effect (R89). -/
def State.applyHeldGen (s : State) (n : Nat) : State :=
  if (s.core n).window.isEmpty then
    let w := (s.core n).heldGen
    let s := s.setCore n { s.core n with heldGen := [] }
    w.foldl (fun s e =>
      let f := Reg.CORE.LANE_STATE n (e.1 % 256)
      s.put f (genLoad (heldState (s.get f) e.1 e.2.toNat))) s
  else s

/-- A request belongs to a channel. -/
def MemReq.ofChan (m ch : Nat) (r : MemReq) : Bool := match r.owner with
  | .burst m' ch' _ => m == m' && ch == ch'
  | _ => false

/-- Nobody waits any more for the requests of a channel: what comes back is discarded, and writes that have left
complete at their destinations (R280). -/
def State.detach (s : State) (m ch : Nat) : State :=
  let off := fun (r : MemReq) => if r.ofChan m ch then { r with owner := .none } else r
  let win := fun (x : WinSt) => { x with queue := x.queue.map off, tags := x.tags.map fun t => { t with req := off t.req } }
  let mine := fun (h : HostRead) => match h.use with
    | .burst m' ch' _ _ => m == m' && ch == ch'
    | _ => false
  { s with wins := s.wins.map (fun e => (e.1, win e.2)),
           snap := { s.snap with heldWrites := s.snap.heldWrites.map fun h => { h with req := off h.req } },
           host := { s.host with reads := mapIf mine (fun h => { h with use := .dropped m }) s.host.reads } }

/-- A channel returns to idle and its slot is freed; its outstanding reads are discarded (R271, R280). -/
def State.freeRun (s : State) (r : Run) : State :=
  let slots := s.get (Reg.MOVER.SLOTS r.m)
  let s := (s.setCtx r.m r.ch 1 0).put (Reg.MOVER.SLOTS r.m) (slots - slots / 2 ^ r.slot % 2 * 2 ^ r.slot)
  ({ s with runs := s.runs.filter (fun x => !(x.m == r.m && x.ch == r.ch)) } : State).detach r.m r.ch

/-- Free every run that satisfies p. -/
def State.freeRuns (s : State) (p : Run → Bool) : State := (s.runs.filter p).foldl State.freeRun s

/-- The writes that monitors of a list have not tested are nothing to them any more: those performed, and those that wait for
their WACK. -/
def State.dropHits (s : State) (l : List Nat) : State :=
  let req := fun (r : MemReq) => { r with hits := r.hits.filter fun e => !l.contains e.1 }
  let win := fun (x : WinSt) => { x with queue := x.queue.map req, tags := x.tags.map fun t => { t with req := req t.req } }
  { s with wins := s.wins.map (fun e => (e.1, win e.2)),
           net := { s.net with monWrites := s.net.monWrites.filter (fun e => !l.contains (e.1 % 256)) } }

/-- Disarm the monitors of core n (R301). -/
def State.disarm (s : State) (n : Nat) : State :=
  let mine := (s.net.monTags.filter fun e => s.get (Reg.BARRIER.MON_CORE e.1) = n).map Prod.fst
  let s := mine.foldl (fun s m => s.put (Reg.BARRIER.MON_ARMED m) 0) s
  ({ s with net := { s.net with monTags := s.net.monTags.filter (fun e => !mine.contains e.1) } } : State).dropHits mine

/-- Inject a barrier message (R283, R295, R298). -/
def State.injectBar (s : State) (part counter tag : Nat) (leave : Bool) : State :=
  { s with net := { s.net.cross (routerOf (if part < 8 then part else 0x401)) (homeRouter counter) with
      arrivals := s.net.arrivals ++ [⟨part, counter, tag, leave, false, s.net.sent⟩] } }

/-- Send a withdrawal for each barr of core n that has dispatched and not completed (R298). -/
def State.withdraw (s : State) (n : Nat) : State :=
  let b := (s.core n).window.filter fun i => i.dispatched && i.op == 0x41 && !i.done
  b.foldl (fun s i => s.injectBar n (i.mod 35 25) i.tag true) s

/-- No instruction of core n waits any more for what is on its way to it: acknowledgements, answers and releases that come find
nothing, and a withdrawal only clears its bit (R228, R293, R298). -/
def State.forget (s : State) (n : Nat) : State :=
  let ack := fun (m : LatchMsg) => { m with ack := if m.ack.any (fun a => a.1 == n) then none else m.ack }
  let bar := fun (a : BarMsg) => if a.part = n then { a with dead := true } else a
  let mine := fun (l : Later) => match l.act with
    | .done m _ => m == n
    | _ => false
  { s with net := { s.net with latchMsgs := s.net.latchMsgs.map ack, arrivals := s.net.arrivals.map bar,
                               releases := s.net.releases.map bar, counted := s.net.counted.map bar,
                               acks := s.net.acks.filter fun a => a.core != n },
           later := s.later.filter fun l => !mine l }

/-- The cores whose stream belongs to a job. -/
def State.coresOf (s : State) (job : Nat) : List Nat := s.coreList.filter fun n => s.jobOf n = job

/-- A jmp that waits for its latch when a halt discards an instruction before it jumps no more: the halt has set PC to the
instruction from which the stream will go on, and that will bring the jmp again (R490). -/
def Insn.freezeJmp (i : Insn) : Insn := if i.op = 2 ∧ i.waits = 1 then { i with waits := 2 } else i

/-- Halt one running stream (R490). -/
def State.haltStream (s : State) (n : Nat) : State :=
  if s.streamState n = 1 then
    let w := (s.core n).window
    let gone := w.filter fun i => !i.dispatched
    let s := match gone.head? with
      | some i => s.put (Reg.CORE.PC n) i.pc
      | none => s
    let s := (s.withdraw n).disarm n
    let stuck := s.runs.filter fun r => r.core == n && r.m == n && r.waitingReq
    let s := s.freeRuns fun r => r.core == n && r.m == n && r.waitingReq
    let out := stuck.map fun r => r.tag
    let s := s.setCore n { s.core n with
      fetched := [],
      window := (w.filter (fun i => i.dispatched && !out.contains i.tag && !(i.op == 0x42 && !i.done))).map fun i =>
        if gone.isEmpty then i else i.freezeJmp }
    (s.applyHeldGen n).put (Reg.CORE.STREAM_STATE n) 4
  else s

/-- A unit has ended an instruction's work, with its counts (R86, R204). -/
def State.markDone (s : State) (n tag : Nat) (c : Cnt) : State :=
  s.mapInsn n tag fun i => { i with done := true, sat := i.sat + c.sat, flush := i.flush + c.flush,
                                    nan := i.nan + c.nan }

/-! ### Agate stops; the requests of units; batches that end -/

/-- The admission queue of Agate (R236). -/
def agateQueue : Nat := 34

/-- Agate waits for its requests no more: an agput whose sum or whose writes were under way is complete, and no latch is set and
no packet sent for the run (R397). -/
def State.dropAgate (s : State) : State :=
  let done := fun (s : State) (l : Later) => match l.act with
    | .done n tag => s.markDone n tag Cnt.none
    | _ => s
  (s.later.filter fun l => l.queue == agateQueue).foldl done { s with later := s.later.filter fun l => l.queue != agateQueue }

/-- Stop Agate: the open run is abandoned without a verdict; its agputs complete, unless their job was killed
(R397). -/
def State.agateStop (s : State) : State :=
  let s := s.agate.waiting.foldl (fun s c => s.markDone c.core c.tag Cnt.none) s.dropAgate
  ({ s with agate := { s.agate with waiting := [], dispatched := [], slots := [], summed := [], reports := [],
                                    latched := [], replay := false } } : State).puts
    [(Reg.AGATE.STEP_STATE, 0), (Reg.AGATE.STEP_REPLAY, 0)]

/-- A generation is new (R333). -/
def State.genNew (s : State) (g : Nat) : Bool :=
  let d := signed 16 ((g + 65536 - s.get Reg.EXPERT.NEWEST) % 65536)
  decide (1 ≤ d)

/-- Split the bytes of a sector into the runs that are present, with their offsets. -/
def presentRuns : Nat → List (Option Byte) → List (Nat × Bytes)
  | _, [] => []
  | k, none :: r => presentRuns (k + 1) r
  | k, some b :: r =>
    match presentRuns (k + 1) r with
    | (j, l) :: rest => if j = k + 1 then (k, b :: l) :: rest else (k, [b]) :: (j, l) :: rest
    | [] => [(k, [b])]

/-- What a write leaves in memory: its bytes, or the poison mark; a unit replaced whole loses its poison (R240,
R242, R404). -/
def State.applyReq (s : State) (r : MemReq) : State :=
  if r.poison then (List.range (ceilDiv r.data.length 32)).foldl (fun s i => s.setPoison (r.pa + 32 * i)) s
  else (presentRuns 0 r.data).foldl (fun s e => s.clearPoison (r.pa + e.1) e.2.length) (s.setBytes r.pa r.data)

/-- Perform a write at once, with the test of the monitors (R300). -/
def State.performReq (s : State) (r : MemReq) : State :=
  if r.poison then s.applyReq r else (s.applyReq r).noteMonitors s r.pa r.data.length

/-- The bytes of memory where a request has bytes. -/
def State.under (s : State) (r : MemReq) : List (Option Byte) :=
  r.data.zipIdx.map fun e => if e.1.isSome then some (s.byte (r.pa + e.2)) else none

/-- A write takes its effect in main memory; what it leaves in monitored words waits for its WACK (R237, R300). It keeps what
stood there before. -/
def State.applyNow (s : State) (r : MemReq) : State × MemReq :=
  let t := s.applyReq r
  (t, { r with applied := true, before := s.under r, wasBad := s.poisoned r.pa,
               hits := if r.poison then [] else t.monHits s r.pa r.data.length })

/-- What a write has left in memory is taken back: its bytes are those of before, and so is the mark of its sector. -/
def State.takeBack (s : State) (r : MemReq) : State :=
  let s := s.setBytes r.pa r.before
  if r.wasBad then { s with poison := setInsert (unitOf r.pa) s.poison }
  else if r.poison then { s with poison := s.poison.filter fun p => p != unitOf r.pa } else s

/-- The writes of units that have left their effect in the sector of an address and wait at its window still, oldest first: the
unit sees them, and the sled has not been given them (R237; log entry 8). -/
def WinSt.early (x : WinSt) (pa : Nat) : List MemReq := x.queue.filter fun r => r.write && r.applied && r.pa / 64 == pa / 64

/-- The state in which a sector of main memory is as the sled holds it: without the writes that wait at the window. -/
def State.atSled (s : State) (w pa : Nat) : State := ((s.win w).early pa).reverse.foldl State.takeBack s

/-- The writes of a queue that stand in a sector early are put over what the sled holds there now. -/
def State.redo (s : State) (sec : Nat) : List MemReq → State × List MemReq
  | [] => (s, [])
  | r :: rest =>
    let (s, r) := if r.write && r.applied && r.pa / 64 == sec
      then (s.applyReq r, { r with before := s.under r, wasBad := s.poisoned r.pa }) else (s, r)
    let (s, l) := State.redo s sec rest
    (s, r :: l)

/-- A request that a window admits leaves its queue and is performed on the sector as the sled holds it, in the order of the grants
(R237): the sector and its poison mark as they then are; a write takes its effect, and the writes that still wait stay before
their units' eyes. -/
def State.perform (s : State) (w : Nat) (r : MemReq) : State × MemReq × Bytes × Bool :=
  let rest := (s.win w).queue.eraseP fun y => y.queue == r.queue
  let base := s.atSled w r.pa
  let (t, r) := if !r.write then (base, r) else if r.applied then (base.applyReq r, r) else base.applyNow r
  let data := t.bytes (r.pa / 64 * 64) 64
  let bad := t.poisoned r.pa
  let (t, q) := t.redo (r.pa / 64) rest
  (t.setWin w { t.win w with queue := q }, r, data, bad)

/-- The active windows of the map, ascending (R252). -/
def State.activeWins (s : State) : List Nat :=
  (List.range 32).filter fun w => bitOf (s.get (Reg.WIN.MAP_ACTIVE 0)) w

/-- Window, channel and sled sector address of a main-memory address (R252). -/
def State.locate (s : State) (pa : Nat) : Nat × Nat × Nat :=
  let w := s.get (Reg.WIN.MAP_W 0)
  let c := 40 * w
  let g := pa / 256
  let b := g / c
  let x := b ^^^ s.get (Reg.WIN.HASH_KEY 0)
  let f := (x ^^^ x / 2 ^ 16 ^^^ x / 2 ^ 32 ^^^ x / 2 ^ 48) % 65536
  let q := (g % c + f) % c
  (s.activeWins.getD (q % w) 0, q / w, q / w * 2 ^ (s.get (Reg.WIN.MAP_L 0) + 2) + b * 4 + pa / 64 % 4)

/-! ### Admission queues and hot channels (R236, R256) -/

/-- The tags that a window holds on a channel. -/
def WinSt.onChan (x : WinSt) (c : Nat) : List TagSt := x.tags.filter fun t => t.channel == c

/-- The tags a channel may hold; the register's limits (R236, R262). -/
def State.chanCap (s : State) (w : Nat) : Nat := max 1 (min 4096 (s.get (Reg.WIN.CHAN_CAP w)))

/-- The head of an admission queue. -/
def WinSt.head (x : WinSt) (q : Nat) : Option MemReq := x.queue.find? fun r => r.queue == q

/-- A channel is hot: its tags reach the threshold, or a head waits on its cap (R256). -/
def State.hot (s : State) (w c : Nat) : Bool :=
  let n := ((s.win w).onChan c).length
  decide (s.get (Reg.WIN.HOT_THRESH w) ≤ n) ||
    (decide (s.chanCap w ≤ n) && (List.range 38).any fun q =>
      match (s.win w).head q with
      | some r => (s.locate r.pa).2.1 == c
      | none => false)

/-- The dwell before a hot channel's event in ns (R256). -/
def State.hotDwell (s : State) (w : Nat) : Nat := max 1 (s.get (Reg.WIN.HOT_DWELL_US w)) * 1000

/-- Follow which channels are hot, since when, and for a channel whose event has been raised since when it is not: it can raise
another once it has been not hot for the dwell (R256). -/
def State.noteHot (s : State) (w : Nat) : State :=
  let x := s.win w
  let now := s.now
  let hotNow := (List.range 40).filter (s.hot w)
  let since := hotNow.map fun c => (c, lookupD now c x.hotSince)
  let ended := fun (e : Nat × Option Nat) => e.2.any fun t => decide (t + s.hotDwell w ≤ now)
  let raised := (x.hotRaised.filter fun e => !ended e).map fun e =>
    (e.1, if hotNow.contains e.1 then none else some (e.2.getD now))
  s.setWin w { x with hotSince := since, hotRaised := raised }

/-- Give a request to its window's admission queue (R236): the window is found by the caller. -/
def State.enqueue (s : State) (w : Nat) (r : MemReq) : State :=
  (s.setWin w { s.win w with queue := (s.win w).queue ++ [r] }).noteHot w

/-- The bytes of main memory in the map. -/
def State.memTop (s : State) : Nat := s.get Reg.XLAT.MEM_TOP

/-- A physical address lies in main memory. -/
def State.inMain (s : State) (pa : Nat) : Bool := decide (pa < s.memTop) && decide (pa < csBase)


/-! ### The requests of units (R14, R235, R236, R238, R239) -/

/-- The admission queue of a unit's own requests (R236). What the issue unit reads for an instruction goes through its fetch
queue, and Sill firmware's own accesses through the host mover's (log entry 90). -/
def queueOfSrc (src : Nat) : Nat :=
  if src < 8 then src
  else if 0x500 ≤ src ∧ src < 0x50A then src - 0x500 + 8
  else if 0x200 ≤ src ∧ src < 0x210 then src - 0x200 + 18
  else if src = 0x402 then 34 else if src = 0x403 then 35 else if src = 0x404 then 36 else 16

/-- A request is a unit's own and stands in a queue's order. -/
def MemReq.isUnit (q : Nat) (r : MemReq) : Bool := r.owner == .unit && r.queue == q

/-- The requests that are not complete: they wait at their window or for a snapshot, or have a tag. -/
def State.reqsOut (s : State) : List MemReq :=
  (s.wins.flatMap fun e => e.2.queue ++ ((e.2.tags.filter fun t => t.phase != 1).map TagSt.req) ++ e.2.wrps.map TagSt.req) ++
    s.snap.heldWrites.map Held.req

/-- Some request that satisfies p is not complete. -/
def State.reqOut (s : State) (p : MemReq → Bool) : Bool := s.reqsOut.any p

/-- Requests of a queue that the unit behind it waits for are not complete. -/
def State.unitBusy (s : State) (q : Nat) : Bool := s.reqOut (MemReq.isUnit q)

/-- Do what a unit does when its requests are complete. -/
def State.doLater (s : State) : LaterAct → State
  | .done n tag => s.markDone n tag Cnt.none
  | .latch src l => s.sendLatch src l true none
  | .packet ty h p => s.sendPkt ty h p

/-- Do it once the requests of a queue are complete: now, or later. -/
def State.after (s : State) (q : Nat) (a : LaterAct) : State :=
  if s.unitBusy q then { s with later := s.later ++ [⟨q, a⟩] } else s.doLater a

/-- A unit goes on, once its last request is complete. -/
def State.goOn (s : State) (q : Nat) : State :=
  if s.unitBusy q then s
  else
    (s.later.filter fun l => l.queue == q).foldl (fun s l => s.doLater l.act)
      { s with later := s.later.filter fun l => l.queue != q }

/-- A unit reads a sector of main memory: its request goes to the window, and keeps whether the data it takes is poisoned
(R235, R241). A walk's keeps the slice it is for (R181). -/
def State.unitRead (s : State) (q src job pa : Nat) : State :=
  s.enqueue (s.locate pa).1 { queue := q, src := if q = 37 then src else src % 65536, job := job, pa := pa / 64 * 64,
                              write := false, data := [], poison := s.poisoned pa, owner := .unit, applied := true }

/-- A unit writes within a sector: in a core store the write is performed; for main memory its request goes to the window, and
the unit sees what it has written at once (R239, R240; log entry 8). -/
def State.unitWrite (s : State) (r : MemReq) : State :=
  if s.inMain r.pa then
    let (s, r) := s.applyNow { r with owner := .unit }
    s.enqueue (s.locate r.pa).1 r
  else s.performReq r

/-! ### Writes of units that translate for themselves -/

/-- A physical address lies in host memory. -/
def inHost (pa : Nat) : Bool := decide (hostBase ≤ pa) && decide (pa < 0x1000000000000)

/-- The host bus address of a host-region physical address (R176). -/
def State.hostAddr (s : State) (job pa : Nat) : Nat := s.get (Reg.XLAT.JOB_HOST_BASE job) * 4096 + (pa - hostBase)

/-- The block of the open snapshot that a virtual address of a job lies in and that is not DONE. -/
def State.heldBlock (s : State) (job va : Nat) : Option Block :=
  if s.snap.isOpen ∧ job = s.get Reg.SNAP.STATUS_JOB then
    s.snap.blocks.find? fun b => b.va == va / 2 ^ 21 && b.state != 2
  else none

/-- Hold a write until its block is copied. -/
def State.hold (s : State) (b : Block) (r : MemReq) : State :=
  let s := s.inc Reg.XLAT.SNAP_HOLD 1
  let touch := fun (x : Block) => { x with touched := true, since := if x.touched then x.since else s.now }
  { s with snap := { s.snap with
      heldWrites := s.snap.heldWrites ++ [⟨b.va, r, s.now⟩],
      blocks := mapIf (fun x => x.va == b.va) touch s.snap.blocks } }

/-- The bytes that are present, from a host-region physical address on, are posted to the host (R176, R276). -/
def State.postRuns (s : State) (job pa : Nat) (data : List (Option Byte)) : State :=
  (presentRuns 0 data).foldl (fun s e => s.hostPost (s.hostAddr job (pa + e.1)) e.2) s

/-- Write the bytes that are present of one sector, at a physical address with its page's POISON_KILL and SNAP: held
for a snapshot, posted to the host, or performed; true where poison meets POISON_KILL, and nothing is written (R184,
R185, R240, R428). -/
def State.putSector (s : State) (src queue job va pa : Nat) (kill snap : Bool) (data : List (Option Byte))
    (poison : Bool) : State × Bool :=
  if poison ∧ kill then (s, true)
  else
    let req : MemReq := { queue := queue, src := src, job := job, pa := pa, write := true, data := data, poison := poison,
                          owner := .unit }
    match (if snap then s.heldBlock job va else none) with
    | some b => (s.hold b req, false)
    | none => (if inHost pa then s.postRuns job pa data else if s.inMain pa ∧ s.fe then s else s.unitWrite req, false)

/-- The bytes of an element of whole bytes, by virtual address. -/
def elBytes (bit w code : Nat) : List (Nat × Byte) :=
  (List.range (w / 8)).map fun k => (bit / 8 + k, BitVec.ofNat 8 (code / 256 ^ k))

/-- Sectors that hold some of a list of bytes, rising. -/
def sectorsIn (l : List (Nat × Byte)) : List Nat := (l.map fun e => e.1 / 64).foldl (fun a v => setInsert v a) []

/-- The bytes of one sector, present where the list names them; of a byte that it names twice, the later one (R170). -/
def sectorBytes (l : List (Nat × Byte)) (sec : Nat) : List (Option Byte) :=
  (List.range 64).map fun j => (l.reverse.find? fun e => e.1 == sec * 64 + j).map Prod.snd

/-- Write bytes through bound pages, sector by sector. -/
def State.putBytes (s : State) (src queue job : Nat) (b : Bound) (l : List (Nat × Byte)) : State :=
  (sectorsIn l).foldl (fun s sec =>
    (s.putSector src queue job (sec * 64) (b.pa (sec * 64)) (b.kill (sec * 64)) (b.snap (sec * 64)) (sectorBytes l sec)
      false).1) s

/-! ### Batches that end (R333, R346, R349) -/

/-- The core's return latch for a generation, as it stood when the core's xdisp dispatched, or as it stands (R346,
R349, R353). -/
def State.setReturnLatch (s : State) (b : Batch) (n : Nat) : State :=
  let now := if s.get (Reg.EXPERT.RETURN_LATCH_V n (b.gen % 4)) = 1
    then some (s.get (Reg.EXPERT.RETURN_LATCH n (b.gen % 4))) else none
  match (match b.xdisps.find? (fun p => p.core == n) with
    | some p => p.latch
    | none => now) with
  | some l => s.after 35 (.latch 0x403 l)
  | none => s

/-- The cores that dispatch (R332, R353). -/
def State.dispCores (s : State) : List Nat := s.coreList.filter fun n => bitOf (s.get Reg.EXPERT.DISP_CORES) n

/-- The rows have been allocated. -/
def Batch.allocated (b : Batch) : Bool := b.rows.length == 64

/-- Write the elements of a plain descriptor through its bound pages, for the expert router. -/
def State.putEls (s : State) (job : Nat) (b : Bound) (d : TD) (l : List (List Nat × Nat)) : State :=
  s.putBytes 0x403 35 job b ((l.map fun e => elBytes (d.bitAddr e.1) d.wbits e.2).flatten)

/-- The instruction of a part stands in its window still: its stream has not been killed (R228). -/
def State.partLives (s : State) (p : XPart) : Bool := (s.core p.core).window.any fun i => i.tag == p.tag

/-- What a cancel does to one xdisp: its positions that are not written become -1, under the job of its stream, and it completes
(R349); one of a killed stream writes nothing further (R228). -/
def State.cancelXdisp (b : Batch) (s : State) (p : XPart) : State :=
  if p.finished ∨ p.faulted ∨ !s.partLives p then s
  else
    let d := parseTD p.dD
    let s := if b.allocated then s else s.putEls p.job p.bound d (d.allIx.map fun ix => (ix, 0xFFFFFFFF))
    s.after 35 (.done p.core p.tag)

/-- An xrecv's tag table: q rows, k of them from the pool, and the tags by row (R344). -/
def tagTable (d : TD) (q k : Nat) (tags : List (Nat × Nat)) : List (List Nat × Nat) :=
  (List.range (d.size 0)).map fun j =>
    ([j], if j = 0 then q else if j = 1 then k else lookupD (2 ^ 64 - 1) (j - 2) tags)

/-- What a cancel does to one xrecv: an empty tag table under the job of its stream, and it completes (R349); one of a killed
stream writes nothing further (R228). -/
def State.cancelXrecv (s : State) (p : XPart) : State :=
  if p.finished ∨ !s.partLives p then s
  else
    let d := parseTD p.dX
    (s.putEls p.job p.bound d (tagTable d 0 0 [])).after 35 (.done p.core p.tag)

/-- Cancel a generation: it is retired at once; an open batch ends as R349 states. -/
def State.cancelGen (s : State) (g : Nat) : State :=
  match s.batches.find? (fun b => b.gen = g) with
  | none => if s.genNew g then s.put Reg.EXPERT.NEWEST g else s
  | some b =>
    let s := b.xrecvs.foldl State.cancelXrecv (b.xdisps.foldl (State.cancelXdisp b) s)
    let s := s.dispCores.foldl (fun s n => s.setReturnLatch b n) s
    (({ s with batches := s.batches.filter (fun x => x.gen ≠ g) } : State).inc Reg.EXPERT.CANCELLED 1).inc
      Reg.EXPERT.BATCHES 1

/-- A batch is of a job: the one that it was opened for, or that of an instruction in it (R338). -/
def Batch.ofJob (b : Batch) (job : Nat) : Bool := b.job == job || (b.xdisps ++ b.xrecvs).any fun p => p.job == job

/-- Cancel every open batch that satisfies p. -/
def State.cancelBatches (s : State) (p : Batch → Bool) : State :=
  (s.batches.filter p).foldl (fun s b => s.cancelGen b.gen) s

/-- The running streams of a mask that belong to a job. -/
def State.runningOf (s : State) (mask job : Nat) : List Nat :=
  (s.coresOf job).filter fun n => bitOf mask n && s.streamState n == 1

/-- A job whose last running stream has been halted is halted: Agate stops for it and its open batches are cancelled
(R349, R397). -/
def State.jobHalted (s : State) (job : Nat) : State :=
  if (s.runningOf 255 job).isEmpty then
    let s := if s.get Reg.AGATE.STEP_STATE ≠ 0 ∧ s.get Reg.AGATE.CTL_JOB = job then s.agateStop else s
    s.cancelBatches fun b => b.ofJob job
  else s

/-! ### Fences of tiles, instructions that leave (R105 to R107, R225 to R228) -/

/-- The state of tile t. -/
def State.tileState (s : State) (n t : Nat) : Nat := s.get (Reg.CORE.TILE_STATE n) / 16 ^ t % 16

/-- Put the state of tile t, and what follows from it: the tiles in service and the retired tiles (R105, R420). -/
def State.putTile (s : State) (n t v : Nat) : State :=
  let old := s.get (Reg.CORE.TILE_STATE n)
  let new := old - old / 16 ^ t % 16 * 16 ^ t + v * 16 ^ t
  let s := s.put (Reg.CORE.TILE_STATE n) new
  let s := s.put (Reg.CORE.IN_SERVICE n) ((List.range 8).filter fun k => decide (new / 16 ^ k % 16 < 2)).length
  if v = 3 then s.put (Reg.ERR.OBS_RETIRED n) (s.get (Reg.ERR.OBS_RETIRED n) ||| 2 ^ t) else s

/-- A core is retired and its retirement stored: its power state reads 3, and an event tells of it (R501). -/
def State.retireCore (s : State) (n : Nat) : State :=
  let s := s.setCore n { s.core n with retired := true }
  let s := { s with kept := { s.kept with retiredCores := setInsert n s.kept.retiredCores } }
  (s.put (Reg.PWR.CSTAT_STATE n) 3).event 7 0 n 0 0

/-- Halt a job on this device: every running stream of it (R490). -/
def State.haltJob (s : State) (job : Nat) : State := (s.coresOf job).foldl State.haltStream s

/-- One tile of core n is left in service. -/
def State.lastTile (s : State) (n : Nat) : Bool := decide (s.get (Reg.CORE.IN_SERVICE n) ≤ 1)

/-- A request would fence the last tile in service: the core is retired instead, once, and the job that runs on it halted
(R107). -/
def State.retireLast (s : State) (n : Nat) : State :=
  if (s.core n).retired then s else ((s.haltJob (s.jobOf n)).jobHalted (s.jobOf n)).retireCore n

/-- A request that takes effect on one tile (R105, R107). -/
def State.fenceTile (s : State) (n : Nat) (k : FenceKind) (t : Nat) : State :=
  let st := s.tileState n t
  match k with
  | .test => if 2 ≤ st then s else if s.lastTile n then s.retireLast n else s.putTile n t 2
  | .retire => if st = 2 then s.putTile n t 3 else if st = 3 then s else if s.lastTile n then s.retireLast n else s.putTile n t 3
  | .unfence =>
    if st = 2 then s.putTile n t (if bitOf (s.get (Reg.ERR.OBS_OBSERVED n)) t then 1 else 0) else s

/-- The requests that wait for the end of a sweep take effect (R105). -/
def State.fenceEffect (s : State) (n : Nat) : State :=
  let f := (s.core n).fences
  f.foldl (fun s e => s.fenceTile n e.1 e.2) (s.setCore n { s.core n with fences := [] })

/-- Garnet holds no gmm any more, and the fences that waited for the end of its last sweep take effect (R105, R118). -/
def State.garnetIdle (s : State) (n : Nat) : State :=
  ((s.setCore n { s.core n with gmm := none }).put (Reg.CORE.GARNET_TAG n) 0).fenceEffect n

/-- Beryl has no instruction in flight (R156). -/
def State.berylIdle (s : State) (n : Nat) : State := s.puts [(Reg.CORE.BERYL_TAG n, 0), (Reg.CORE.BERYL_PHASE n, 0)]

/-- Take an instruction out of the window; the last one lets held writes to generator states take effect (R89). -/
def State.dropInsn (s : State) (n tag : Nat) : State :=
  let s := s.setWindow n ((s.core n).window.filter fun i => i.tag ≠ tag)
  let s := if s.get (Reg.CORE.GARNET_TAG n) = tag then s.garnetIdle n else s
  (if s.get (Reg.CORE.BERYL_TAG n) = tag then s.berylIdle n else s).applyHeldGen n

/-- The unit code of an opcode's record (R405). -/
def unitOfOp (op : Nat) : Nat :=
  if op = 0x10 then 2 else if op = 0x18 ∨ op = 0x19 then 4 else if 0x20 ≤ op ∧ op ≤ 0x26 then 3
  else if op = 0x30 then 5 else if 0x40 ≤ op ∧ op ≤ 0x42 then 0x0F else if op = 0x50 then 0x0B
  else if 0x58 ≤ op ∧ op ≤ 0x5A then 0x0C else 1

/-- The syndrome of an instruction fault (R551). -/
def Flt.synd (f : Flt) : Nat := f.detail % 2 ^ 108 + f.tensor % 2 ^ 16 * 2 ^ 108 + f.role * 2 ^ 124

/-- The captured descriptor that a role names (R551). -/
def Insn.descOf (i : Insn) (role : Nat) : BitVec 1024 :=
  if role = 1 ∨ role = 9 then i.dD else if role = 2 ∨ role = 10 then i.dA
  else if role = 3 ∨ role = 11 then i.dB else if role = 4 ∨ role = 12 then i.dX else 0

/-- Show the words of a descriptor in FAULT_DESC (R230). -/
def State.putDesc (s : State) (n : Nat) (d : BitVec 1024) : State :=
  (List.range 16).foldl (fun s k => s.put (Reg.CORE.FAULT_DESC n k) (d.toNat / 2 ^ (64 * k))) s

/-- Tag order in one stream: a precedes b, across the wrap of the tag (R195, R227). -/
def tagBefore (a b : Nat) : Bool := decide (signed 32 ((a + 2 ^ 32 - b) % 2 ^ 32) < 0)

/-- A fault of an earlier instruction than tag stands in the stream's registers. A fault of the fetch, which has the tag 0, is
later than every instruction that was admitted (R192, R227). -/
def State.earlierFault (s : State) (n tag : Nat) : Bool :=
  (s.streamState n == 2 || s.streamState n == 4) && s.get (Reg.CORE.STREAM_FAULT n) != 0 &&
    s.get (Reg.CORE.FAULT_TAG n) != 0 && (tag == 0 || tagBefore (s.get (Reg.CORE.FAULT_TAG n)) tag)

/-- Show a fault in the stream's registers, unless an earlier instruction's fault stands there (R226, R227). -/
def State.showFault (s : State) (n tag pc : Nat) (d : BitVec 1024) (f : Flt) : State :=
  if s.earlierFault n tag then s
  else ((s.puts [(Reg.CORE.STREAM_FAULT n, f.code), (Reg.CORE.FAULT_TAG n, tag),
    (Reg.CORE.FAULT_PC n, pc)]).putDesc n d)

/-- The stream enters the faulted state: the undispatched instructions are discarded (R226). A stream that is halted stays so,
since Sill firmware alone moves it on (R191): its STATE reads 4 whatever the instructions that run on do (log entry 113). -/
def State.faultStream (s : State) (n : Nat) : State :=
  let w := (s.core n).window
  let s := s.inc (Reg.CORE.DISCARDED n) (w.filter fun i => !i.dispatched).length
  let s := (s.setCore n { s.core n with window := w.filter (fun i => i.dispatched), fetched := [] }).applyHeldGen n
  if s.streamState n = 1 then s.put (Reg.CORE.STREAM_STATE n) 2 else s

/-- A fault of an instruction that stands in the window: the record, the stream, the instruction leaves
(R225 to R227). A POISON fault's kill follows where the caller takes it. -/
def State.faultInsn (s : State) (n : Nat) (i : Insn) (f : Flt) : State :=
  let s := s.addRec { src := n, unit := unitOfOp i.op, cls := 1, job := s.jobOf n, code := f.code, tag := i.tag,
                      cmd := false, epoch := none, synd := f.synd }
  let s := s.showFault n i.tag i.pc (i.descOf f.role) f
  let s := (s.dropInsn n i.tag).faultStream n
  s.event 2 (s.jobOf n) n i.pc i.tag

/-- A stream of a killed job: nothing more is dispatched, dispatched instructions stop and post nothing, the
barr instructions are withdrawn and the monitors disarmed (R228, R298, R301). -/
def State.killStream (s : State) (n : Nat) : State :=
  if s.streamState n = 1 ∨ s.streamState n = 2 ∨ s.streamState n = 4 then
    let s := (((s.withdraw n).disarm n).freeRuns fun r => r.core == n && r.m == n).forget n
    let s := (s.setCore n { s.core n with window := [], fetched := [] }).applyHeldGen n
    ((s.garnetIdle n).berylIdle n).put (Reg.CORE.STREAM_STATE n) 5
  else s

/-! ### Requests that complete, writes that were held, jobs that end -/

/-- A source piece comes back to the burst that asked for it (R238). -/
def State.deliverPiece (s : State) (m ch n pa : Nat) (data : Bytes) (poison : Bool) : State :=
  let piece := fun (x : Piece) => { x with data := some (data, poison) }
  let burst := fun (b : Burst) => { b with reads := mapIf (fun x => x.pa == pa) piece b.reads }
  let run := fun (r : Run) => { r with bursts := mapIf (fun b => b.n == n) burst r.bursts }
  { s with runs := mapIf (fun r => r.m == m && r.ch == ch) run s.runs }

/-- One write of a transfer is complete at its destination (R239, R276). -/
def State.ackRun (s : State) (m ch : Nat) : State :=
  { s with runs := mapIf (fun r => r.m == m && r.ch == ch) (fun r => { r with acks := r.acks - 1 }) s.runs }

/-- One sector of a WRITE packet is complete; after the last one the target acknowledges (R314). -/
def State.ackPacket (s : State) (k : Nat) : State :=
  match s.doors.pendingWrites.find? (fun p => p.n = k) with
  | none => s
  | some p =>
    if p.left ≤ 1 then
      let s := { s with doors := { s.doors with
        pendingWrites := s.doors.pendingWrites.filter (fun x => x.n ≠ k) } }
      if p.hdr.ackReq then
        s.sendPkt 2 { s.hdr (0x200 + p.door) (p.hdr.src.toNat / 65536) p.hdr.job.toNat (ofBool p.faulted) 0 with
                      tag := p.hdr.tag } []
      else s
    else
      let one := fun (x : PendingWrite) => { x with left := x.left - 1 }
      { s with doors := { s.doors with pendingWrites := mapIf (fun x => x.n == k) one s.doors.pendingWrites } }

/-- A request completes for its owner: a read with its data, a write with its acknowledgement. -/
def State.complete (s : State) (r : MemReq) (data : Bytes) (poison : Bool) : State :=
  match r.owner with
  | .none => s
  | .burst m ch n => if r.write then s.ackRun m ch else s.deliverPiece m ch n r.pa data poison
  | .packet k => s.ackPacket k
  | .unit => s.goOn r.queue

/-- Release the writes held on a block (R435). -/
def State.releaseHeld (s : State) (unit : Nat) : State :=
  let mine := s.snap.heldWrites.filter fun h => h.unit = unit
  let s := { s with snap := { s.snap with heldWrites := s.snap.heldWrites.filter (fun h => h.unit ≠ unit) } }
  mine.foldl (fun s h =>
    let s := s.inc Reg.SNAP.HOLD_NS (s.now - h.since)
    let s := { s with snap := { s.snap with heldNs := s.snap.heldNs + (s.now - h.since) } }
    if inHost h.req.pa then (s.postRuns h.req.job h.req.pa h.req.data).complete h.req [] false
    else if csBase ≤ h.req.pa then (s.performReq h.req).complete h.req [] false
    else if h.req.owner = .unit then (if s.fe then s.goOn h.req.queue else s.unitWrite h.req)
    else s.enqueue (s.locate h.req.pa).1 h.req) s

/-- Abandon an open snapshot; held writes go on, since nothing is copied any more (R440). -/
def State.abandonSnap (s : State) (buddyLost : Bool) : State :=
  if s.snap.isOpen then
    let s := s.snap.blocks.foldl (fun s b => s.releaseHeld b.va) s
    let s := ({ s with snap := s.snap.closed } : State).puts [(Reg.SNAP.STATUS_STATE, 0), (Reg.SNAP.ABANDONED, 1)]
    let s := s.inc Reg.SNAP.ABANDONED_CNT 1
    let s := if buddyLost then s.put Reg.SNAP.BUDDY_LOST 1 else s
    if s.get Reg.SNAP.NOTIFY_V = 1 then s.sendLatch 0x404 (s.get Reg.SNAP.NOTIFY) true none else s
  else s

/-- A KILL notification (R505): the job, the code of the causing record, the time. -/
def killBytes (job code time : Nat) : Bytes :=
  bytesOf 1 job ++ bytesOf 1 code ++ bytesOf 6 0 ++ bytesOf 8 time ++ bytesOf 48 0

/-- Tell the other devices of a kill: a member tells the lead, the lead tells every member (R25, R326). -/
def State.tellKill (s : State) (job code : Nat) : State :=
  if s.isMember then s.sendPkt 9 (s.hdr 0x400 s.lead job 4 1) (killBytes job code s.now)
  else s.sendAll 9 0x400 job 4 (killBytes job code s.now)

/-- The parts of a kill on this device: the streams, Agate, the batches (R228, R397, R349). -/
def State.stopJob (s : State) (job : Nat) : State :=
  let s := (s.coresOf job).foldl State.killStream s
  let s := if s.get Reg.AGATE.STEP_STATE ≠ 0 ∧ s.get Reg.AGATE.CTL_JOB = job then s.agateStop else s
  s.cancelBatches fun b => b.ofJob job

/-- Kill a job, once (R414): src and code name the unit and the record that caused it; byCommand is set for
JOB_KILL (R491). Job 0 is never killed (R415). -/
def State.killJob (s : State) (job src code : Nat) (byCommand : Bool) : State :=
  if job = 0 ∨ s.host.killed.contains job then s
  else
    let s := { s with host := { s.host with killed := setInsert job s.host.killed } }
    let s := s.stopJob job
    let s := s.addRec (mkRec 0x400 0x12 1 job 0x25 (ofBool byCommand))
    let s := (s.inc Reg.ERR.KILLS 1).tellKill job code
    s.event 3 job 0xFF (if byCommand then s.gsrc 0x401 else s.gsrc src) (if byCommand then 0 else code)

/-- Consumption of poisoned data by job (R413, R415): the consumer's record stands already; job 0's only
follows here. -/
def State.consume (s : State) (job src code : Nat) : State := s.killJob job src code false

/-- A kill under R184 or R186 is counted by the translation unit when it kills (R189). -/
def State.countKill (s : State) (job : Nat) : State :=
  if job = 0 ∨ s.host.killed.contains job then s else s.inc Reg.XLAT.KILL_CNT 1

/-- A unit that is no instruction consumes poisoned data: a DE record, and the job is killed (R25, R413). -/
def State.unitConsume (s : State) (job src unit va : Nat) : State :=
  (s.addRec (mkRec src unit 1 job cPOISON (va % 2 ^ 57))).consume job src cPOISON

/-- An instruction writes through the operand that a role names: its destination, and an X that it writes (bsort's positions,
bgroup's table, xrecv's tags; R134, R135, R344). -/
def Insn.writesRole (i : Insn) (role : Nat) : Bool :=
  role % 8 == 1 || (role % 8 == 4 && (i.op == 0x22 || i.op == 0x23 || i.op == 0x59))

/-- Record a translation fault (R179). -/
def State.xfail (s : State) (src job va reason level : Nat) (write : Bool) : State :=
  (s.puts [(Reg.XLAT.FAULT_VA, va), (Reg.XLAT.FAULT_SOURCE, src), (Reg.XLAT.FAULT_WRITE, ofBool write),
    (Reg.XLAT.FAULT_REASON, reason), (Reg.XLAT.FAULT_LEVEL, level), (Reg.XLAT.FAULT_JOB, job)]).inc
    Reg.XLAT.FAULT_CNT 1

/-- The fault that a footprint outside the address space brings is recorded as a translation fault too (R163, R179). -/
def State.noteFootprint (s : State) (n : Nat) (i : Insn) (f : Flt) : State :=
  if f.code = cADDRESS ∧ bitsOf f.detail 60 57 = 7 then
    s.xfail n (bitsOf f.detail 68 63) (bitsOf f.detail 56 0) 7 3 (i.writesRole f.role)
  else s

/-- An instruction fault and, for POISON or a walk over a poisoned table sector, the kill of its job (R186,
R228, R414). -/
def State.takeFault (s : State) (n : Nat) (i : Insn) (f : Flt) : State :=
  let job := s.jobOf n
  let s := (s.noteFootprint n i f).faultInsn n i f
  if f.code = cPOISON then s.consume job n cPOISON
  else if f.code = cADDRESS ∧ bitsOf f.detail 60 57 = 8 then (s.countKill job).killJob job n 8 false
  else s

/-- A POISON fault of a write of marked data into a page with POISON_KILL set (R184). -/
def State.killFault (s : State) (n : Nat) (i : Insn) (f : Flt) : State :=
  (s.countKill (s.jobOf n)).takeFault n i f

/-! ### The FE state (R428) -/

/-- Take every door link down (R428). -/
def State.doorsDown (s : State) : State :=
  (List.range 16).foldl (fun s d => (List.range 3).foldl (fun s k =>
    if 1 ≤ s.get (Reg.DOOR.LINK_STATE d k) ∧ s.get (Reg.DOOR.LINK_STATE d k) ≤ 4 then
      s.put (Reg.DOOR.LINK_STATE d k) 6 else s) s) s

/-- The oldest epoch that this device has not closed (R317). -/
def State.oldestOpen (s : State) : Nat := s.doors.nextClose

/-- Send RETRACT(e) to every other device of the configuration, with the registers that tell of it (R317). -/
def State.sendRetract (s : State) (src e : Nat) : State :=
  ((s.sendAll 6 src 0 (e % 2 ^ 32) []).inc (Reg.DOOR.RETRACT_TX 0) 1).puts
    [(Reg.DOOR.LAST_RETRACT_EPOCH 0, e), (Reg.DOOR.LAST_RETRACT_SRC 0, s.gsrc src)]

/-- Requests that wait in an admission queue in the FE state: reads complete as poisoned and writes are not
performed and complete (R428). -/
def State.dropQueue (s : State) (w : Nat) : State :=
  let q := (s.win w).queue
  q.foldl (fun s r => s.complete r (List.replicate 64 0) true) (s.setWin w { s.win w with queue := [] })

/-- Every rail is held where it stands (R428). -/
def State.holdRails (s : State) : State :=
  let mv := s.railNow 8 s.pwr.uncoreMv
  let s := s.coreList.foldl (fun s n => s.putRail n (s.coreMv n)) s
  { s with pwr := { s.pwr with uncoreMv := mv, ramps := [] } }

/-- Take the FE state, once (R428): every job is killed, Agate stops, batches are cancelled, an open snapshot
is abandoned, windows take no requests, RETRACT goes out, the doors go down, and the rails are held. -/
def State.takeFE (s : State) (src code : Nat) : State :=
  if s.fe then s
  else
    let s := s.put Reg.ERR.STATUS_FE 1
    let jobs := (List.range 64).filter fun j => decide (j ≠ 0) && !(s.coresOf j).all fun n =>
      s.streamState n == 0 || s.streamState n == 3 || s.streamState n == 5
    let s := jobs.foldl (fun s j => s.killJob j src code false) s
    let s := s.agateStop.cancelBatches fun _ => true
    let s := s.abandonSnap false
    let s := (List.range 32).foldl State.dropQueue s
    (s.sendRetract src s.oldestOpen).doorsDown.holdRails

/-- A record of class FE and the state it brings (R412, R428). -/
def State.raiseFE (s : State) (src unit code synd : Nat) : State :=
  (s.addRec (mkRec src unit 2 0 code synd)).takeFE src code

end Sys2Proof.Machine
end

