-- ==== Sys2Proof/Machine/Translate.lean ====
section
/-!
DEFINITION. Machine/Translate.lean: page tables, translation slices, the physical map (chapter 6), and the
reads and writes of the units that reach memory a sector at a time (chapters 8, 16, 17).
-/

namespace Sys2Proof.Machine

/-! ### The physical map (R176) -/

/-- The core whose store holds a physical address. -/
def State.storeOf (s : State) (pa : Nat) : Option Nat :=
  if csBase ≤ pa ∧ pa < csBase + 8 * csSize ∧ s.present ((pa - csBase) / csSize) then some ((pa - csBase) / csSize)
  else none

/-- A physical address lies in some region. -/
def State.inRegion (s : State) (pa : Nat) : Bool := s.inMain pa || (s.storeOf pa).isSome || inHost pa

/-! ### Windows reached a sector at a time -/

/-- The lowest free tag of a window (R235). -/
def WinSt.freeTag (x : WinSt) : Option Nat :=
  (List.range 4096).find? fun t => !(x.tags.any fun e => e.tag == t)

/-- The syndrome of a window record (R261). -/
def winSynd (sector tag channel src : Nat) (write : Bool) : Nat :=
  sector % 2 ^ 33 + tag % 4096 * 2 ^ 33 + channel % 64 * 2 ^ 45 + ofBool write * 2 ^ 51 + src % 65536 * 2 ^ 52


/-! ### Page walks (R177 to R182) -/

/-- What a translation gives. -/
inductive XRes where
  | ok (pa : Nat) (kill snap : Bool)
  | bad (reason level : Nat)
deriving DecidableEq, Repr

/-- The entry's page or table address. -/
def entryAddr (e : Nat) : Nat := bitsOf e 47 12 * 4096

/-- An entry is malformed at a level (R178). -/
def State.malformed (s : State) (level e : Nat) : Bool :=
  let leaf := bitOf e 1
  let a := entryAddr e
  if leaf then
    if level ≥ 2 then true
    else if level = 1 then a % 2 ^ 30 != 0 || decide (s.memTop < a + 2 ^ 30) else a % 2 ^ 21 != 0 ||
      (decide (a < s.memTop) && decide (s.memTop < a + 2 ^ 21))
  else level = 0 || decide (s.memTop < a + 4096)

/-- The cached entry of a slice (R181). -/
def State.cached (s : State) (src job level vpn : Nat) : Option Nat :=
  match s.slices.find? (fun x => x.src == src && x.job == job && x.level == level && x.vpn == vpn) with
  | some x => some x.entry.toNat
  | none => none

/-- Cache an entry; a full page cache gives up an entry that the manual does not name (R181). -/
def State.cache (s : State) (src job level vpn e : Nat) : State :=
  let mine := s.slices.filter fun x => x.src == src && bitOf x.entry.toNat 1
  let full := bitOf e 1 && decide (128 ≤ mine.length)
  let victim := mine[Config.cacheVictim s.freeCtr % 128]?
  let s := if full then s.draw else s
  let rest := if full then s.slices.filter (fun x => some x ≠ victim) else s.slices
  { s with slices := ⟨src, job, level, vpn, BitVec.ofNat 64 e⟩ :: rest }

/-- The virtual page number that a level's entry covers. -/
def vpnAt (va level : Nat) : Nat := va / 2 ^ (21 + 9 * level)

/-- Walk from a level's table downward; n counts the levels that are left (R177). -/
def State.walk (s : State) (src job va : Nat) : Nat → Nat → State × (Nat × Nat) ⊕ State × (Nat × Nat)
  | 0, _ => .inr (s, 2, 0)
  | n + 1, table =>
    let vpn := vpnAt va n
    let at_ := table + 8 * (vpn % 512)
    let hit := s.cached src job n vpn
    let s1 := if hit.isSome then s
      else if s.inMain at_ ∧ !s.fe then (s.inc Reg.XLAT.WALK_CNT 1).unitRead 37 src job at_
      else s.inc Reg.XLAT.WALK_CNT 1
    let e := hit.getD (natOf (s1.bytes at_ 8))
    if hit.isNone ∧ s1.poisoned at_ then .inr (s1, 8, n)
    else if !bitOf e 0 then .inr (s1, 1, n)
    else if s1.malformed n e then .inr (s1, 2, n)
    else
      let s2 := if hit.isSome then s1 else s1.cache src job n vpn e
      if bitOf e 1 then .inl (s2, e, n)
      else State.walk s2 src job va n (entryAddr e)


/-- The page entry that the slice holds for an address, with its level: a hit needs no walk (R181). -/
def State.pageHit (s : State) (src job va : Nat) : Option (Nat × Nat) :=
  [0, 1].findSome? fun l => match s.cached src job l (vpnAt va l) with
    | some e => if bitOf e 1 then some (e, l) else none
    | none => none

/-- The page entry of an address and its level: from the slice, or by a walk, which is a miss; or the reason and the level of
a failure (R177, R181). A ROOT outside main memory is taken as a malformed table address, at level 3, and nothing is read: the rule
speaks of entries alone (R178; log entry 45). -/
def State.pageOf (s : State) (src job va : Nat) : State × (Nat × Nat) ⊕ State × (Nat × Nat) :=
  let root := s.get (Reg.XLAT.JOB_ROOT job) * 4096
  match s.pageHit src job va with
  | some p => .inl (s, p)
  | none =>
    let s := s.inc Reg.XLAT.MISS_CNT 1
    if s.memTop < root + 4096 ∧ !(s.cached src job 3 (vpnAt va 3)).isSome then .inr (s, 2, 3) else s.walk src job va 4 root

/-- The slice of an address generator that shares its source number with others: a core's engines each have one, named by the
unit code above the source number (R181). -/
def sliceOf (unit src : Nat) : Nat := unit * 65536 + src

/-- The physical address of a byte of the exchange slots, which job 0 maps on the top 512 KiB of its table pool
(chapter 19, before R513). -/
def State.exchangePa (s : State) (job va : Nat) : Option Nat :=
  if job = 0 ∧ s.host.poolSize ≠ 0 ∧ 0x10000000000 ≤ va ∧ va < 0x10000080000 then
    some (s.host.poolBase + s.host.poolSize - 0x80000 + (va - 0x10000000000))
  else none

/-- The address at which job 0 of a device maps slot k of its buddy area, which the manual does not give: free (R438, R439; log
entry 121). -/
def imageVa (k : Nat) : Nat := 64 * (Config.openValue 121 (3 * k) % 2 ^ 50)

/-- Where slot k of this device's buddy area begins: the area is taken as two halves (R439; log entry 121). -/
def State.imagePa (s : State) (k : Nat) : Nat := s.get Reg.SNAP.BUDDY_BASE + k * (s.get Reg.SNAP.BUDDY_SIZE / 2)

/-- The physical address of a byte that job 0 maps without tables: of the exchange slots, or of the buddy area. -/
def State.fixedPa (s : State) (job va : Nat) : Option Nat :=
  match s.exchangePa job va with
  | some pa => some pa
  | none =>
    if job ≠ 0 ∨ s.get Reg.SNAP.BUDDY_SIZE = 0 then none
    else ([0, 1].find? fun k => decide (imageVa k ≤ va) && decide (va < imageVa k + s.get Reg.SNAP.BUDDY_SIZE / 2)).map fun k =>
      s.imagePa k + (va - imageVa k)

/-- Translate one address for a unit (R175 to R181): rd and wr say what the access needs (R180). -/
def State.xlat (s : State) (src job va : Nat) (rd wr : Bool) : State × XRes :=
  if let some pa := s.fixedPa job va then (s, .ok pa false false)
  else if s.get (Reg.XLAT.JOB_VALID job) = 0 then (s.xfail src job va 9 3 wr, .bad 9 3)
  else
    match s.pageOf src job va with
    | .inr (s, r, l) => (s.xfail src job va r l wr, .bad r l)
    | .inl (s, e, l) =>
      let pa := entryAddr e + va % 2 ^ (21 + 9 * l)
      if rd ∧ !bitOf e 2 then (s.xfail src job va 3 l wr, .bad 3 l)
      else if wr ∧ !bitOf e 3 then (s.xfail src job va 4 l wr, .bad 4 l)
      else if !s.inRegion pa then (s.xfail src job va 5 l wr, .bad 5 l)
      else (s, .ok pa (bitOf e 5) (bitOf e 4))

/-- A walk over a poisoned table sector kills the job, for a unit that is no instruction (R186). -/
def State.walkKill (s : State) (job src reason : Nat) : State :=
  if reason = 8 then (s.countKill job).killJob job src 8 false else s

/-! ### Binding an engine's pages (R181, R13) -/

/-- The 2 MiB units of a byte range. -/
def unitsOf (lo n : Nat) : List Nat :=
  if n = 0 then [] else (List.range ((lo + n - 1) / 2 ^ 21 - lo / 2 ^ 21 + 1)).map (lo / 2 ^ 21 + ·)

/-- Where an operand's bytes may lie: an engine's own store (R13), or anywhere on the device. -/
inductive Reach where
  | own (n : Nat)
  | anywhere
deriving DecidableEq, Repr

/-- A physical address lies where the operand's bytes may. -/
def Reach.holds (r : Reach) (s : State) (pa : Nat) : Bool :=
  match r with
  | .own n => s.storeOf pa == some n
  | .anywhere => true

/-- Bind units one after another; the first failure is the operand's fault. -/
def State.bindUnits (s : State) (src job : Nat) (r : Reach) (rd wr : Bool) (fault : Nat → Nat → Nat → Flt) :
    List (Nat × Nat) → Bound → State × (Flt ⊕ Bound)
  | [], b => (s, .inr b)
  | (u, va) :: rest, b =>
    match s.xlat src job va rd wr with
    | (s, .bad reason level) => (s, .inl (fault va reason level))
    | (s, .ok pa kill snap) =>
      if r.holds s pa then
        State.bindUnits s src job r rd wr fault rest ((u, pa - va % 2 ^ 21 + ofBool kill + 2 * ofBool snap) :: b)
      else
        let level := ((s.pageHit src job va).map Prod.snd).getD 0
        (s.xfail src job va 6 level wr, .inl (fault va 6 level))

/-- Bind every page of a descriptor's footprint and of its scale tensor (R181). -/
def State.bindTD (s : State) (src job : Nat) (r : Reach) (role : Nat) (d : TD) (rd wr : Bool) :
    State × (Flt ⊕ Bound) :=
  let units := fun (x : Nat × Nat) => (unitsOf x.1 x.2).map fun u => (u, max x.1 (u * 2 ^ 21))
  match d.ranges with
  | [] => (s, .inr [])
  | v :: sc =>
    match s.bindUnits src job r rd wr (fun va re l => fltOf cADDRESS role d (addrDetail va re l job)) (units v) []
    with
    | (s, .inl f) => (s, .inl f)
    | (s, .inr b) => s.bindUnits src job r rd wr
        (fun va re l => fltOf cADDRESS (role + 8) d (addrDetail va re l job)) ((sc.map units).flatten) b

/-- An operand of an instruction: role, descriptor, read, written. -/
structure Opd where
  role : Nat
  d : TD
  rd : Bool
  wr : Bool
deriving DecidableEq, Repr

/-- Bind all operands, in order. -/
def State.bindAll (s : State) (src job : Nat) (r : Reach) : List Opd → State × (Flt ⊕ Bound)
  | [] => (s, .inr [])
  | o :: rest =>
    match s.bindTD src job r o.role o.d o.rd o.wr with
    | (s, .inl f) => (s, .inl f)
    | (s, .inr b) =>
      match State.bindAll s src job r rest with
      | (s, .inl f) => (s, .inl f)
      | (s, .inr c) => (s, .inr (b ++ c))

/-- The physical ranges of a descriptor's bytes through bound pages (R171). -/
def physRanges (b : Bound) (d : TD) : List (Nat × Nat) :=
  (d.ranges.map fun x => (unitsOf x.1 x.2).map fun u =>
    let lo := max x.1 (u * 2 ^ 21)
    (b.pa lo, min (x.1 + x.2) ((u + 1) * 2 ^ 21) - lo)).flatten

/-- Two operands share a physical byte (R171). -/
def physMeet (b : Bound) (x y : TD) : Bool := meets (physRanges b x) (physRanges b y)

/-! ### Units that read and write a sector at a time -/

/-- The bytes of a host memory read that no command of the model carries (log entry 6). -/
def State.hostBytes (s : State) (addr n : Nat) : Bytes := (List.range n).map fun i => Config.hostByte s.freeCtr (addr + i)

/-- Read n bytes of one sector at a physical address: data and poison; main memory is read through its window, and the FE
state gives poison (R14, R241, R428). -/
def State.readPa (s : State) (src job pa n : Nat) : State × Bytes × Bool :=
  if inHost pa then (s.draw, s.hostBytes (s.hostAddr job pa) n, false)
  else if s.inMain pa then
    if s.fe then (s, List.replicate n 0, true)
    else
      let s := s.unitRead (queueOfSrc (src % 65536)) src job pa
      (s, s.bytes pa n, s.poisonedIn pa n)
  else (s, s.bytes pa n, s.poisonedIn pa n)

/-- Chunks of a byte range that do not cross a sector. -/
def sectorsOf (va n : Nat) : List (Nat × Nat) :=
  if n = 0 then [] else (List.range ((va + n - 1) / 64 - va / 64 + 1)).map fun i =>
    let lo := max va ((va / 64 + i) * 64)
    (lo, min (va + n) ((va / 64 + i + 1) * 64) - lo)

/-- The outcome of a unit's access. -/
inductive Acc where
  | done
  | bad (va reason level : Nat)
  | poison (va : Nat)
deriving DecidableEq, Repr

/-- Read chunks by virtual address; poison is reported with the data. -/
def State.readChunks (s : State) (src job : Nat) : List (Nat × Nat) → State × Bytes × Bool × Acc
  | [] => (s, [], false, .done)
  | (va, n) :: r =>
    match s.xlat src job va true false with
    | (s, .bad reason level) => (s, [], false, .bad va reason level)
    | (s, .ok pa _ _) =>
      let (s, b, p) := s.readPa src job pa n
      let (s, b', p', a) := State.readChunks s src job r
      (s, b ++ b', p || p', a)

/-- Read n bytes at a virtual address of a job. -/
def State.readVa (s : State) (src job va n : Nat) : State × Bytes × Bool × Acc :=
  s.readChunks src job (sectorsOf va n)

/-- Write one chunk inside a sector at a physical address: to a core store, to main memory (held while its
block is not copied), or to host memory (R184, R185, R428). -/
def State.writeChunk (s : State) (src job va pa : Nat) (data : Bytes) (poison snap : Bool) : State :=
  let req : MemReq := { queue := queueOfSrc src, src := src, job := job, pa := pa, write := true, data := data.map some,
                        poison := poison, owner := .unit }
  match (if snap then s.heldBlock job va else none) with
  | some b => s.hold b req
  | none => if inHost pa then s.hostPost (s.hostAddr job pa) data else if s.inMain pa ∧ s.fe then s else s.unitWrite req

/-- Write chunks by virtual address; the first failure stops. -/
def State.writeChunks (s : State) (src job : Nat) (poison : Bool) : List (Nat × Bytes) → State × Acc
  | [] => (s, .done)
  | (va, data) :: r =>
    match s.xlat src job va false true with
    | (s, .bad reason level) => (s, .bad va reason level)
    | (s, .ok pa kill snap) =>
      if poison ∧ kill then (s, .poison va)
      else State.writeChunks (s.writeChunk src job va pa data poison snap) src job poison r

/-- Write bytes at a virtual address of a job. -/
def State.writeVa (s : State) (src job va : Nat) (data : Bytes) (poison : Bool) : State × Acc :=
  s.writeChunks src job poison ((sectorsOf va data.length).map fun x => (x.1, slice (x.1 - va) x.2 data))

end Sys2Proof.Machine
end

