-- ==== Sys2Proof/Machine/Issue.lean ====
section
/-!
DEFINITION. Machine/Issue.lean: the issue unit (chapter 7; launch slots of chapter 2): fetch, admission,
readiness, dispatch, completion, and what the passing of device time counts.
-/

namespace Sys2Proof.Machine

/-! ### The opcode map (R199) -/

/-- The queue of an opcode, by its bit in sync's QUEUES: GARNET, ACT, BERYL, MOVER, SYNC, AGATE, EXPERT,
ISSUE. -/
def queueOf (op : Nat) : Nat :=
  if op = 0x10 then 0 else if op = 0x18 ∨ op = 0x19 then 1 else if 0x20 ≤ op ∧ op ≤ 0x26 then 2
  else if op = 0x30 then 3 else if 0x40 ≤ op ∧ op ≤ 0x42 then 4 else if op = 0x50 then 5
  else if 0x58 ≤ op ∧ op ≤ 0x5A then 6 else 7

/-- The opcodes of the map (R199). -/
def opcodes : List Nat :=
  [0x00, 0x01, 0x02, 0x03, 0x04, 0x08, 0x09, 0x0A, 0x0B, 0x0C, 0x0D, 0x10, 0x18, 0x19, 0x20, 0x21, 0x22, 0x23,
   0x24, 0x25, 0x26, 0x30, 0x40, 0x41, 0x42, 0x50, 0x58, 0x59, 0x5A]

/-- The modifier bits that must be zero, as ranges (R197, R208 to R224). -/
def reservedBits (op : Nat) (cond : Nat) : List (Nat × Nat) :=
  match op with
  | 0x00 => [(35, 0)] | 0x01 => [(35, 0)]
  | 0x02 => if cond = 3 then [(33, 24)] else []
  | 0x04 => [(27, 0)] | 0x08 => [(23, 0)] | 0x0A => [(20, 0)] | 0x0C => [(19, 0)] | 0x0D => [(19, 0)]
  | 0x10 => [(35, 24), (15, 2)] | 0x18 => [(35, 7), (3, 2)] | 0x19 => [(35, 1)]
  | 0x20 => [(35, 3), (1, 0)] | 0x21 => [(35, 5)] | 0x22 => [(35, 4), (1, 0)]
  | 0x23 => [(35, 7), (4, 4), (1, 0)] | 0x24 => [(35, 4), (1, 0)] | 0x25 => [(35, 0)]
  | 0x26 => [(35, 4), (1, 0)]
  | 0x30 => [(11, 2)] | 0x40 => [(7, 0)] | 0x41 => [(24, 0)] | 0x42 => [(25, 0)]
  | 0x50 => [(3, 0)] | 0x58 => [(17, 0)] | 0x59 => [(13, 0)] | 0x5A => [(13, 0)]
  | _ => []

/-- A modifier code that is reserved, or a range that passes its end (R71, R72, R83, R129, R138,
R197, R211, R215, R220). -/
def Insn.badCode (i : Insn) : Bool :=
  match i.op with
  | 0x08 => decide (4096 < i.dslot + i.mod 35 24 + 1)
  | 0x09 => i.mod 35 34 == 3
  | 0x0C => decide (256 < i.mod 35 28 + i.mod 27 20 + 1)
  | 0x0D => decide (256 < i.mod 35 28 + i.mod 27 20 + 1)
  | 0x10 => i.mod 23 22 == 0 || i.mod 21 20 == 3 || i.mod 1 0 == 3
  | 0x18 => i.mod 6 4 == 7 || i.mod 1 0 == 3
  | 0x21 => i.mod 1 0 != 0 || (i.mod 2 2 == 0 && i.mod 4 3 != 0)
  | 0x23 => i.mod 6 5 != 0 && i.mod 2 2 == 0
  | 0x30 => i.mod 1 0 == 3
  | 0x40 => decide (2 ≤ i.mod 35 34) || decide (0x4000 < i.mod 33 20 + i.mod 19 8 + 1)
  | 0x42 => i.mod 27 26 == 3
  | _ => false

/-- The instruction faults with ENCODING at admission (R197, R43). -/
def Insn.badEncoding (i : Insn) : Bool :=
  !opcodes.contains i.op || i.launch == 3 || i.badCode ||
    (reservedBits i.op (i.mod 35 34)).any fun r => i.mod r.1 r.2 != 0

/-- The memory operands of an instruction: role, read, written (R120, R199). -/
def Insn.operands (i : Insn) : List (Nat × Bool × Bool) :=
  let opt := fun (c : Bool) (o : Nat × Bool × Bool) => if c then [o] else []
  match i.op with
  | 0x08 => [(2, true, false)]
  | 0x0A => [(4, true, false)]
  | 0x0B => opt (i.mod 31 30 == 2) (2, true, false)
  | 0x0C => [(2, true, false)]
  | 0x0D => [(1, false, true)]
  | 0x10 => [(1, false, true), (2, true, false), (3, true, false)] ++ opt (i.mod 16 16 == 1) (4, true, false)
  | 0x18 => [(1, false, true), (2, true, false)] ++ opt (decide (2 ≤ i.mod 6 4)) (3, true, false) ++
      opt (i.mod 6 4 == 6) (4, true, false)
  | 0x19 => [(2, true, false)]
  | 0x20 => [(1, false, true), (2, true, false), (3, true, false)] ++ opt (i.mod 2 2 == 1) (4, true, false)
  | 0x21 => [(1, i.mod 3 3 == 1, true), (2, true, false), (3, true, false)] ++
      opt (i.mod 4 4 == 1) (4, true, false)
  | 0x22 => [(1, false, true), (3, true, false)] ++ opt (i.mod 3 3 == 1) (4, false, true)
  | 0x23 => [(1, false, true), (3, true, false), (4, false, true)]
  | 0x24 => [(1, false, true)] ++ opt (i.mod 3 3 == 1) (2, true, false) ++ [(3, true, false)]
  | 0x25 => [(1, false, true), (2, true, false)]
  | 0x26 => [(1, true, true), (2, true, false), (3, true, false), (4, true, false)]
  | 0x30 => opt (i.mod 17 17 == 0) (1, false, true) ++ [(2, true, false)]
  | 0x42 => [(2, true, false), (4, true, false)]
  | 0x50 => [(1, false, true), (2, true, false), (4, true, true)]
  | 0x58 => [(1, false, true), (2, true, false), (3, true, false), (4, true, false)]
  | 0x59 => [(1, false, true), (4, false, true)]
  | 0x5A => [(2, true, false), (3, true, false)]
  | _ => []

/-- The interleaved layout of a gmm's source: the rows of A or the columns of B lie on the lanes by SWAP, and
a chunk holds 64 elements when both sources are narrow (R90, R92, R99). For an mcopy's source the manual does
not say which port's layout it has (log entry 18). -/
def Insn.layoutOf (i : Insn) (role : Nat) : Il :=
  if i.op = 0x10 then
    let narrow := typeBits (parseTD i.dA).type ≤ 8 ∧ typeBits (parseTD i.dB).type ≤ 8
    ⟨if role = roleA then i.mod 19 19 == 0 else i.mod 19 19 == 1,
     if role = roleA then i.mod 17 17 else i.mod 18 18, if narrow then 64 else 32⟩
  else ⟨Config.openValue 18 0 % 2 == 1, Config.openValue 18 1 % 2, if Config.openValue 18 2 % 2 = 1 then 64 else 32⟩

/-- The parsed descriptor of a role. -/
def Insn.td (i : Insn) (role : Nat) : TD :=
  let d := parseTD (i.descOf role)
  if d.portIl then { d with il := some (i.layoutOf role) } else d

/-- The byte ranges an instruction reads, and those it writes (R202). -/
def Insn.reads (i : Insn) : List (Nat × Nat) :=
  ((i.operands.filter fun o => o.2.1).map fun o => (i.td o.1).ranges).flatten
def Insn.writes (i : Insn) : List (Nat × Nat) :=
  ((i.operands.filter fun o => o.2.2).map fun o => (i.td o.1).ranges).flatten

/-- The hazard rule holds X behind Y (R202). -/
def conflicts (xr xw yr yw : List (Nat × Nat)) : Bool := meets yw (xr ++ xw) || meets yr xw

/-- The descriptor slots an instruction uses: as operands, and as destinations of descriptor instructions. -/
def Insn.slotUses (i : Insn) : List Nat :=
  let ops := i.operands.map fun o => if o.1 = 1 then i.dslot else if o.1 = 2 then i.aslot
    else if o.1 = 3 then i.bslot else i.xslot
  match i.op with
  | 0x08 => ops ++ (List.range (i.mod 35 24 + 1)).map (i.dslot + ·)
  | 0x09 => [i.dslot, i.aslot]
  | 0x0A => ops ++ [i.dslot, i.aslot]
  | 0x30 => [i.dslot, i.aslot]
  | _ => ops

/-- The descriptor slots that a dload, dmod or dset writes (R200). -/
def Insn.slotWrites (i : Insn) : List Nat :=
  match i.op with
  | 0x08 => (List.range (i.mod 35 24 + 1)).map (i.dslot + ·)
  | 0x09 => [i.dslot]
  | 0x0A => [i.dslot]
  | _ => []

/-- A jmp that is not resolved at admission (R209). -/
def Insn.lateJmp (i : Insn) : Bool := i.op == 2 && !(i.mod 35 34 == 0 && !i.waitV && i.launch == 0)

/-- A jmp in the window whose target is not known yet. -/
def State.openJmp (s : State) (n : Nat) : Bool :=
  (s.core n).window.any fun i => i.lateJmp && (!i.dispatched || i.waits != 0)

/-- A window entry for the word at an address, before its captures. -/
def mkInsn (tag pc : Nat) (w : BitVec 128) : Insn :=
  { tag := tag, pc := pc, word := w, dD := 0, dA := 0, dB := 0, dX := 0, time := 0, waitOk := false,
    dispatched := false, done := false, delayed := false, sat := 0, flush := 0, nan := 0, waits := 0 }

/-- The head of the stream may not be admitted now (R200). -/
def State.admitBlocked (s : State) (n : Nat) (i : Insn) : Bool :=
  let w := (s.core n).window
  decide (512 ≤ w.length) || s.openJmp n ||
    (w.any fun y => y.slotWrites.any fun k => i.slotUses.contains k) ||
    ((i.launch == 1 || i.launch == 2) && w.any fun y => y.op == 0x0B && y.mod 35 32 == i.lslot)

/-- The head waits under R200: ADMIT_WAIT_NS counts then. It does not count behind an end, nor while the next word has not been
fetched (log entry 113). -/
def State.headBlocked (s : State) (n : Nat) : Bool :=
  s.streamState n == 1 && !(s.core n).endSeen && match (s.core n).fetched with
    | [] => false
    | f :: _ => s.admitBlocked n (mkInsn 0 f.addr f.word)

/-- The oldest undispatched instruction of each queue waits on a latch, and at least one does: what R48's 'stalled on a wait
latch' means with several queues is the model's choice (R48; log entry 91). -/
def State.waitsOnLatch (s : State) (n : Nat) : Bool :=
  let w := (s.core n).window.filter fun i => !i.dispatched
  let head := fun (q : Nat) => w.find? fun i => queueOf i.op == q
  !w.isEmpty && (List.range 8).all fun q => match head q with
    | some i => i.waitV && !i.waitOk
    | none => true

/-- Garnet, Beryl, the activation unit and the mover of a core have no work in flight (R48). -/
def State.enginesIdle (s : State) (n : Nat) : Bool :=
  !((s.core n).window.any fun i => i.dispatched && decide (queueOf i.op ≤ 3)) && !(s.runs.any fun r => r.m == n)

/-- The two conditions under which a core may be held (R48). -/
def State.stalled (s : State) (n : Nat) : Bool := s.streamState n == 1 && s.waitsOnLatch n && s.enginesIdle n

/-- Note since when a core may be held, as time is about to pass. -/
def State.noteIdle (s : State) (n : Nat) : State :=
  let since := if s.stalled n then some ((s.core n).idleSince.getD s.now) else none
  s.setCore n { s.core n with idleSince := since }

/-- Device time passes to t: the counters of waiting take the time, and TIME.NOW moves on. -/
def State.passTo (s : State) (t : Nat) : State :=
  let t := min t maxTime
  if s.now < t then
    let dt := t - s.now
    let s := s.coreList.foldl State.noteIdle s
    let s := s.coreList.foldl (fun s n => if s.headBlocked n then s.inc (Reg.CORE.ADMIT_WAIT_NS n) dt else s) s
    let s := s.doors.fullSince.foldl (fun s e => s.inc (Reg.DOOR.LEDGER_FULL_NS e.1) dt) s
    let s := if s.snap.reserveFullSince.isSome then s.inc Reg.SNAP.RESERVE_FULL_NS dt else s
    s.put Reg.TIME.NOW t
  else s

/-! ### Fetch (R192, R193) -/

/-- The stream's fetch address and the words ahead move to a jump's target (R209). -/
def State.redirect (s : State) (n target : Nat) : State :=
  (s.setCore n { s.core n with fetched := [], fetchPc := target }).put (Reg.CORE.PC n) target

/-- A fault of the fetch at an address: no instruction carries it (R192). -/
def State.fetchFault (s : State) (n pc : Nat) (f : Flt) : State :=
  let s := s.addRec { src := n, unit := 1, cls := 1, job := s.jobOf n, code := f.code, tag := 0, cmd := false,
                      epoch := none, synd := f.synd }
  let job := s.jobOf n
  let s := ((s.showFault n 0 pc 0 f).faultStream n).event 2 job n pc 0
  if f.code = cPOISON then s.consume job n cPOISON
  else if f.code = cADDRESS ∧ bitsOf f.detail 60 57 = 8 then s.walkKill job n 8 else s

/-- INSTRUCTION_FETCH: core c's issue unit fetches one more word. A fetch that fails faults the stream when no
earlier word remains to be admitted; before that it is not taken (R192, R193; log entry 17). -/
def State.fetch (s : State) (n : Nat) : State :=
  if s.streamState n = 1 ∧ !(s.core n).endSeen ∧ s.present n then
    let c := s.core n
    let certain := c.fetched.isEmpty && !s.openJmp n
    match s.xlat n (s.jobOf n) c.fetchPc true false with
    | (s', .bad re l) =>
      if certain then s'.fetchFault n c.fetchPc ⟨cADDRESS, 5, 0, addrDetail c.fetchPc re l (s.jobOf n)⟩ else s
    | (s', .ok pa _ _) =>
      let (s', data, poison) := s'.readPa n (s.jobOf n) pa 16
      if poison then (if certain then s'.fetchFault n c.fetchPc ⟨cPOISON, 5, 0, c.fetchPc⟩ else s)
      else s'.setCore n { s'.core n with
        fetched := (s'.core n).fetched ++ [⟨c.fetchPc, BitVec.ofNat 128 (natOf data), pa⟩],
        fetchPc := (c.fetchPc + 16) % 2 ^ 57 }
  else s

/-- The read of a fetched word is not complete (R192, R238). -/
def State.fetchOpen (s : State) (n : Nat) (f : Fetched) : Bool :=
  let mine := fun (r : MemReq) => r.isUnit n && r.pa == f.pa / 64 * 64
  s.wins.any fun e => e.2.queue.any mine || e.2.tags.any fun t => t.phase != 1 && mine t.req

/-! ### Admission (R195, R200) -/

/-- The next tag: from 0xFFFF_FFFF to 1 (R195). -/
def nextTag (t : Nat) : Nat := if t = 0xFFFFFFFF then 1 else t + 1

/-- The contents of a descriptor slot (R158, R194). -/
def State.slot (s : State) (n k : Nat) : BitVec 1024 := sparseGet 0 k (s.core n).slots

/-- The words that the list numbers are written anew, and fail parity no more (R401). -/
def State.freshWords (s : State) (n : Nat) (l : List Nat) : State :=
  s.setCore n { s.core n with badWords := (s.core n).badWords.filter fun k => !l.contains k }

/-- Write a descriptor slot. -/
def State.setSlot (s : State) (n k : Nat) (v : BitVec 1024) : State :=
  (s.setCore n { s.core n with slots := sparseSet 0 k v (s.core n).slots }).freshWords n [k]

/-- The descriptor slots that an instruction captures for use, each with its role (R158, R199). -/
def Insn.captures (i : Insn) : List (Nat × Nat) :=
  let slot := fun (role : Nat) => if role = 1 then i.dslot else if role = 2 then i.aslot else if role = 3 then i.bslot else i.xslot
  let roles := (i.operands.map fun o => o.1) ++ (if i.op = 0x09 ∨ i.op = 0x0A then [2] else if i.op = 0x30 then [1] else [])
  roles.map fun role => (role, slot role)

/-- An instruction that captures a word which fails parity faults with POISON: of a descriptor slot, or of its launch slot (R401,
R413, R551). -/
def State.parityFlt (s : State) (n : Nat) (i : Insn) : Option Flt :=
  let bad := (s.core n).badWords
  if (i.launch = 1 ∨ i.launch = 2) ∧ bad.contains (4096 + i.lslot) then some ⟨cPOISON, 0, 0, 0⟩
  else (i.captures.find? fun e => bad.contains e.2).map fun e => fltOf cPOISON e.1 (i.td e.1) 0

/-- The jump target of a jmp (R209). -/
def Insn.target (i : Insn) : Nat := unsigned 57 ((i.pc : Int) + 16 * signed 20 (i.mod 19 0))

/-- Send a watch for a core's wait latch unless one is out (R292). -/
def State.sendWatch (s : State) (n latch : Nat) : State :=
  if (s.core n).watching.contains latch then s
  else
    (s.setCore n { s.core n with watching := latch :: (s.core n).watching }).injectLatch (routerOf n) n latch .watch none false

/-- ADMISSION: the head instruction of core n enters the window, captures its slots and its launch time and
takes a tag; a fault of admission faults the stream (R41, R42, R158, R195, R197, R200). -/
def State.admitNext (s : State) (n : Nat) : State :=
  match (s.core n).fetched with
  | [] => s
  | f :: rest =>
    if s.streamState n = 1 ∧ !(s.core n).endSeen ∧ !s.admitBlocked n (mkInsn 0 f.addr f.word) ∧ !s.fetchOpen n f then
      let tag := s.get (Reg.CORE.TAG_NEXT n)
      let i0 := mkInsn tag f.addr f.word
      let i := { i0 with dD := s.slot n i0.dslot, dA := s.slot n i0.aslot, dB := s.slot n i0.bslot,
                         dX := s.slot n i0.xslot, time := s.get (Reg.CORE.LSLOT_TIME n i0.lslot) }
      let s := (s.setCore n { s.core n with fetched := rest }).puts
        [(Reg.CORE.TAG_NEXT n, nextTag tag), (Reg.CORE.PC n, (f.addr + 16) % 2 ^ 57)]
      let s := s.inc (Reg.CORE.ADMITTED n) 1
      if i.badEncoding then s.takeFault n i ⟨cENCODING, 5, 0, 0⟩
      else if (i.launch = 1 ∨ i.launch = 2) ∧ !bitOf (s.get (Reg.CORE.LSLOT_VALID n)) i.lslot then
        s.takeFault n i ⟨cSLOT, 0, 0, i.lslot⟩
      else match s.parityFlt n i with
        | some f => s.takeFault n i f
        | none =>
          let s := s.setCore n { s.core n with window := (s.core n).window ++ [i], endSeen := i.op == 1 }
          let s := if i.waitV then s.sendWatch n i.wait else s
          if i.op = 2 ∧ !i.lateJmp then s.redirect n i.target else s
    else s

/-! ### Readiness and dispatch (R43, R201 to R205) -/

/-- The transfers of core n that have completed for their post latch and wait for their arrival (R203). -/
def State.postedRuns (s : State) (n : Nat) : List Run := s.runs.filter fun r => r.core == n && r.m == n && r.posted

/-- A transfer as the instruction it came from. -/
def Run.insn (r : Run) : Insn := { mkInsn r.tag 0 r.word with dD := r.dD, dA := r.dA }

/-- The instructions of core n that stand before tag in stream order and are not complete. -/
def State.earlier (s : State) (n tag : Nat) : List Insn :=
  ((s.core n).window.takeWhile fun i => i.tag ≠ tag) ++
    ((s.postedRuns n).filter fun r => r.old || tagBefore r.tag tag).map fun r => { r.insn with done := true }

/-- The bytes that an instruction writes on this device, as the hazard rule takes them: the destination of a REMOTE mcopy whose
DEVICE is this device is one of them (R173, R202). -/
def State.writesHere (s : State) (i : Insn) : List (Nat × Nat) :=
  i.writes ++ (if i.op = 0x30 ∧ i.mod 17 17 = 1 ∧ i.mod 23 18 = s.dev then (i.td roleD).ranges else [])

/-- The hazard rule delays an instruction (R202, R203). -/
def State.hazard (s : State) (n : Nat) (i : Insn) : Bool :=
  (s.earlier n i.tag).any fun y => conflicts i.reads (s.writesHere i) y.reads (s.writesHere y)

/-- The oldest undispatched instruction of a queue (R201). -/
def State.oldest (s : State) (n q : Nat) : Option Insn :=
  (s.core n).window.find? fun i => !i.dispatched && queueOf i.op == q

/-- The instruction's latch and launch time allow it (R43, R205). -/
def State.timely (s : State) (i : Insn) : Bool :=
  (!i.waitV || i.waitOk) && (i.launch == 0 || decide (i.time ≤ s.now))

/-- A copy is bit-exact (R267). -/
def exactCopy (a d : TD) : Bool := a.type == d.type && a.bsize == d.bsize && (a.bsize == 0 || a.bdim == d.bdim)

/-- An instruction that converts with stochastic rounding; an mcopy that copies bit for bit does not (R71, R76, R356). -/
def Insn.draws (i : Insn) : Bool :=
  (i.op == 0x10 || i.op == 0x18 || (i.op == 0x30 && !exactCopy (i.td roleA) (i.td roleD))) && i.mod 1 0 == 2

/-- How many lanes, from lane 0 up, an instruction that draws draws from: rows of a gmm, elements of the others (R76, R92,
R113, R356). -/
def Insn.drawLanes (i : Insn) : Nat :=
  let d := i.td roleD
  min 256 (if i.op = 0x10 then (if i.mod 19 19 = 1 then d.size 0 else d.size 1) else d.count)

/-- An rngld or an rngst (R215). -/
def Insn.isRng (i : Insn) : Bool := i.op == 0x0C || i.op == 0x0D

/-- An instruction that draws still has draws outstanding: a transfer until its last burst is written (R77). -/
def State.drawsOpen (s : State) (n : Nat) (y : Insn) : Bool :=
  match s.runs.find? (fun r => r.core == n && r.m == n && r.tag == y.tag && !r.old) with
  | some r => y.op == 0x30 && (decide (r.next < r.total) || !r.bursts.isEmpty)
  | none => !y.done

/-- An earlier instruction of core n has draws outstanding from a lane that this one draws from, loads or stores, or is an
rngld or rngst of such a lane that is not complete (R77, R215). -/
def State.drawsAhead (s : State) (n : Nat) (i : Insn) : Bool :=
  (s.earlier n i.tag).any fun y =>
    (y.draws && s.drawsOpen n y && (!i.isRng || decide (i.mod 35 28 < y.drawLanes))) ||
      (y.isRng && !y.done && !i.isRng && decide (y.mod 35 28 < i.drawLanes))

/-- The time a mode-2 dispatch comes late (R45). -/
def State.lateness (s : State) (i : Insn) : Nat := if i.launch = 2 then s.now - i.time else 0

/-- Record a late dispatch (R45). -/
def State.noteLate (s : State) (n : Nat) (i : Insn) : State :=
  if 2 < s.lateness i then
    (s.inc (Reg.CORE.LATE_COUNT n) 1).puts
      [(Reg.CORE.LATE_SLOT n, i.lslot), (Reg.CORE.LATENESS_NS n, min (s.lateness i) (2 ^ 28 - 1))]
  else s

/-- The lateness of a dispatch faults it (R45). -/
def State.tooLate (s : State) (n : Nat) (i : Insn) : Bool :=
  decide (2 < s.lateness i) && s.get (Reg.CORE.FAULT_NS n) != 0 && decide (s.get (Reg.CORE.FAULT_NS n) < s.lateness i)

/-- The LATE fault (R45, R551). -/
def State.lateFlt (s : State) (i : Insn) : Flt := ⟨cLATE, 0, 0, min (s.lateness i) (2 ^ 32 - 1) + i.lslot * 2 ^ 32⟩

/-- An instruction has dispatched: the core is not stalled as it was, so that its time to be held starts anew (R48). -/
def State.markDispatched (s : State) (n tag : Nat) : State :=
  let s := s.mapInsn n tag fun x => { x with dispatched := true }
  s.setCore n { s.core n with idleSince := none }

/-- Dispatch the oldest undispatched instruction of an opcode's queue on core n, when it carries the opcode,
is ready and its unit accepts it; run is what its unit then does. Where only the hazard rule holds it, that is
counted (R43, R45, R201, R202). -/
def State.dispatch (s : State) (n op : Nat) (accepts : State → Insn → Bool) (run : State → Insn → State) : State :=
  match s.oldest n (queueOf op) with
  | none => s
  | some i =>
    if s.streamState n = 1 ∧ i.op = op ∧ s.timely i ∧ accepts s i then
      if s.hazard n i then
        if i.delayed then s
        else (s.mapInsn n i.tag fun x => { x with delayed := true }).inc (Reg.CORE.HAZARD_WAIT n) 1
      else
        let s' := s.noteLate n i
        if i.bad then s.takeFault n i ⟨cPOISON, 5, 0, 0⟩
        else if s.tooLate n i then s'.takeFault n i (s.lateFlt i)
        else run (s'.markDispatched n i.tag) i
    else s

/-- A unit that always accepts. -/
def always : State → Insn → Bool := fun _ _ => true

/-! ### Completion (R87, R88, R204, R274) -/

/-- Raise a mover's request line (R274). -/
def State.raiseLine (s : State) (m line add : Nat) : State :=
  let c := s.get (Reg.MOVER.LINE_COUNT m line) + add
  let s := if 65535 < c then s.inc (Reg.MOVER.MOVER_REQ_OVF m) (c - 65535) else s
  s.put (Reg.MOVER.LINE_COUNT m line) (min c 65535)

/-- A routed queue's completion raises its line; a route to an absent mover raises nothing (R274, R281). -/
def State.routeReq (s : State) (n q : Nat) : State :=
  let go := fun (en mv ln : Nat) => if en = 1 ∧ s.present mv then s.raiseLine mv ln 1 else s
  if q = 0 then go (s.get (Reg.CORE.GARNET_EN n)) (s.get (Reg.CORE.GARNET_MOVER n)) (s.get (Reg.CORE.GARNET_LINE n))
  else if q = 1 then go (s.get (Reg.CORE.ACT_EN n)) (s.get (Reg.CORE.ACT_MOVER n)) (s.get (Reg.CORE.ACT_LINE n))
  else if q = 2 then go (s.get (Reg.CORE.BERYL_EN n)) (s.get (Reg.CORE.BERYL_MOVER n)) (s.get (Reg.CORE.BERYL_LINE n))
  else s

/-- Add an instruction's counts to its core's counters (R87). -/
def State.addCounts (s : State) (n : Nat) (i : Insn) : State :=
  let s := ((s.inc (Reg.CORE.NUM_SAT n) i.sat).inc (Reg.CORE.NUM_FLUSH n) i.flush).inc (Reg.CORE.NUM_NAN n) i.nan
  if i.sat + i.flush + i.nan = 0 then s
  else s.puts [(Reg.CORE.NUM_LAST_TAG n, i.tag), (Reg.CORE.NUM_LAST_SAT n, min i.sat (2 ^ 20 - 1)),
    (Reg.CORE.NUM_LAST_FLUSH n, min i.flush (2 ^ 20 - 1)), (Reg.CORE.NUM_LAST_NAN n, min i.nan (2 ^ 20 - 1))]

/-- The instruction's counts fault it (R88). -/
def State.numericFault (s : State) (n : Nat) (i : Insn) : Bool :=
  (s.get (Reg.CORE.NAN_FAULT n) == 1 && i.nan != 0) || (s.get (Reg.CORE.SAT_FAULT n) == 1 && i.sat != 0)


/-- A sync waits for an earlier instruction: one of a queue that QUEUES selects, and where it selects ACT and MOVER, as the sync
that ends a step does, every rngst too (R210, R369; log entry 114). -/
def Insn.syncsOn (i y : Insn) : Bool :=
  bitOf (i.mod 35 28) (queueOf y.op) || (y.op == 0x0D && bitOf (i.mod 35 28) 1 && bitOf (i.mod 35 28) 3)

/-- An instruction is at its completion point (R199, R203, R210). -/
def State.atCompletion (s : State) (n : Nat) (i : Insn) : Bool :=
  i.dispatched && (i.done ||
    (i.op == 1 && ((s.core n).window.head?.map Insn.tag) == some i.tag) ||
    (i.op == 4 && !((s.earlier n i.tag).any fun y => i.syncsOn y)))

/-- INSTRUCTION_COMPLETE: an instruction leaves the window, its counts are added, its post latch is set and
its request line raised; an end moves the stream to ended (R87, R88, R204, R208, R274). -/
def State.finishInsn (s : State) (n tag : Nat) : State :=
  match (s.core n).window.find? (fun i => i.tag = tag) with
  | none => s
  | some i =>
    if s.atCompletion n i then
      let bad := s.numericFault n i
      let s := s.addCounts n i
      if bad then (s.takeFault n i (flt cNUMERIC)).applyHeldGen n
      else
        let s := (s.dropInsn n tag).routeReq n (queueOf i.op)
        let s := if i.postV then s.sendLatch n i.post true none else s
        let s := if i.op = 1 ∧ s.streamState n = 1 then
            (s.put (Reg.CORE.STREAM_STATE n) 3).event 1 (s.jobOf n) n 0 i.tag else s
        s.applyHeldGen n
    else s

/-- LAUNCH_TIME_REACHED: device time reaches the slot time of a waiting instruction (R44). -/
def State.reachLaunch (s : State) (n tag : Nat) : State :=
  match (s.core n).window.find? (fun i => i.tag = tag) with
  | some i => if !i.dispatched ∧ (i.launch = 1 ∨ i.launch = 2) then s.passTo i.time else s
  | none => s

end Sys2Proof.Machine
end

