-- ==== Sys2Proof/Machine/Control.lean ====
section
/-!
DEFINITION. Machine/Control.lean: the meanings of the issue unit's commands and of the ISSUE queue's
instructions (R192 to R215). Each dispatch command acts on the oldest undispatched instruction of its queue;
where none is ready the state stays as it is (log entry 1).
-/

namespace Sys2Proof.Machine

/-- The outcome of a command. -/
abbrev Out := Host.Outcome State Fault Refusal

/-- What no command but the resets changes, whatever else it does: the phase of the reset sequence (R531 to R534), and the
queue of the commands that wait. -/
def State.keeping (t s : State) : State := { t with phase := s.phase, pending := s.pending }

/-- Perform a command while the block is out of reset; in reset it has no effect (R531, R533). -/
def whenLive (s : State) (f : State → State) : Out := .next (if s.live then (f s).keeping s else s)

/-- A write to a BAR: by the host, whose accesses the port refuses in D3hot, or by Sill firmware (R451). -/
def whenBar (s : State) (sill : Bool) (f : State → State) : Out :=
  whenLive s fun s => if s.host.d3hot ∧ !sill then s else f s

/-- INSTRUCTION_FETCH (R192, R193). -/
def execInstructionFetch (c : CoreIx) (s : State) : Out := whenLive s fun s => s.fetch c.val

/-- ADMISSION (R200). -/
def execAdmission (c : CoreIx) (s : State) : Out := whenLive s fun s => s.admitNext c.val

/-- LAUNCH_TIME_REACHED (R44). -/
def execLaunchTimeReached (c : CoreIx) (tag : BitVec 32) (s : State) : Out :=
  whenLive s fun s => s.reachLaunch c.val tag.toNat

/-- INSTRUCTION_COMPLETE (R204). -/
def execInstructionComplete (c : CoreIx) (tag : BitVec 32) (s : State) : Out :=
  whenLive s fun s => s.finishInsn c.val tag.toNat

/-- nop does nothing and is complete when it dispatches (R208). -/
def execNop (c : CoreIx) (s : State) : Out :=
  whenLive s fun s => s.dispatch c.val 0x00 always fun s i => s.markDone c.val i.tag Cnt.none

/-- end dispatches; it completes after every earlier instruction (R208). -/
def execEnd (c : CoreIx) (s : State) : Out :=
  whenLive s fun s => s.dispatch c.val 0x01 always fun s _ => s

/-- What a jmp does when it dispatches (R209). -/
def State.jump (s : State) (n : Nat) (i : Insn) : State :=
  let cond := i.mod 35 34
  if cond = 1 ∨ cond = 2 then
    (s.mapInsn n i.tag fun x => { x with waits := 1 }).injectLatch (routerOf n) n (i.mod 33 20) .read (some (n, i.tag)) false
  else
    let s := s.markDone n i.tag Cnt.none
    if cond = 3 then
      let k := i.mod 23 20
      let v := s.get (Reg.CORE.LOOP_COUNT n k)
      if (s.core n).badWords.contains (4112 + k) then s.takeFault n i ⟨cPOISON, 0, 0, 0⟩
      else if v = 0 then s else (s.put (Reg.CORE.LOOP_COUNT n k) (v - 1)).redirect n i.target
    else if i.lateJmp then s.redirect n i.target else s

/-- jmp (R209); one whose loop counter fails parity faults (R401). -/
def execJmp (c : CoreIx) (s : State) : Out :=
  whenLive s fun s => s.dispatch c.val 0x02 always fun s i => s.jump c.val i

/-- cnt writes a loop counter (R210). -/
def execCnt (c : CoreIx) (s : State) : Out :=
  whenLive s fun s => s.dispatch c.val 0x03 always fun s i =>
    ((s.put (Reg.CORE.LOOP_COUNT c.val (i.mod 35 32)) (i.mod 31 0)).freshWords c.val [4112 + i.mod 35 32]).markDone c.val i.tag
      Cnt.none

/-- sync dispatches; it completes when the selected earlier instructions have (R210). -/
def execSync (c : CoreIx) (s : State) : Out :=
  whenLive s fun s => s.dispatch c.val 0x04 always fun s _ => s

/-- An instruction that the issue unit has carried out completes when what it read and wrote is complete (R199, R238,
R239). -/
def State.doneAfter (s : State) (n : Nat) (i : Insn) : State := s.after n (.done n i.tag)

/-- Read one element of a rank-1 operand for the issue unit: its value, or a fault (R211 to R215). -/
def State.readElem (s : State) (n role : Nat) (d : TD) (k : Nat) : State × (Flt ⊕ Nat) :=
  let va := d.va [k]
  match s.readVa n (s.jobOf n) va (d.wbits / 8) with
  | (s, _, _, .bad v re l) => (s, .inl (fltOf cADDRESS role d (addrDetail v re l (s.jobOf n))))
  | (s, data, poison, _) => if poison then (s, .inl (fltOf cPOISON role d va)) else (s, .inr (natOf data))

/-- dload's checks of its table operand (R211). -/
def dloadFlt (i : Insn) (job : Nat) : Option Flt :=
  let d := i.td roleA
  firstFlt [d.check roleA job [0x0A] false false false, need (d.rank = 1) (fltOf cSHAPE roleA d 0),
    need (d.size 0 ≤ 1 || d.stride 0 = 1) (fltOf cSHAPE roleA d 0),
    need (128 * (i.mod 35 24 + 1) ≤ d.size 0) (fltOf cSHAPE roleA d 0)]

/-- Copy descriptors into slots, in order (R211, R487). -/
def State.loadSlots (s : State) (n first count : Nat) (data : Bytes) : State :=
  (List.range count).foldl (fun s k => s.setSlot n (first + k) (BitVec.ofNat 1024 (natOf (slice (128 * k) 128 data)))) s

/-- What a dload does (R211). -/
def State.dloadRun (s : State) (n : Nat) (i : Insn) : State :=
  let d := i.td roleA
  let count := i.mod 35 24 + 1
  match dloadFlt i (s.jobOf n) with
  | some f => s.takeFault n i f
  | none =>
    match s.readVa n (s.jobOf n) d.base (128 * count) with
    | (s, _, _, .bad v re l) => s.takeFault n i (fltOf cADDRESS roleA d (addrDetail v re l (s.jobOf n)))
    | (s, data, poison, _) =>
      if poison then s.takeFault n i (fltOf cPOISON roleA d d.base)
      else (s.loadSlots n i.dslot count data).doneAfter n i

/-- dload (R211). -/
def execDload (c : CoreIx) (s : State) : Out :=
  whenLive s fun s => s.dispatch c.val 0x08 always fun s i => s.dloadRun c.val i

/-- Replace the bits of a descriptor from position lo, w of them. -/
def setField (d : BitVec 1024) (lo w v : Nat) : BitVec 1024 :=
  let n := d.toNat
  BitVec.ofNat 1024 (n - n / 2 ^ lo % 2 ^ w * 2 ^ lo + v % 2 ^ w * 2 ^ lo)

/-- What a dmod does (R212). The ADDRESS fault carries reason 7 and a free address (log entry 84). -/
def State.dmodRun (s : State) (n : Nat) (i : Insn) : State :=
  let a := i.dA
  let off := 64 * signed 34 (i.mod 33 0)
  let b := (bitsOf a.toNat 56 0 : Int) + off
  let sb := ((a.toNat / 2 ^ 576 % 2 ^ 57 : Nat) : Int) + off
  let t := i.mod 35 34
  let ok := fun (x : Int) => decide (0 ≤ x) && decide (x < 2 ^ 57)
  let d := parseTD a
  if let some f := d.carried roleA then s.takeFault n i f
  else if (t ≠ 1 ∧ !ok b) ∨ (t ≠ 0 ∧ !ok sb) then
    let va := Config.openValue 84 (if t ≠ 1 ∧ !ok b then unsigned 57 b else unsigned 57 sb)
    s.takeFault n i (fltOf cADDRESS roleA d (addrDetail va 7 3 (s.jobOf n)))
  else
    let a := if t = 1 then a else setField a 0 57 b.toNat
    let a := if t = 0 then a else setField a 576 57 sb.toNat
    (s.setSlot n i.dslot a).markDone n i.tag Cnt.none

/-- dmod (R212). -/
def execDmod (c : CoreIx) (s : State) : Out :=
  whenLive s fun s => s.dispatch c.val 0x09 always fun s i => s.dmodRun c.val i

/-- dset's checks (R213). -/
def dsetFlt (i : Insn) (job : Nat) : Option Flt :=
  let x := i.td roleX
  let a := i.td roleA
  firstFlt [a.carried roleA,
    x.check roleX job [0x0C, 0x0D] false false false,
    need (x.rank = 1) (fltOf cSHAPE roleX x 0), need (i.mod 35 33 < a.rank) (fltOf cSHAPE roleA a 0),
    need (i.mod 32 21 < x.size 0) (fltOf cSHAPE roleX x 0)]

/-- What a dset does (R213). -/
def State.dsetRun (s : State) (n : Nat) (i : Insn) : State :=
  let x := i.td roleX
  match dsetFlt i (s.jobOf n) with
  | some f => s.takeFault n i f
  | none =>
    match s.readElem n roleX x (i.mod 32 21) with
    | (s, .inl f) => s.takeFault n i f
    | (s, .inr v) =>
      let v := (max 0 (signed x.wbits v)).toNat
      let dim := i.mod 35 33
      let size := (i.td roleA).size dim
      (s.setSlot n i.dslot (setField i.dA (8 * (16 + 4 * dim)) 32 (min v size))).doneAfter n i

/-- dset (R213). -/
def execDset (c : CoreIx) (s : State) : Out :=
  whenLive s fun s => s.dispatch c.val 0x0A always fun s i => s.dsetRun c.val i

/-- Write a launch slot (R214). -/
def State.setLaunch (s : State) (n k t : Nat) : State :=
  ((s.put (Reg.CORE.LSLOT_TIME n k) t).put (Reg.CORE.LSLOT_VALID n) (s.get (Reg.CORE.LSLOT_VALID n) ||| 2 ^ k)).freshWords n
    [4096 + k]

/-- Mark a launch slot invalid (R214). -/
def State.clearLaunch (s : State) (n k : Nat) : State :=
  s.put (Reg.CORE.LSLOT_VALID n) (s.get (Reg.CORE.LSLOT_VALID n) - s.get (Reg.CORE.LSLOT_VALID n) / 2 ^ k % 2 * 2 ^ k)

/-- A slotset's sum, or its SLOT fault; fin is its completion (R214). -/
def State.slotSum (s : State) (n : Nat) (i : Insn) (t : Nat) (fin : State → State) : State :=
  let v := t + i.mod 25 0
  if 2 ^ 64 ≤ v then s.takeFault n i ⟨cSLOT, 0, 0, i.mod 35 32⟩
  else fin (s.setLaunch n (i.mod 35 32) v)

/-- What a slotset does (R214). -/
def State.slotsetRun (s : State) (n : Nat) (i : Insn) : State :=
  let m := i.mod 31 30
  let done := fun (s : State) => s.markDone n i.tag Cnt.none
  if m = 0 then s.slotSum n i s.now done
  else if m = 1 then
    let k := i.mod 29 26
    if (s.core n).badWords.contains (4096 + k) then s.takeFault n i ⟨cPOISON, 0, 0, 0⟩
    else if bitOf (s.get (Reg.CORE.LSLOT_VALID n)) k then s.slotSum n i (s.get (Reg.CORE.LSLOT_TIME n k)) done
    else s.takeFault n i ⟨cSLOT, 0, 0, k⟩
  else if m = 2 then
    let a := i.td roleA
    match firstFlt [a.check roleA (s.jobOf n) [0x0D] false false false,
      need (a.rank = 1 && 1 ≤ a.size 0) (fltOf cTYPE roleA a 0)] with
    | some f => s.takeFault n i f
    | none =>
      match s.readElem n roleA a 0 with
      | (s, .inl f) => s.takeFault n i f
      | (s, .inr v) => if 2 ^ 63 ≤ v then s.takeFault n i (fltOf cTYPE roleA a 0)
        else s.slotSum n i v fun s => s.doneAfter n i
  else (s.clearLaunch n (i.mod 35 32)).markDone n i.tag Cnt.none

/-- slotset (R214). -/
def execSlotset (c : CoreIx) (s : State) : Out :=
  whenLive s fun s => s.dispatch c.val 0x0B always fun s i => s.slotsetRun c.val i

/-- The checks of a state tensor (R215). -/
def rngFlt (i : Insn) (role job : Nat) : Option Flt :=
  let d := i.td role
  firstFlt [d.check role job [0x0D] false false false, need (d.rank = 1) (fltOf cSHAPE role d 0),
    need (i.mod 27 20 + 1 ≤ d.size 0) (fltOf cSHAPE role d 0),
    if role = roleD then d.checkWrite role else none]

/-- Load lane generators one after another (R215). -/
def State.loadLanes (s : State) (n : Nat) (i : Insn) (d : TD) : List Nat → State × Option Flt
  | [] => (s, none)
  | k :: r =>
    match s.readElem n roleA d k with
    | (s, .inl f) => (s, some f)
    | (s, .inr v) =>
      match State.loadLanes s n i d r with
      | (s, some f) => (s, some f)
      | (s, none) => (s.put (Reg.CORE.LANE_STATE n (i.mod 35 28 + k)) (genLoad v), none)

/-- What an rngld does (R215). -/
def State.rngldRun (s : State) (n : Nat) (i : Insn) : State :=
  match rngFlt i roleA (s.jobOf n) with
  | some f => s.takeFault n i f
  | none =>
    match s.loadLanes n i (i.td roleA) (List.range (i.mod 27 20 + 1)) with
    | (s, some f) => s.takeFault n i f
    | (s, none) => s.doneAfter n i

/-- rngld waits while an earlier instruction has draws outstanding from one of its lanes (R215). -/
def execRngld (c : CoreIx) (s : State) : Out :=
  whenLive s fun s => s.dispatch c.val 0x0C (fun s i => !s.drawsAhead c.val i) fun s i => s.rngldRun c.val i

/-- Store lane generators one after another (R215). -/
def State.storeLanes (s : State) (n : Nat) (i : Insn) (d : TD) : List Nat → State × Option Flt
  | [] => (s, none)
  | k :: r =>
    match s.writeVa n (s.jobOf n) (d.va [k]) (bytesOf 8 (s.get (Reg.CORE.LANE_STATE n (i.mod 35 28 + k)))) false with
    | (s, .bad v re l) => (s, some (fltOf cADDRESS roleD d (addrDetail v re l (s.jobOf n))))
    | (s, _) => State.storeLanes s n i d r

/-- What an rngst does (R215). -/
def State.rngstRun (s : State) (n : Nat) (i : Insn) : State :=
  match rngFlt i roleD (s.jobOf n) with
  | some f => s.takeFault n i f
  | none =>
    let d := { i.td roleD with sizes := [i.mod 27 20 + 1] }
    match s.bindTD n (s.jobOf n) .anywhere roleD d false true with
    | (s, .inl f) => s.takeFault n i f
    | (s, .inr _) =>
      match s.storeLanes n i d (List.range (i.mod 27 20 + 1)) with
      | (s, some f) => s.takeFault n i f
      | (s, none) => s.doneAfter n i

/-- rngst waits while an earlier instruction has draws outstanding from one of its lanes (R215). -/
def execRngst (c : CoreIx) (s : State) : Out :=
  whenLive s fun s => s.dispatch c.val 0x0D (fun s i => !s.drawsAhead c.val i) fun s i => s.rngstRun c.val i

end Sys2Proof.Machine
end

