-- ==== Sys2Proof/Machine/Garnet.lean ====
section
/-!
DEFINITION. Machine/Garnet.lean: gmm, gact and tload, and the fencing of tiles (chapter 4). An engine does its
whole work when its instruction dispatches; INSTRUCTION_COMPLETE then completes it (log entry 7).
-/

namespace Sys2Proof.Machine

/-! ### Reading operands, writing results -/

/-- The value of an element under its block scale (R57, R62, R63). -/
def State.value (s : State) (b : Bound) (d : TD) (ix : List Nat) : Num :=
  let v := decodeNum d.type (s.elem b d ix)
  if d.bsize = 0 then v else scaled (s.scale b d ix) v

/-- One element to be written: linear index, lane, value. -/
structure Res where
  lin : Nat
  lane : Nat
  val : Num
deriving DecidableEq, Repr

/-- The block of scale that an element of a destination lies in: its blocks run along dimension 0 (R101). -/
def TD.blockOf (d : TD) (l : Nat) : Nat := if d.bsize = 0 then 0 else d.scaleVa (unlin d.sizes l)

/-- The scale codes of the blocks of a list of results, by the address of the scale (R65). -/
def scalesOf (d : TD) (rs : List Res) : List (Nat × Nat) :=
  if d.bsize = 0 then []
  else (rs.map fun r => d.blockOf r.lin).dedup.map fun a =>
    (a, scaleCode d.type ((rs.filter fun r => d.blockOf r.lin == a).map Res.val))

/-- Convert results one after another, in the order of the work, each with its lane (R74, R76). -/
def State.convertAll (s : State) (n mode : Nat) (d : TD) (sc : List (Nat × Nat)) :
    List Res → List (Nat × Nat × Cnt) → State × List (Nat × Nat × Cnt)
  | [], out => (s, out)
  | r :: rest, out =>
    let f := fun rnd => if d.bsize = 0 then convert d.type rnd r.val
      else convertScaled d.type rnd (lookupD 0 (d.blockOf r.lin) sc) r.val
    let (s', code, c) := s.convertLane n r.lane mode f
    State.convertAll s' n mode d sc rest (out ++ [(r.lin, code, c)])

/-- The sum of a list of counts. -/
def cntSum (l : List (Nat × Nat × Cnt)) : Cnt := l.foldl (fun a e => a.add e.2.2) Cnt.none

/-- Convert results in the order of the work and write them in linear order (R65, R170). -/
def State.writeResults (s : State) (n mode : Nat) (b : Bound) (d : TD) (rs : List Res) : State × Cnt :=
  let sc := scalesOf d rs
  let (s, out) := s.convertAll n mode d sc rs []
  let el := (List.range d.count).filterMap fun l => match out.find? (fun e => e.1 == l) with
    | some e => some (d.bitAddr (unlin d.sizes l), d.wbits, e.2.1)
    | none => none
  (s.writeElems b (el ++ sc.map fun e => (8 * e.1, 8, e.2)), cntSum out)

/-- An engine has written results of an instruction, whose residue verdict is still to come (R116, R117, R154): the record of
a failing one carries the engine's unit code, Garnet's for a function fused into a gmm too (log entry 93). -/
def State.checkOf (s : State) (n : Nat) (i : Insn) (b : Bound) (wrote : Bool) : State :=
  if wrote then s.pushCheck n (unitOfOp i.op) i.tag (s.jobOf n) 0 b else s

/-- The inputs above a table's window among some results count in ACT_ABOVE (R111). -/
def State.countAbove (s : State) (n : Nat) (rs : List (Res × Bool)) : State :=
  s.inc (Reg.CORE.ACT_ABOVE n) (rs.filter fun r => r.2).length

/-- An engine's instruction meets a poisoned operand: of its elements that do not depend on one, any may have
been written, have drawn and have counted before it stops (log entry 19); then it faults (R87, R111, R128, R413). -/
def State.poisonStop (s : State) (n mode : Nat) (i : Insn) (b : Bound) (d : TD) (clean : List (Res × Bool)) (f : Flt) :
    State :=
  let k := Config.openValue 19 s.freeCtr
  let wrote := (clean.zipIdx.filter fun e => bitOf k e.2).map Prod.fst
  let (s, c) := (s.draw.countAbove n wrote).writeResults n mode b d (wrote.map Prod.fst)
  let i := { i with sat := c.sat, flush := c.flush, nan := c.nan }
  ((s.addCounts n i).checkOf n i b !clean.isEmpty).takeFault n i f

/-! ### gmm (R91 to R101) -/

/-- The shapes of a gmm: batches' sizes, M, N, K, and whether B is shared. -/
structure Shape where
  m : Nat
  n : Nat
  k : Nat
  batch : List Nat
  shared : Bool
deriving DecidableEq, Repr

/-- The sizes of dimensions 2 to 5. -/
def TD.batch (d : TD) : List Nat := [d.size 2, d.size 3, d.size 4, d.size 5]

/-- The shape that a gmm's D, A and B give. -/
def gmmShape (i : Insn) : Shape :=
  let d := i.td roleD
  let a := i.td roleA
  let b := i.td roleB
  { m := a.size (1 - i.mod 17 17), n := b.size (1 - i.mod 18 18), k := a.size (i.mod 17 17), batch := d.batch,
    shared := b.batch != d.batch }

/-- Two descriptors are identical: base, type, rank, sizes, strides and flags (R100). -/
def TD.same (x y : TD) : Bool := x.base == y.base && x.type == y.type && x.rank == y.rank && x.sizes == y.sizes &&
  ((x.sizes.zip x.strides).filter fun e => decide (1 < e.1)) == ((y.sizes.zip y.strides).filter fun e => decide (1 < e.1)) &&
  x.ordered == y.ordered && x.distributed == y.distributed && x.arrive == y.arrive

/-- The checks of one source of a gmm (R61, R83, R91, R97, R166). -/
def gmmSource (i : Insn) (role kd job : Nat) : Option Flt :=
  let d := i.td role
  let p := i.mod 23 22
  let want := if p = 2 then (if role = roleA then [1] else [2]) else if p = 3 then [1] else valueTypes
  firstFlt [d.check role job valueTypes true false true,
    need (want.contains d.type && (p = 1 || d.bsize = 0)) (fltOf cTYPE role d 0),
    need (d.bsize = 0 || d.bdim = kd) (fltOf cTYPE role d 0),
    need (2 ≤ d.rank) (fltOf cSHAPE role d 0),
    need (d.portIl || d.size 0 = 1 || d.stride 0 = 1) (fltOf cLAYOUT role d 0)]

/-- The checks of a gmm before translation (R91, R100, R101, R108). -/
def gmmFlt (i : Insn) (job : Nat) : Option Flt :=
  let d := i.td roleD
  let a := i.td roleA
  let b := i.td roleB
  let x := i.td roleX
  let sh := gmmShape i
  let acc := i.mod 16 16 == 1
  firstFlt [d.check roleD job valueTypes true false false,
    need (d.bsize = 0 || d.bdim = 0) (fltOf cTYPE roleD d 0), need (2 ≤ d.rank) (fltOf cSHAPE roleD d 0),
    gmmSource i roleA (i.mod 17 17) job, gmmSource i roleB (i.mod 18 18) job,
    if acc then x.check roleX job [1, 2, 3] false false false else none,
    need (!acc || 2 ≤ x.rank) (fltOf cSHAPE roleX x 0),
    need (d.size 0 = sh.n && d.size 1 = sh.m && a.batch = d.batch) (fltOf cSHAPE roleD d 0),
    need (b.size (i.mod 18 18) = sh.k && (!sh.shared || b.batch = [1, 1, 1, 1])) (fltOf cSHAPE roleB b 0),
    need (!acc || (x.size 0 = sh.n && x.size 1 = sh.m && x.batch = d.batch)) (fltOf cSHAPE roleX x 0),
    d.checkWrite roleD]

/-- Bind a gmm's pages; C identical to D needs both permissions (R180, R181). -/
def gmmOperands (i : Insn) : List Opd :=
  let d := i.td roleD
  let acc := i.mod 16 16 == 1
  let same := acc && (i.td roleX).same d
  [⟨roleD, d, same, true⟩, ⟨roleA, i.td roleA, true, false⟩, ⟨roleB, i.td roleB, true, false⟩] ++
    (if acc then [⟨roleX, i.td roleX, true, same⟩] else [])

/-- The overlap rule of a gmm (R100, R171). -/
def gmmAlias (b : Bound) (i : Insn) : Option Flt :=
  let d := i.td roleD
  firstFlt [need (!physMeet b d (i.td roleA)) (fltOf cALIAS roleD d 0),
    need (!physMeet b d (i.td roleB)) (fltOf cALIAS roleD d 0),
    need (i.mod 16 16 = 0 || (i.td roleX).same d || !physMeet b d (i.td roleX)) (fltOf cALIAS roleD d 0)]

/-- The table that an instruction reads: 0 function, 1 derivative (R109, R217). -/
def Insn.table (i : Insn) : Option Nat :=
  if i.op = 0x10 then (if i.mod 21 20 = 0 then none else some (i.mod 21 20 - 1))
  else if i.op = 0x18 then (if i.mod 6 4 = 0 then some 0 else if i.mod 6 4 ≤ 2 then some 1 else none)
  else none

/-- The table that an instruction needs is loaded, else TABLE (R108, R217). -/
def State.tableFlt (s : State) (n : Nat) (i : Insn) : Option Flt :=
  match i.table with
  | none => none
  | some 0 => need (s.get (Reg.CORE.ACT_FUNC_VALID n) = 1) ⟨cTABLE, 0, 0, 0⟩
  | some _ => need (s.get (Reg.CORE.ACT_DERIV_VALID n) = 1) ⟨cTABLE, 0, 0, 1⟩

/-- The elements of a chunk: 64 when both sources are 8 bits or narrower (R64, R67, R90). -/
def gmmBeat (i : Insn) : Nat :=
  if (i.td roleA).wbits ≤ 8 ∧ (i.td roleB).wbits ≤ 8 then 64 else 32

/-- The integer path of R69. -/
def gmmInt (i : Insn) : Bool :=
  let ok := fun (d : TD) => [0x09, 0x0A, 0x0B].contains d.type && d.bsize == 0
  ok (i.td roleA) && ok (i.td roleB) && (i.td roleD).type == 0x0C

/-- The index lists of the elements of A in row i and of B in column j. -/
def rowOf (i : Insn) (sh : Shape) (row : Nat) (be : List Nat) : List (List Nat) :=
  (List.range sh.k).map fun k => (if i.mod 17 17 = 0 then [k, row] else [row, k]) ++ be
def colOf (i : Insn) (sh : Shape) (col : Nat) (be : List Nat) : List (List Nat) :=
  let be := if sh.shared then [0, 0, 0, 0] else be
  (List.range sh.k).map fun k => (if i.mod 18 18 = 0 then [k, col] else [col, k]) ++ be

/-- The products of one element, a list for each pass (R82). -/
def passes (p : Nat) (fpA fpB : Bool) (a b : List Num) : List (List Num) :=
  let ah := if fpA then a.map hiPart else a
  let bh := if fpB then b.map hiPart else b
  if p = 1 then [List.zipWith Num.mul ah bh]
  else if p = 2 then [List.zipWith Num.mul ah b, List.zipWith (fun x y => lowMul (loPart x) y) a b]
  else [List.zipWith Num.mul ah bh, List.zipWith (fun x y => lowMul (loPart y) x) ah b,
        List.zipWith (fun x y => lowMul (loPart x) y) a bh]

/-- The accumulated value of element (row, col) of a batch element (R67, R69, R93). -/
def State.gmmElem (s : State) (b : Bound) (i : Insn) (sh : Shape) (row col : Nat) (be : List Nat) : Num :=
  let A := (rowOf i sh row be).map (s.value b (i.td roleA))
  let B := (colOf i sh col be).map (s.value b (i.td roleB))
  let c := if i.mod 16 16 = 1 then s.value b (i.td roleX) ([col, row] ++ be) else Num.zero false
  if gmmInt i then (List.zipWith Num.mul A B).foldl Num.add c
  else (passes (i.mod 23 22) ((i.td roleA).type == 1) ((i.td roleB).type == 1) A B).foldl (dotBeats (gmmBeat i)) c

/-- The elements of a gmm in the order of its work: batch, row on the lanes, column (R94, R95); row and column
of D, and the batch indices. -/
def gmmOrder (i : Insn) (sh : Shape) : List (Nat × Nat × List Nat × Nat) :=
  let swap := i.mod 19 19 = 1
  let rows := if swap then sh.n else sh.m
  let cols := if swap then sh.m else sh.n
  ((List.range (sh.batch.foldl (· * ·) 1)).map fun be =>
    ((List.range rows).map fun r => (List.range cols).map fun c =>
      (if swap then c else r, if swap then r else c, unlin sh.batch be, 32 * (r / 32 % 8) + r % 32)).flatten).flatten

/-! ### The activation unit (R109 to R113) -/

/-- A byte of a table image. -/
def tableByte (t : List (Nat × BitVec 64)) (k : Nat) : Byte :=
  BitVec.ofNat 8 ((sparseGet 0 (k / 8) t).toNat / 256 ^ (k % 8))

/-- A little-endian field of a table image. -/
def tableNat (t : List (Nat × BitVec 64)) (k n : Nat) : Nat := natOf ((List.range n).map fun j => tableByte t (k + j))

/-- The FP32 value of four bytes of a table image. -/
def tableFp (t : List (Nat × BitVec 64)) (k : Nat) : Num := decodeNum 1 (tableNat t k 4)

/-- Round to FP32 to nearest even, without a count (R111). -/
def toF32 (x : Num) : Num := decodeNum 1 (convert 1 .rne x).1

/-- The value of an entry: two FMAs, each rounded once (R111). -/
def tableEntry (t : List (Nat × BitVec 64)) (k : Nat) (x : Num) : Num :=
  toF32 ((toF32 ((tableFp t (64 + 12 * k + 8)).mul x |>.add (tableFp t (64 + 12 * k + 4)))).mul x |>.add
    (tableFp t (64 + 12 * k)))

/-- Evaluate a table at a value: y, and whether the input lies above the window (R111). An infinite input has a result of its
own and is not counted as one above the window, on which the manual is silent (log entry 94). -/
def evalTable (t : List (Nat × BitVec 64)) (v : Num) : Num × Bool :=
  let e0 := signed 16 (tableNat t 0 2)
  match toF32 v with
  | .nan => (.nan, false)
  | .inf neg => (tableFp t (if neg then 12 else 8), false)
  | .fin neg m e =>
    let s := if neg then 128 else 0
    let E := e + Nat.log2 m
    if m = 0 ∨ E < e0 then (tableEntry t s (.fin neg m e), false)
    else if E ≤ e0 + 14 then
      let top := roundInt .rz m (e - E + 3) - 8
      let base : Num := .fin (!neg) (8 + top) (E - 3)
      (tableEntry t (s + (E - e0 + 1).toNat * 8 + top) ((Num.fin neg m e).add base), false)
    else if (tableByte t 2).toNat % 2 = 1 then (tableFp t (if neg then 20 else 16), true)
    else (tableEntry t (s + 127) ((Num.fin neg m e).add (.fin (!neg) 15 (e0 + 11))), true)

/-- The image of table 0 or 1 of core n. -/
def State.tableOf (s : State) (n k : Nat) : List (Nat × BitVec 64) :=
  if k = 0 then (s.core n).tabF else (s.core n).tabD

/-- A gmm's value after its fused function, and whether it was above the window (R111, R216). -/
def State.fuse (s : State) (n : Nat) (i : Insn) (v : Num) : Num × Bool :=
  match i.table with
  | none => (v, false)
  | some k => evalTable (s.tableOf n k) v

/-! ### What Garnet counts (R98, R102, R118) -/

/-- The 64-byte units of a core store that a read of n bytes at a virtual address touches. -/
def touched (b : Bound) (va n : Nat) : List Nat :=
  if n = 0 then [] else
    (List.range ((b.pa va % 64 + n + 63) / 64)).map fun j => (b.pa (va / 64 * 64 + 64 * j) - csBase) % csSize / 64

/-- The units one source reads for a chunk: a segment of each row where K is contiguous, else a run of the rows
for each element of the chunk (R97, R98). Reads of block-scale codes are not among them (log entry 14). -/
def chunkReads (b : Bound) (d : TD) (kd c w r0 rows : Nat) (be : List Nat) : List Nat :=
  let k0 := c * w
  let kn := min w (d.size kd - k0)
  let at_ := fun (k r : Nat) => d.va ((if kd = 0 then [k, r] else [r, k]) ++ be)
  let bytes := fun (n : Nat) => (n * d.wbits + 7) / 8
  if kd = 0 ∨ d.portIl then
    ((List.range rows).map fun r => touched b (at_ k0 (r0 + r)) (bytes kn)).flatten
  else ((List.range kn).map fun k => ((List.range (ceilDiv rows 32)).map fun q =>
    touched b (at_ (k0 + k) (r0 + 32 * q)) (bytes (min 32 (rows - 32 * q)))).flatten).flatten

/-- The bank of a 64-byte unit (R98). -/
def bankOf (u : Nat) : Nat := (u / 2 % 32) ^^^ (u / 64 % 32)

/-- The beats that the banks add to one chunk step of q columns (R98). -/
def conflictBeats (units : List Nat) (q : Nat) : Nat :=
  let most := (List.range 32).foldl (fun m k => max m (64 * (units.filter fun u => bankOf u == k).length)) 0
  ceilDiv most 128 - max q 8

/-- The rows and the columns of a gmm as its lanes take them (R94), its batch elements, and its row blocks. -/
def gmmRows (i : Insn) (sh : Shape) : Nat := if i.mod 19 19 = 1 then sh.n else sh.m
def gmmCols (i : Insn) (sh : Shape) : Nat := if i.mod 19 19 = 1 then sh.m else sh.n
def Shape.batches (sh : Shape) : Nat := sh.batch.foldl (· * ·) 1
def gmmBlocks (i : Insn) (sh : Shape) : Nat := ceilDiv (gmmRows i sh) 32

/-- The sweeps of a gmm on t tiles from row block off of batch element be on: where each of them begins (R94, R105). -/
def sweepsFrom (batches blocks t be off : Nat) : List (Nat × Nat) :=
  let one := fun (e o : Nat) => (List.range (ceilDiv (blocks - o) t)).map fun k => (e, o + k * t)
  (List.range (batches - be)).flatMap fun k => one (be + k) (if k = 0 then off else 0)

/-- The beats that the banks add to one sweep of a gmm: t tiles from row block off of batch element n (R98). -/
def sweepConflict (b : Bound) (i : Insn) (sh : Shape) (t n off : Nat) : Nat :=
  let swap := i.mod 19 19 = 1
  let lane := if swap then i.td roleB else i.td roleA
  let bro := if swap then i.td roleA else i.td roleB
  let lk := if swap then i.mod 18 18 else i.mod 17 17
  let bk := if swap then i.mod 17 17 else i.mod 18 18
  let w := gmmBeat i
  let beOf := fun (role : Nat) (be : List Nat) => if role = roleB ∧ sh.shared then [0, 0, 0, 0] else be
  let be := unlin sh.batch n
  let r0 := 32 * off
  ((List.range (ceilDiv (gmmCols i sh) 32)).map fun cb =>
    let q := min 32 (gmmCols i sh - 32 * cb)
    i.mod 23 22 * ((List.range (ceilDiv sh.k w)).map fun c =>
      conflictBeats (chunkReads b lane lk c w r0 (min (32 * t) (gmmRows i sh - r0)) (beOf (if swap then roleB else roleA) be)
        ++ chunkReads b bro bk c w (32 * cb) q (beOf (if swap then roleA else roleB) be)) q).sum).sum

/-- The beats that the banks add to sweeps on t tiles (R98). -/
def gmmConflict (b : Bound) (i : Insn) (sh : Shape) (t : Nat) (l : List (Nat × Nat)) : Nat :=
  (l.map fun e => sweepConflict b i sh t e.1 e.2).sum

/-- The beats of one sweep (R102). -/
def sweepBeats (i : Insn) (sh : Shape) : Nat :=
  let cols := gmmCols i sh
  i.mod 23 22 * ceilDiv sh.k (gmmBeat i) * (32 * (cols / 32) + (if cols % 32 = 0 then 0 else max (cols % 32) 8))

/-- What a gmm adds to Garnet's counters, executed alone (R96, R98, R102): GARNET_BUSY takes the product of R102 without its
64 beats of fill and drain and without the beats that banks add, and with the beats that pad a column block to 8 columns (log
entry 14). -/
def State.gmmCount (s : State) (n : Nat) (b : Bound) (i : Insn) (sh : Shape) : State :=
  let svc := s.get (Reg.CORE.IN_SERVICE n)
  let l := sweepsFrom sh.batches (gmmBlocks i sh) svc 0 0
  let masked := sh.batches * (32 * gmmBlocks i sh - gmmRows i sh) * sweepBeats i sh
  let s := s.setCore n { s.core n with gmm := some ⟨b, 0, 0, 0⟩ }
  let s := s.puts [(Reg.CORE.GARNET_TAG n, i.tag), (Reg.CORE.SWEEPS_DONE n, min l.length (2 ^ 32 - 1))]
  ((s.inc (Reg.CORE.GARNET_BUSY n) (l.length * sweepBeats i sh)).inc (Reg.CORE.GARNET_MASKED n) masked).inc
    (Reg.CORE.GARNET_CONFLICT n) (gmmConflict b i sh svc l)

/-- The first poisoned operand of an instruction: its fault (R413, R551). -/
def State.poisonFlt (s : State) (b : Bound) (l : List (Nat × TD)) : Option Flt :=
  firstFlt (l.map fun e => (s.poisonedElems b e.2 e.2.allIx).map (poisonFltOf e.1 e.2))

/-- An element of a gmm reads no poisoned piece. -/
def State.gmmClean (s : State) (b : Bound) (i : Insn) (sh : Shape) (e : Nat × Nat × List Nat × Nat) : Bool :=
  (s.poisonedElems b (i.td roleA) (rowOf i sh e.1 e.2.2.1)).isNone &&
  (s.poisonedElems b (i.td roleB) (colOf i sh e.2.1 e.2.2.1)).isNone &&
  (i.mod 16 16 == 0 || (s.poisonedElems b (i.td roleX) [[e.2.1, e.1] ++ e.2.2.1]).isNone)

/-- The work of a gmm whose checks have passed (R91 to R101). -/
def State.gmmWork (s : State) (n : Nat) (i : Insn) (b : Bound) : State :=
  let sh := gmmShape i
  let d := i.td roleD
  let order := gmmOrder i sh
  let item := fun (e : Nat × Nat × List Nat × Nat) =>
    let v := s.fuse n i (s.gmmElem b i sh e.1 e.2.1 e.2.2.1)
    (Res.mk (lin d.sizes ([e.2.1, e.1] ++ e.2.2.1)) e.2.2.2 v.1, v.2)
  let ops := [(roleA, i.td roleA), (roleB, i.td roleB)] ++ (if i.mod 16 16 = 1 then [(roleX, i.td roleX)] else [])
  match (if d.count = 0 then none else s.poisonFlt b ops) with
  | some f =>
    let clean := if d.bsize = 0 then (order.filter (s.gmmClean b i sh)).map item else []
    s.poisonStop n (i.mod 1 0) i b d clean f
  | none =>
    let rs := order.map item
    let s := (s.gmmCount n b i sh).countAbove n rs
    let (s, c) := s.writeResults n (i.mod 1 0) b d (rs.map Prod.fst)
    (s.checkOf n i b true).markDone n i.tag c

/-- What a gmm does when it dispatches. -/
def State.gmmRun (s : State) (n : Nat) (i : Insn) : State :=
  match gmmFlt i (s.jobOf n) with
  | some f => s.takeFault n i f
  | none =>
    match s.bindAll (sliceOf (unitOfOp i.op) n) (s.jobOf n) (.own n) (gmmOperands i) with
    | (s, .inl f) => s.takeFault n i f
    | (s, .inr b) =>
      match firstFlt [gmmAlias b i, s.tableFlt n i] with
      | some f => s.takeFault n i f
      | none => s.gmmWork n i b

/-- No tload of the table is before the instruction and incomplete (R109). -/
def State.tableSettled (s : State) (n : Nat) (i : Insn) : Bool :=
  match i.table with
  | none => true
  | some k => !(s.earlier n i.tag).any fun y => y.op == 0x19 && y.mod 0 0 == k

/-- Every earlier instruction has made its draws, where this instruction draws (R77, R215). -/
def State.drawTurn (s : State) (n : Nat) (i : Insn) : Bool := !i.draws || !s.drawsAhead n i

/-- Garnet executes one gmm at a time, and waits for its table and for earlier draws (R77, R109). -/
def State.garnetFree (s : State) (n : Nat) (i : Insn) : Bool :=
  s.get (Reg.CORE.GARNET_TAG n) == 0 && s.tableSettled n i && s.drawTurn n i

/-- GMM (R91). -/
def execGmm (c : CoreIx) (s : State) : Out :=
  whenLive s fun s => s.dispatch c.val 0x10 (fun s i => s.garnetFree c.val i) fun s i => s.gmmRun c.val i

/-! ### gact (R113, R217) -/

/-- The sources of a gact. -/
def gactSources (i : Insn) : List Nat :=
  let op := i.mod 6 4
  if op ≤ 1 then [roleA] else if op = 6 then [roleA, roleB, roleX] else [roleA, roleB]

/-- The checks of one source of a gact (R166, R217). -/
def gactSource (i : Insn) (job role : Nat) : Option Flt :=
  let a := i.td role
  let d := i.td roleD
  firstFlt [a.check role job valueTypes true false false, need (a.bsize = 0 || a.bdim = 0) (fltOf cTYPE role a 0),
    need (a.rank = d.rank && a.sizes = d.sizes) (fltOf cSHAPE role a 0)]

/-- The checks of a gact before translation. -/
def gactFlt (i : Insn) (job : Nat) : Option Flt :=
  let d := i.td roleD
  firstFlt ([d.check roleD job valueTypes true false false,
    need (d.bsize = 0 || d.bdim = 0) (fltOf cTYPE roleD d 0)] ++ (gactSources i).map (gactSource i job) ++
    [d.checkWrite roleD])

/-- The physical bits of w bits at a virtual bit address, through bound pages. -/
def physBits (b : Bound) (bit w : Nat) : List Nat :=
  (List.range w).map fun j => b.pa ((bit + j) / 8) * 8 + (bit + j) % 8

/-- The physical bits of element l of an operand, its scale's included. -/
def elBits (b : Bound) (d : TD) (l : Nat) : List Nat :=
  let ix := unlin d.sizes l
  physBits b (d.bitAddr ix) d.wbits ++ (if d.bsize = 0 then [] else physBits b (8 * d.scaleVa ix) 8)

/-- Element l of a source of a gact may be read after some other result has been written over it: a bit of it is one of another
element of D, or of the scale of another block. -/
def overwritten (b : Bound) (a d : TD) (l : Nat) : Bool :=
  let mine := elBits b a l
  let block := fun k => if d.bsize = 0 then k else d.scaleVa (unlin d.sizes k)
  (List.range d.count).any fun k => k != l &&
    (if block k = block l then physBits b (d.bitAddr (unlin d.sizes k)) d.wbits else elBits b d k).any mine.contains

/-- The value of a source element. Where a result other than its own may be written over it first, the source not being D
itself, what a read gives is not stated: a free code (log entry 20). -/
def State.gactValue (s : State) (b : Bound) (i : Insn) (role l : Nat) : Num :=
  let a := i.td role
  let d := i.td roleD
  if physMeet b a d ∧ !a.same d ∧ overwritten b a d l then decodeNum a.type (Config.openValue 20 (2 ^ 64 * s.freeCtr + 4 * l + role) % 2 ^ a.wbits)
  else s.value b a (unlin a.sizes l)

/-- The result of a gact before conversion (R113). -/
def State.gactElem (s : State) (n : Nat) (b : Bound) (i : Insn) (l : Nat) : Num × Bool :=
  let v := fun role => s.gactValue b i role l
  match i.mod 6 4 with
  | 0 => evalTable (s.tableOf n 0) (v roleA)
  | 1 => evalTable (s.tableOf n 1) (v roleA)
  | 2 => let y := evalTable (s.tableOf n 1) (v roleA); ((v roleB).mul y.1, y.2)
  | 3 => ((v roleA).add (v roleB), false)
  | 4 => ((v roleA).add (v roleB).neg, false)
  | 5 => ((v roleA).mul (v roleB), false)
  | _ => (((v roleA).mul (v roleB)).add (v roleX), false)

/-- The work of a gact whose checks have passed: element e on lane e mod 256 (R113). -/
def State.gactWork (s : State) (n : Nat) (i : Insn) (b : Bound) : State :=
  let d := i.td roleD
  let item := fun (l : Nat) => let v := s.gactElem n b i l; (Res.mk l (l % 256) v.1, v.2)
  let clean := fun (l : Nat) => (gactSources i).all fun r =>
    (s.poisonedElems b (i.td r) [unlin (i.td r).sizes l]).isNone
  match s.poisonFlt b ((gactSources i).map fun r => (r, i.td r)) with
  | some f =>
    s.poisonStop n (i.mod 1 0) i b d
      (if d.bsize = 0 then ((List.range d.count).filter clean).map item else []) f
  | none =>
    let rs := (List.range d.count).map item
    let s := { s with freeCtr := s.freeCtr + 4 * d.count + 4 }
    let (s, c) := (s.countAbove n rs).writeResults n (i.mod 1 0) b d (rs.map Prod.fst)
    (s.checkOf n i b true).markDone n i.tag c

/-- What a gact does when it dispatches. -/
def State.gactRun (s : State) (n : Nat) (i : Insn) : State :=
  match gactFlt i (s.jobOf n) with
  | some f => s.takeFault n i f
  | none =>
    let opd := fun r => Opd.mk r (i.td r) true ((i.td r).same (i.td roleD))
    match s.bindAll (sliceOf (unitOfOp i.op) n) (s.jobOf n) (.own n) (⟨roleD, i.td roleD, false, true⟩ :: (gactSources i).map opd) with
    | (s, .inl f) => s.takeFault n i f
    | (s, .inr b) =>
      match s.tableFlt n i with
      | some f => s.takeFault n i f
      | none => s.gactWork n i b

/-- GACT (R113, R217). -/
def execGact (c : CoreIx) (s : State) : Out :=
  whenLive s fun s => s.dispatch c.val 0x18 (fun s i => s.tableSettled c.val i && s.drawTurn c.val i)
    fun s i => s.gactRun c.val i

/-! ### tload (R109, R110) -/

/-- The checks of a tload's source. -/
def tloadFlt (i : Insn) (job : Nat) : Option Flt :=
  let a := i.td roleA
  firstFlt [a.check roleA job [0x0A] false false false, need (a.rank = 1 && a.size 0 = 3136) (fltOf cSHAPE roleA a 0)]

/-- Load a table image: 392 words of 64 bits. -/
def State.loadTable (s : State) (n k : Nat) (data : Bytes) : State :=
  let t := (List.range 392).foldl (fun t j => sparseSet 0 j (BitVec.ofNat 64 (natOf (slice (8 * j) 8 data))) t) []
  let tag := natOf (slice 4 4 data)
  if k = 0 then (s.setCore n { s.core n with tabF := t }).puts [(Reg.CORE.ACT_FUNC_TAG n, tag), (Reg.CORE.ACT_FUNC_VALID n, 1)]
  else (s.setCore n { s.core n with tabD := t }).puts [(Reg.CORE.ACT_DERIV_TAG n, tag), (Reg.CORE.ACT_DERIV_VALID n, 1)]

/-- The 3,136 bytes of a tload's source (R110). -/
def State.tableImage (s : State) (b : Bound) (a : TD) : Bytes := (List.range 3136).map fun k => BitVec.ofNat 8 (s.elem b a [k])

/-- What a tload does when it dispatches. -/
def State.tloadRun (s : State) (n : Nat) (i : Insn) : State :=
  match tloadFlt i (s.jobOf n) with
  | some f => s.takeFault n i f
  | none =>
    let a := i.td roleA
    match s.bindAll (sliceOf (unitOfOp i.op) n) (s.jobOf n) (.own n) [⟨roleA, a, true, false⟩] with
    | (s, .inl f) => s.takeFault n i f
    | (s, .inr b) =>
      match s.poisonFlt b [(roleA, a)] with
      | some f => s.takeFault n i f
      | none =>
        let data := s.tableImage b a
        let e0 := signed 16 (natOf (slice 0 2 data))
        if e0 < -126 ∨ 112 < e0 then s.takeFault n i ⟨cTABLE, 0, 0, i.mod 0 0⟩
        else (s.loadTable n (i.mod 0 0) data).markDone n i.tag Cnt.none

/-- TLOAD waits until every earlier reader of its table has completed (R109). -/
def execTload (c : CoreIx) (s : State) : Out :=
  whenLive s fun s => s.dispatch c.val 0x19
    (fun s i => !(s.earlier c.val i.tag).any fun y => y.table == some (i.mod 0 0)) fun s i => s.tloadRun c.val i

/-! ### Fencing tiles (R105 to R107) -/

/-- A request of Sill firmware: at once when no gmm is in flight, and for a tile that is fenced for test and
retired; else at the end of the sweep in progress (R105). -/
def State.fenceWrite (s : State) (n : Nat) (k : FenceKind) (mask : Nat) : State :=
  if !s.present n then s
  else ((List.range 8).filter (bitOf mask)).foldl (fun s t =>
    if s.get (Reg.CORE.GARNET_TAG n) = 0 ∨ (k = .retire ∧ s.tileState n t = 2) then s.fenceTile n k t
    else s.setCore n { s.core n with fences := (s.core n).fences ++ [(k, t)] }) s

/-- A write to a field of GARNET_FENCE at its bit position: a host's is ignored and recorded (R118, R550). -/
def State.fenceField (s : State) (n : Nat) (k : FenceKind) (mask shift : Nat) (sill : Bool) : State :=
  if sill then s.fenceWrite n k mask
  else if s.present n ∧ mask ≠ 0 then s.hostRefused (coreBase n + 0x4008) (mask * 2 ^ shift) else s

/-- FENCE_REQ (R105). -/
def execFenceReq (c : CoreIx) (mask : BitVec 8) (sill : Bool) (s : State) : Out :=
  whenBar s sill fun s => s.fenceField c.val .test mask.toNat 0 sill

/-- UNFENCE_REQ (R105). -/
def execUnfenceReq (c : CoreIx) (mask : BitVec 8) (sill : Bool) (s : State) : Out :=
  whenBar s sill fun s => s.fenceField c.val .unfence mask.toNat 8 sill

/-- RETIRE_REQ (R105). -/
def execRetireReq (c : CoreIx) (mask : BitVec 8) (sill : Bool) (s : State) : Out :=
  whenBar s sill fun s => s.fenceField c.val .retire mask.toNat 16 sill

/-- A count that stands in a counter is replaced by another: the counter keeps what else it has counted, and stays at its maximum
value (R11). -/
def State.recount (s : State) (f : Fld) (old new : Nat) : State := s.put f (min (s.get f + new - old) (2 ^ f.w - 1))

/-- A fence takes effect during a gmm: its later sweeps run on the tiles then in service, from the row block at which the sweep
in progress ends. How many of its sweeps that one is, is free (log entry 14); the sweeps that have begun stay as they were
counted, and the later ones are counted anew (R98, R105, R106). -/
def State.resweep (s : State) (n t0 : Nat) : State :=
  let t1 := s.get (Reg.CORE.IN_SERVICE n)
  match (s.core n).window.find? (fun i => i.tag = s.get (Reg.CORE.GARNET_TAG n) && i.op == 0x10), (s.core n).gmm with
  | some i, some g =>
    let sh := gmmShape i
    let old := sweepsFrom sh.batches (gmmBlocks i sh) t0 g.be g.off
    let k := 1 + Config.openValue 14 s.freeCtr % old.length
    match (if t0 = t1 then none else old[k]?) with
    | none => s.draw
    | some at_ =>
      let new := sweepsFrom sh.batches (gmmBlocks i sh) t1 at_.1 at_.2
      let left := old.drop k
      let s := s.setCore n { s.core n with gmm := some { g with done := g.done + k, be := at_.1, off := at_.2 } }
      (((s.draw.put (Reg.CORE.SWEEPS_DONE n) (min (g.done + k + new.length) (2 ^ 32 - 1))).recount (Reg.CORE.GARNET_BUSY n)
        (left.length * sweepBeats i sh) (new.length * sweepBeats i sh))).recount (Reg.CORE.GARNET_CONFLICT n)
        (gmmConflict g.pages i sh t0 left) (gmmConflict g.pages i sh t1 new)
  | _, _ => s

/-- TILE_FENCE_EFFECT: the sweep in progress has ended (R105). -/
def execTileFenceEffect (c : CoreIx) (s : State) : Out :=
  whenLive s fun s => (s.fenceEffect c.val).resweep c.val (s.get (Reg.CORE.IN_SERVICE c.val))

end Sys2Proof.Machine
end

