-- ==== Sys2Proof/Machine/Beryl.lean ====
section
/-!
DEFINITION. Machine/Beryl.lean: the gather-and-merge engine (chapter 5): bgather, bscatter, bsort, bgroup,
bragged, bunpack and baudit.
-/

namespace Sys2Proof.Machine

/-! ### Rows, integers, writes -/

/-- An element to write with the poison mark it carries. -/
structure El where
  bit : Nat
  w : Nat
  code : Nat
  mark : Bool
deriving DecidableEq, Repr

/-- An unmarked element of a destination. -/
def TD.el (d : TD) (ix : List Nat) (code : Nat) : El := ⟨d.bitAddr ix, d.wbits, code, false⟩

/-- The rows of a row operand: dimensions 1 to 5 flattened. -/
def TD.rows (d : TD) : Nat := (d.sizes.drop 1).foldl (· * ·) 1

/-- The index list of element e of row r. -/
def TD.rowIx (d : TD) (r e : Nat) : List Nat := e :: unlin (d.sizes.drop 1) r

/-- The pieces that a row spans (R127). -/
def TD.rowPieces (d : TD) : Nat := ceilDiv ((d.size 0 * d.wbits + 7) / 8) 32

/-- The scales of a row: one for each block of dimension 0. -/
def TD.rowScales (d : TD) (r : Nat) : List Nat :=
  if d.bsize = 0 then [] else (List.range (ceilDiv (d.size 0) d.block)).map fun k => d.scaleVa (d.rowIx r (k * d.block))

/-- The units in which a row is copied, so that none lies in two pieces: its elements, or its bytes where an element of six bits
may lie in two (R58, R128): offset in bits and width. -/
def TD.rowBits (a : TD) : List (Nat × Nat) :=
  let u := if a.wbits = 6 then 8 else a.wbits
  let n := a.size 0 * a.wbits
  (List.range (ceilDiv n u)).map fun k => (k * u, min u (n - k * u))

/-- Copy row ra of A to row rd of D, bit by bit, with its scales and its poison marks (R122, R128). -/
def State.copyRow (s : State) (b : Bound) (a d : TD) (ra rd : Nat) : List El :=
  let src := a.bitAddr (a.rowIx ra 0)
  (a.rowBits.map fun e => ⟨d.bitAddr (d.rowIx rd 0) + e.1, e.2, s.readBits b (src + e.1) e.2,
    s.poisoned (b.pa ((src + e.1) / 8))⟩) ++
  List.zipWith (fun x y => ⟨8 * y, 8, (s.byte (b.pa x)).toNat, s.poisoned (b.pa x)⟩) (a.rowScales ra) (d.rowScales rd)

/-- A padding row: zero (R123; for its scales log entry 21). -/
def zeroRow (d : TD) (r : Nat) : List El :=
  ((List.range (d.size 0)).map fun e => d.el (d.rowIx r e) 0) ++ (d.rowScales r).map fun y => ⟨8 * y, 8, 0, false⟩

/-- The integers of an operand, in linear order. -/
def State.ints (s : State) (b : Bound) (d : TD) : List Int :=
  d.allIx.map fun ix => let c := s.elem b d ix; if d.type = 0x0F ∨ d.type = 0x0A then (c : Int) else signed d.wbits c

/-- Write elements and the marks they carry (R128). -/
def State.writeEls (s : State) (b : Bound) (l : List El) : State :=
  let s := s.writeElems b (l.map fun e => (e.bit, e.w, e.code))
  (l.filter El.mark).foldl (fun s e => s.setPoison (b.pa (e.bit / 8))) s

/-- The sectors of a POISON_KILL page that a marked element would reach (R184). -/
def killSectors (b : Bound) (l : List El) : List Nat :=
  (l.filter fun e => e.mark && b.kill (e.bit / 8)).map fun e => e.bit / 512


/-- Some of a list, which ones is free: the rows that an engine had come to when poison stopped it (log entry 19). -/
def State.someOf {α : Type} (s : State) (l : List α) : List α :=
  (l.zipIdx.filter fun e => bitOf (Config.openValue 19 s.freeCtr) e.2).map Prod.fst

/-- What a Beryl instruction leaves that poison stops: any of the elements that it could have written may be written, none of
them in a sector where a mark would reach a POISON_KILL page (R184; log entry 19), with their counts and their checks (R87, R128,
R131, R152, R155); the caller takes the fault. -/
def State.berylPart (s : State) (n : Nat) (i : Insn) (b : Bound) (l : List (El × Cnt)) : State :=
  let kill := killSectors b (l.map Prod.fst)
  let wrote := s.someOf (l.filter fun e => !kill.contains (e.1.bit / 512))
  let c := wrote.foldl (fun c e => c.add e.2) Cnt.none
  ((s.draw.writeEls b (wrote.map Prod.fst)).addCounts n { i with sat := c.sat, flush := c.flush, nan := c.nan }).checkOf n i b
    !l.isEmpty

/-- A Beryl instruction stops at poison and faults (R128, R152). -/
def State.berylStop (s : State) (n : Nat) (i : Insn) (b : Bound) (l : List (El × Cnt)) (f : Flt) : State :=
  (s.berylPart n i b l).takeFault n i f

/-- A Beryl instruction meets a marked piece, in sector x, for a POISON_KILL page: consumption (R184). -/
def State.berylKill (s : State) (n : Nat) (i : Insn) (b : Bound) (role : Nat) (d : TD) (l : List El) (x : Nat) : State :=
  (s.berylPart n i b (l.map fun e => (e, Cnt.none))).killFault n i (fltOf cPOISON role d (x * 64))

/-- A Beryl instruction writes its destination and is done; a marked piece for a POISON_KILL page is consumption
(R184). -/
def State.berylEnd (s : State) (n : Nat) (i : Insn) (b : Bound) (role : Nat) (d : TD) (l : List El) (c : Cnt) : State :=
  match killSectors b l with
  | [] => ((s.writeEls b l).pushCheck n 3 i.tag (s.jobOf n) 0 b).markDone n i.tag c
  | x :: _ => s.berylKill n i b role d l x

/-- The phases of a Beryl instruction, in their order (R156). -/
def berylPhases (op : Nat) : List Nat := if op = 0x25 then [4, 3] else if op = 0x21 ∨ op = 0x22 then [1, 2, 3] else [1, 3]

/-- Beryl takes an instruction: its tag, the phase it begins with, and its beats (R156; log entries 14 and 83). Which of its
phases a later read shows, until it completes, is free (log entry 14). -/
def State.berylBegin (s : State) (n : Nat) (i : Insn) (beats : Nat) : State :=
  (s.puts [(Reg.CORE.BERYL_TAG n, i.tag), (Reg.CORE.BERYL_PHASE n, if i.op = 0x25 then 4 else 1)]).inc
    (Reg.CORE.BERYL_BUSY n) beats

/-- The beats of the sort (R133). -/
def sortBeats (n : Nat) : Nat :=
  let r := ceilDiv n 64
  let passes := if r ≤ 1 then 0 else if r ≤ 8 then 1 else if r ≤ 64 then 2 else if r ≤ 512 then 3 else 4
  r * (1 + passes)

/-! ### Checks -/

/-- The checks of an operand that holds plain vectors (R152). -/
def Insn.plain (i : Insn) (role job : Nat) (types : List Nat) : Option Flt :=
  (i.td role).check role job types false false false

/-- The checks of a row operand: dimension 0 stride +1, blocks of scale along dimension 0 (R122, R166). -/
def Insn.rowOp (i : Insn) (role job : Nat) (types : List Nat) (scales : Bool) : Option Flt :=
  let d := i.td role
  firstFlt [d.check role job types scales false false, need (d.bsize = 0 || d.bdim = 0) (fltOf cTYPE role d 0),
    need (d.size 0 ≤ 1 || d.stride 0 = 1) (fltOf cLAYOUT role d 0)]

/-- INDEX or METADATA detail: a value as INT64 and its position (R551). -/
def valueDetail (v : Int) (pos : Nat) : Nat := unsigned 64 v + pos % 2 ^ 40 * 2 ^ 64

/-- The operands of an instruction with their access rights. -/
def Insn.opds (i : Insn) : List Opd := i.operands.map fun o => ⟨o.1, i.td o.1, o.2.1, o.2.2⟩

/-- D overlaps no other operand (R152, R171). -/
def berylAlias (b : Bound) (i : Insn) : Option Flt :=
  let d := i.td roleD
  firstFlt ((i.operands.filter fun o => o.1 != roleD).map fun o =>
    need (!physMeet b d (i.td o.1)) (fltOf cALIAS roleD d 0))

/-- The checks, the binding and the alias rule that every Beryl instruction shares; then its work. -/
def State.berylRun (s : State) (n : Nat) (i : Insn) (pre : Option Flt) (work : State → Bound → State) : State :=
  let out := (i.operands.filter fun o => o.2.2).map fun o => (i.td o.1).checkWrite o.1
  match firstFlt (pre :: out) with
  | some f => s.takeFault n i f
  | none =>
    match s.bindAll (sliceOf (unitOfOp i.op) n) (s.jobOf n) (.own n) i.opds with
    | (s, .inl f) => s.takeFault n i f
    | (s, .inr b) =>
      match berylAlias b i with
      | some f => s.takeFault n i f
      | none => work s b

/-- Beryl executes one instruction at a time (R120). -/
def State.berylFree (s : State) (n : Nat) (_ : Insn) : Bool := s.get (Reg.CORE.BERYL_TAG n) == 0

/-! ### bgather (R122 to R128) -/

/-- bgather's checks. Of a mask the rule asks the size only: it may have any rank (R126; log entry 95). -/
def bgatherFlt (i : Insn) (job : Nat) : Option Flt :=
  let d := i.td roleD
  let a := i.td roleA
  let b := i.td roleB
  let mask := i.mod 2 2 == 1
  firstFlt [i.rowOp roleD job anyTypes true, i.rowOp roleA job anyTypes true, i.plain roleB job [0x0C, 0x0D],
    if mask then i.plain roleX job [0x0F] else none,
    need (a.type = d.type && a.bsize = d.bsize) (fltOf cTYPE roleA a 0),
    need (d.size 0 = a.size 0 && d.rows = b.count) (fltOf cSHAPE roleD d 0),
    need (!mask || (i.td roleX).count = b.count) (fltOf cSHAPE roleX (i.td roleX) 0)]

/-- The 32-byte units of a core store that a row touches, each through its own page (R124, R127). -/
def rowUnits (b : Bound) (a : TD) (r : Nat) : List Nat :=
  let lo := a.va (a.rowIx r 0)
  let n := (a.size 0 * a.wbits + 7) / 8
  if n = 0 then [] else (List.range ((lo % 32 + n + 31) / 32)).map fun k => b.pa ((lo / 32 + k) * 32) / 32

/-- The coalescing cache: the pieces fetched last, newest first; hits and fetched pieces (R124; log entry 22). -/
def coalesce : List Nat → List Nat → Nat → Nat × List Nat
  | [], seen, hits => (hits, seen.reverse)
  | p :: r, seen, hits =>
    if (seen.take 2048).contains p then coalesce r seen (hits + 1) else coalesce r (p :: seen) hits

/-- The beats that the banks add: groups of 64 pieces, four a bank a beat (R127; log entry 14). -/
def pieceConflict (units : List Nat) : Nat :=
  ((chunks 64 units).map fun g => (List.range 32).foldl (fun m k =>
    max m (ceilDiv ((g.filter fun u => bankOf (u / 2 % 1048576) == k).length) 4)) 1 - 1).sum

/-- The first index that is neither padding nor below limit (R123, R126). -/
def badIndex (idx : List Int) (mask : List Int) (limit : Nat) : Option Nat :=
  (List.range idx.length).find? fun p =>
    mask.getD p 1 != 0 && idx.getD p 0 != -1 && (idx.getD p 0 < 0 || (limit : Int) ≤ idx.getD p 0)

/-- A bgather's mask; empty where it has none. -/
def State.gatherMask (s : State) (b : Bound) (i : Insn) : List Int := if i.mod 2 2 = 1 then s.ints b (i.td roleX) else []

/-- Position p of a bgather is padding (R123). -/
def State.gatherPads (s : State) (b : Bound) (i : Insn) (p : Nat) : Bool :=
  (s.gatherMask b i).getD p 1 == 0 || (s.ints b (i.td roleB)).getD p 0 == -1

/-- The row of D at position p of a bgather: a row of A, or a padding row (R122, R123). -/
def State.gatherRow (s : State) (b : Bound) (i : Insn) (p : Nat) : List El :=
  if s.gatherPads b i p then zeroRow (i.td roleD) p
  else s.copyRow b (i.td roleA) (i.td roleD) ((s.ints b (i.td roleB)).getD p 0).toNat p

/-- The rows of D at the positions below a limit. -/
def State.gatherRows (s : State) (b : Bound) (i : Insn) (upTo : Nat) : List El :=
  ((List.range upTo).map (s.gatherRow b i)).flatten

/-- Beats that the banks add: they count in BERYL_CONFLICT, and in BERYL_BUSY with the others (R127, R156). -/
def State.addConflict (s : State) (n : Nat) (units : List Nat) : State :=
  (s.inc (Reg.CORE.BERYL_CONFLICT n) (pieceConflict units)).inc (Reg.CORE.BERYL_BUSY n) (pieceConflict units)

/-- Fetching pieces counts the hits of the coalescing cache and the beats of the banks (R124, R127). Writes, and bytes of scales,
are not among the pieces (log entry 14). -/
def State.fetchUnits (s : State) (n : Nat) (units : List Nat) : State :=
  let hit := coalesce units [] 0
  (s.inc (Reg.CORE.BERYL_COALESCE n) hit.1).addConflict n hit.2

/-- What a bgather that has read some indices and worked on the positions ps adds to Beryl's counters: indices, padding, and
what its fetches count (R123, R124, R127; log entry 83 for the indices of one that faults). -/
def State.gatherCount (s : State) (n : Nat) (b : Bound) (i : Insn) (read : Nat) (ps : List Nat) : State :=
  let idx := s.ints b (i.td roleB)
  let used := ps.filter fun p => !s.gatherPads b i p
  ((s.inc (Reg.CORE.BERYL_INDICES n) read).inc (Reg.CORE.BERYL_PAD n) (ps.length - used.length)).fetchUnits n
    (used.flatMap fun p => rowUnits b (i.td roleA) (idx.getD p 0).toNat)

/-- Neither the index nor the mask bit of a position is poisoned (R128). -/
def State.gatherClean (s : State) (b : Bound) (i : Insn) (p : Nat) : Bool :=
  let at_ := fun (d : TD) => (s.poisonedElems b d [unlin d.sizes p]).isNone
  at_ (i.td roleB) && (i.mod 2 2 != 1 || at_ (i.td roleX))

/-- The positions on which a bgather may have worked when it meets a poisoned index or mask: those that are not poisoned
themselves and stand before a bad index among these (R123, R128). -/
def State.gatherBefore (s : State) (b : Bound) (i : Insn) : List Nat :=
  let idx := s.ints b (i.td roleB)
  let bad := fun p => s.gatherClean b i p && !s.gatherPads b i p &&
    (idx.getD p 0 < 0 || (((i.td roleA).rows : Nat) : Int) ≤ idx.getD p 0)
  (List.range (((List.range idx.length).find? bad).getD idx.length)).filter (s.gatherClean b i)

/-- A bgather meets a poisoned index or mask: it has read the indices up to that one, and has worked on any of the positions that
it could (R128; log entries 19 and 83). -/
def State.gatherStop (s : State) (n : Nat) (i : Insn) (b : Bound) (f : Flt) : State :=
  let idx := s.ints b (i.td roleB)
  let ps := s.someOf (s.gatherBefore b i)
  let read := ((List.range idx.length).findIdx fun p => !s.gatherClean b i p) + 1
  (s.draw.gatherCount n b i (min idx.length read) ps).berylStop n i b
    ((ps.flatMap (s.gatherRow b i)).map fun e => (e, Cnt.none)) f

/-- The end of a bgather that meets a bad index at p: the rows below p are written, and it faults with INDEX; a mark among
them for a POISON_KILL page is met before (R123, R184). -/
def State.gatherIndex (s : State) (n : Nat) (i : Insn) (b : Bound) (rows : List El) (p : Nat) (v : Int) : State :=
  match killSectors b rows with
  | [] => ((s.writeEls b rows).checkOf n i b !rows.isEmpty).takeFault n i (fltOf cINDEX roleB (i.td roleB) (valueDetail v p))
  | x :: _ => s.berylKill n i b roleD (i.td roleD) rows x

/-- bgather's work (R122 to R128). -/
def State.bgatherWork (n : Nat) (i : Insn) (s : State) (b : Bound) : State :=
  let a := i.td roleA
  let idx := s.ints b (i.td roleB)
  let bad := badIndex idx (s.gatherMask b i) a.rows
  let upTo := bad.getD idx.length
  let rows := s.gatherRows b i upTo
  let s := s.berylBegin n i (32 + ceilDiv (idx.length * a.rowPieces) 64)
  match s.poisonFlt b ((roleB, i.td roleB) :: (if i.mod 2 2 = 1 then [(roleX, i.td roleX)] else [])) with
  | some f => s.gatherStop n i b f
  | none =>
    let s := s.gatherCount n b i (min idx.length (upTo + 1)) (List.range upTo)
    match bad with
    | some p => s.gatherIndex n i b rows p (idx.getD p 0)
    | none => s.berylEnd n i b roleD (i.td roleD) rows Cnt.none

/-- BGATHER. -/
def execBgather (c : CoreIx) (s : State) : Out :=
  whenLive s fun s => s.dispatch c.val 0x20 (fun s i => s.berylFree c.val i) fun s i =>
    s.berylRun c.val i (bgatherFlt i (s.jobOf c.val)) (State.bgatherWork c.val i)

/-! ### bscatter (R129 to R133) -/

/-- bscatter's checks. -/
def bscatterFlt (i : Insn) (job : Nat) : Option Flt :=
  let d := i.td roleD
  let a := i.td roleA
  let b := i.td roleB
  let add := i.mod 2 2 == 1
  let w := i.mod 4 4 == 1
  let types := if add then [1, 2, 3] else anyTypes
  firstFlt [i.rowOp roleD job types (!add), i.rowOp roleA job types (!add), i.plain roleB job [0x0C, 0x0D],
    if w then i.plain roleX job [1, 2, 3] else none,
    need (add || (a.type = d.type && a.bsize = d.bsize)) (fltOf cTYPE roleA a 0),
    need (d.size 0 = a.size 0) (fltOf cSHAPE roleD d 0), need (a.rows = b.count) (fltOf cSHAPE roleA a 0),
    need (b.count ≤ 65536) (fltOf cSHAPE roleB b 0),
    need (!w || (i.td roleX).count = b.count) (fltOf cSHAPE roleX (i.td roleX) 0)]

/-- The exact sum of an element's contributions, converted once (R130, R131). -/
def State.mergeElem (s : State) (b : Bound) (i : Insn) (pos : List Nat) (r e : Nat) : Nat × Cnt :=
  let d := i.td roleD
  let a := i.td roleA
  let x := i.td roleX
  let w := fun p => if i.mod 4 4 = 1 then s.value b x (unlin x.sizes p) else Num.ofInt 1
  let prior := if i.mod 3 3 = 1 then s.value b d (d.rowIx r e) else Num.zero false
  convert d.type .rne ((pos.map fun p => (s.value b a (a.rowIx p e)).mul (w p)).foldl Num.add ((Num.zero false).add prior))

/-- The distinct rows that indices name, ascending. -/
def namedRows (idx : List Int) (limit : Nat) : List Nat := (List.range limit).filter fun r => idx.contains (r : Int)

/-- A row of the merge has a poisoned contribution (R128). -/
def State.mergePoison (s : State) (b : Bound) (i : Insn) (pos : List Nat) (r : Nat) : Option Flt :=
  let d := i.td roleD
  let a := i.td roleA
  let prior := if i.mod 3 3 = 1 then (List.range (d.size 0)).map (d.rowIx r) else []
  match s.poisonedElems b a ((pos.map fun p => (List.range (a.size 0)).map (a.rowIx p)).flatten) with
  | some e => some (poisonFltOf roleA a e)
  | none => (s.poisonedElems b d prior).map (poisonFltOf roleD d)

/-- The positions whose index names row r, ascending. -/
def positionsOf (idx : List Int) (r : Nat) : List Nat := (List.range idx.length).filter fun p => idx.getD p 0 == (r : Int)

/-- The indices that name no row: padding; and those that name a row again (R129, R133). -/
def padCount (idx : List Int) : Nat := (idx.filter fun v => v == -1).length
def dupCount (idx : List Int) (limit : Nat) : Nat := idx.length - padCount idx - (namedRows idx limit).length

/-- The elements of the rows of D that a bscatter ADD merges: where, with their codes and counts (R130, R131). -/
def State.mergeRows (s : State) (b : Bound) (i : Insn) (idx : List Int) (rows : List Nat) : List (Nat × Nat × Cnt) :=
  let d := i.td roleD
  (rows.map fun r => (List.range (d.size 0)).map fun e =>
    (d.bitAddr (d.rowIx r e), s.mergeElem b i (positionsOf idx r) r e)).flatten

/-- The rows of D that a bscatter without ADD writes: of each the last contribution (R129). -/
def State.scatterRows (s : State) (b : Bound) (i : Insn) (idx : List Int) : List El :=
  ((namedRows idx (i.td roleD).rows).map fun r =>
    s.copyRow b (i.td roleA) (i.td roleD) ((positionsOf idx r).getLastD 0) r).flatten

/-- What a bscatter adds to Beryl's counters when it begins (R133). -/
def State.scatterBegin (s : State) (n : Nat) (b : Bound) (i : Insn) : State :=
  let a := i.td roleA
  let idx := s.ints b (i.td roleB)
  let rows := namedRows idx (i.td roleD).rows
  let data := if i.mod 2 2 = 1 then ceilDiv ((idx.length + i.mod 3 3 * rows.length) * a.size 0) 256
    else ceilDiv (idx.length * a.rowPieces) 64
  (s.berylBegin n i (32 + sortBeats idx.length + data)).inc (Reg.CORE.BERYL_INDICES n) idx.length

/-- The pieces that a bscatter reads: the rows of A in the order of the indices that name a row, and with ACC_D the named rows
of D (R130, R133). -/
def scatterUnits (b : Bound) (i : Insn) (idx : List Int) : List Nat :=
  (((List.range idx.length).filter fun p => idx.getD p 0 != -1).map fun p => rowUnits b (i.td roleA) p).flatten ++
    (if i.mod 3 3 = 1 then ((namedRows idx (i.td roleD).rows).map fun r => rowUnits b (i.td roleD) r).flatten else [])

/-- What a bscatter adds to Beryl's counters when its indices have passed (R124, R127, R129, R133). -/
def State.scatterCount (s : State) (n : Nat) (b : Bound) (i : Insn) (idx : List Int) : State :=
  ((s.inc (Reg.CORE.BERYL_PAD n) (padCount idx)).inc (Reg.CORE.BERYL_DUP n) (dupCount idx (i.td roleD).rows)).fetchUnits n
    (scatterUnits b i idx)

/-- The unmarked elements of a merge, with their counts. -/
def mergeEls (w : Nat) (out : List (Nat × Nat × Cnt)) : List (El × Cnt) := out.map fun e => (⟨e.1, w, e.2.1, false⟩, e.2.2)

/-- bscatter's work (R129 to R133). -/
def State.bscatterWork (n : Nat) (i : Insn) (s : State) (b : Bound) : State :=
  let d := i.td roleD
  let add := i.mod 2 2 == 1
  let idx := s.ints b (i.td roleB)
  let rows := namedRows idx d.rows
  let s := s.scatterBegin n b i
  match s.poisonFlt b ((roleB, i.td roleB) :: (if i.mod 4 4 = 1 then [(roleX, i.td roleX)] else [])) with
  | some f => s.takeFault n i f
  | none =>
    match badIndex idx [] d.rows with
    | some p => s.takeFault n i (fltOf cINDEX roleB (i.td roleB) (valueDetail (idx.getD p 0) p))
    | none =>
      if !add && dupCount idx d.rows != 0 && !d.ordered then s.takeFault n i (fltOf cALIAS roleD d 0)
      else
        let s := s.scatterCount n b i idx
        if add then
          let bad := rows.filterMap fun r => s.mergePoison b i (positionsOf idx r) r
          let good := rows.filter fun r => (s.mergePoison b i (positionsOf idx r) r).isNone
          let out := s.mergeRows b i idx good
          match bad with
          | f :: _ => s.berylStop n i b (mergeEls d.wbits out) f
          | [] => s.berylEnd n i b roleD d ((mergeEls d.wbits out).map Prod.fst) (out.foldl (fun c e => c.add e.2.2) Cnt.none)
        else s.berylEnd n i b roleD d (s.scatterRows b i idx) Cnt.none

/-- BSCATTER. -/
def execBscatter (c : CoreIx) (s : State) : Out :=
  whenLive s fun s => s.dispatch c.val 0x21 (fun s i => s.berylFree c.val i) fun s i =>
    s.berylRun c.val i (bscatterFlt i (s.jobOf c.val)) (State.bscatterWork c.val i)

/-! ### bsort (R134) -/

/-- bsort's checks. The rule does not say which rank B has; the destinations have rank 1, and a B of another rank is taken to
be one of the other ranks that fault with SHAPE (R134; log entry 95). -/
def bsortFlt (i : Insn) (job : Nat) : Option Flt :=
  let d := i.td roleD
  let b := i.td roleB
  let x := i.td roleX
  let pos := i.mod 3 3 == 1
  firstFlt [i.plain roleD job [b.type], i.plain roleB job [0x0C, 0x0D],
    if pos then i.plain roleX job [0x0D] else none,
    need (b.rank = 1 && b.count ≤ 65536) (fltOf cSHAPE roleB b 0),
    need (d.rank = 1 && d.count = b.count) (fltOf cSHAPE roleD d 0),
    need (!pos || (x.rank = 1 && x.count = b.count)) (fltOf cSHAPE roleX x 0)]

/-- Insert a key behind those that stand before it. -/
def insKey (desc : Bool) (x : Int × Nat) : List (Int × Nat) → List (Int × Nat)
  | [] => [x]
  | y :: r => if (if desc then x.1 ≤ y.1 else y.1 ≤ x.1) then y :: insKey desc x r else x :: y :: r

/-- The stable sort: keys with their positions (R134). -/
def sortKeys (desc : Bool) (l : List Int) : List (Int × Nat) :=
  l.zipIdx.foldl (fun acc x => insKey desc x acc) []

/-- bsort's work. -/
def State.bsortWork (n : Nat) (i : Insn) (s : State) (b : Bound) : State :=
  let d := i.td roleD
  let x := i.td roleX
  let keys := s.ints b (i.td roleB)
  let out := sortKeys (i.mod 2 2 == 1) keys
  let s := (s.berylBegin n i (32 + sortBeats keys.length)).inc (Reg.CORE.BERYL_INDICES n) keys.length
  match s.poisonFlt b [(roleB, i.td roleB)] with
  | some f => s.takeFault n i f
  | none =>
    let els := out.zipIdx.map fun e => d.el [e.2] (unsigned d.wbits e.1.1)
    let pos := if i.mod 3 3 = 1 then out.zipIdx.map fun e => x.el [e.2] e.1.2 else []
    s.berylEnd n i b roleD d (els ++ pos) Cnt.none

/-- BSORT. -/
def execBsort (c : CoreIx) (s : State) : Out :=
  whenLive s fun s => s.dispatch c.val 0x22 (fun s i => s.berylFree c.val i) fun s i =>
    s.berylRun c.val i (bsortFlt i (s.jobOf c.val)) (State.bsortWork c.val i)

/-! ### bgroup (R135 to R139) -/

/-- bgroup's checks. An X of a type that R57 does not list is a TYPE fault; any other X that is no group table is SHAPE
(R57, R137). -/
def bgroupFlt (i : Insn) (job : Nat) : Option Flt :=
  let d := i.td roleD
  let b := i.td roleB
  let x := i.td roleX
  firstFlt [i.plain roleD job [0x0C, 0x0D], i.plain roleB job [0x0C, 0x0F],
    i.plain roleX job anyTypes, need (x.type = 0x0D && x.rank = 1 && x.size 0 = 34) (fltOf cSHAPE roleX x 0),
    need (b.rank = (if b.type = 0x0F then 2 else 1)) (fltOf cSHAPE roleB b 0),
    need ((if b.type = 0x0F then b.rows else b.count) ≤ d.count) (fltOf cSHAPE roleD d 0)]

/-- The group of a count (R135). -/
def groupOf (c : Nat) : Nat := if c = 0 then 0 else min 15 (Nat.log2 c + 1)

/-- A dropped row is in the audit tail (R138). -/
def sampled (seed k r : Nat) : Bool := decide ((r % 2 ^ 32 * 0x9E3779B1 + seed) % 2 ^ 32 / 2 ^ 26 < k)

/-- The start and the rows of each group in the order of emission (R136, R137). -/
def placeGroups (drop : Bool) (rows : Nat → List Nat) : List Nat → List Nat → List (Nat × Nat × Nat) →
    List Nat × List (Nat × Nat × Nat)
  | [], out, t => (out, t)
  | g :: r, out, t =>
    let mine := if drop ∧ g = 0 then [] else rows g
    placeGroups drop rows r (out ++ mine) (t ++ [(g, out.length, mine.length)])

/-- The counts that a bgroup groups by: those of B, or how many bits each row of a bit vector has set (R135). -/
def State.groupCounts (s : State) (b : Bound) (i : Insn) : List Int :=
  let src := i.td roleB
  let raw := s.ints b src
  if src.type = 0x0F then (List.range src.rows).map fun r => ((raw.drop (r * src.size 0)).take (src.size 0)).sum else raw

/-- The rows of a group, ascending (R136). -/
def groupRows (counts : List Int) (g : Nat) : List Nat :=
  (List.range counts.length).filter fun r => groupOf (counts.getD r 0).toNat == g

/-- The rows that a bgroup emits, with the start and the rows of each group (R136, R137). -/
def Insn.placed (i : Insn) (counts : List Int) : List Nat × List (Nat × Nat × Nat) :=
  placeGroups (i.mod 2 2 == 1) (groupRows counts) (if i.mod 3 3 = 1 then (List.range 16).reverse else List.range 16) [] []

/-- The audit tail: the sampled dropped rows (R138). -/
def State.auditTail (s : State) (n : Nat) (i : Insn) (counts : List Int) : List Nat :=
  let k := if i.mod 6 5 = 1 then 1 else if i.mod 6 5 = 2 then 4 else if i.mod 6 5 = 3 then 16 else 0
  if i.mod 2 2 = 1 then (groupRows counts 0).filter (sampled (s.get (Reg.CORE.AUDIT_SEED n)) k) else []

/-- The table of a bgroup: the starts and the rows of the 16 groups, the rows emitted, the audit tail (R136, R138). -/
def groupTable (placed : List Nat × List (Nat × Nat × Nat)) (tail : List Nat) : List Nat :=
  let get := fun (f : Nat × Nat × Nat → Nat) g => match placed.2.find? (fun e => e.1 = g) with
    | some e => f e
    | none => 0
  (List.range 16).map (get fun e => e.2.1) ++ (List.range 16).map (get fun e => e.2.2) ++ [placed.1.length, tail.length]

/-- What a bgroup writes: row numbers and, where there are no more, the greatest code; then the table (R136). -/
def Insn.groupEls (i : Insn) (placed : List Nat × List (Nat × Nat × Nat)) (tail : List Nat) : List El :=
  let d := i.td roleD
  ((List.range d.count).map fun p => d.el (unlin d.sizes p) ((placed.1 ++ tail).getD p (2 ^ 64 - 1))) ++
    (groupTable placed tail).zipIdx.map fun e => (i.td roleX).el [e.2] e.1

/-- The bytes of a mask: each row starts on a byte (R58, R139). -/
def TD.maskBytes (d : TD) : Nat := d.rows * ceilDiv (d.size 0) 8

/-- bgroup's work (R135 to R138). -/
def State.bgroupWork (n : Nat) (i : Insn) (s : State) (b : Bound) : State :=
  let d := i.td roleD
  let src := i.td roleB
  let counts := s.groupCounts b i
  let m := counts.length
  let kc := if src.type = 0x0F then max (ceilDiv m 64) (ceilDiv src.maskBytes 2048) else ceilDiv m 64
  let s := (s.berylBegin n i (32 + 2 * kc)).inc (Reg.CORE.BERYL_INDICES n) m
  match s.poisonFlt b [(roleB, src)] with
  | some f => s.takeFault n i f
  | none =>
    match (List.range m).find? fun p => counts.getD p 0 < 0 with
    | some p => s.takeFault n i (fltOf cMETADATA roleB src (valueDetail (counts.getD p 0) p + 8 * 2 ^ 104))
    | none =>
      let placed := i.placed counts
      let tail := s.auditTail n i counts
      match (if d.type = 0x0C then (placed.1 ++ tail).zipIdx.find? fun e => decide (2 ^ 31 ≤ e.1) else none) with
      | some e => s.takeFault n i (fltOf cINDEX roleD d (valueDetail e.1 e.2))
      | none =>
        let s := s.inc (Reg.CORE.BERYL_DROPPED n) (if i.mod 2 2 = 1 then (groupRows counts 0).length - tail.length else 0)
        let s := s.inc (Reg.CORE.AUDIT_SAMPLED n) tail.length
        s.berylEnd n i b roleD d (i.groupEls placed tail) Cnt.none

/-- BGROUP. -/
def execBgroup (c : CoreIx) (s : State) : Out :=
  whenLive s fun s => s.dispatch c.val 0x23 (fun s i => s.berylFree c.val i) fun s i =>
    s.berylRun c.val i (bgroupFlt i (s.jobOf c.val)) (State.bgroupWork c.val i)

/-! ### bragged (R140) -/

/-- bragged's checks. -/
def braggedFlt (i : Insn) (job : Nat) : Option Flt :=
  let d := i.td roleD
  let a := i.td roleA
  let b := i.td roleB
  let perm := i.mod 3 3 == 1
  firstFlt [i.plain roleD job [0x0C, 0x0D], if perm then i.plain roleA job [0x0C, 0x0D] else none,
    i.plain roleB job [0x0C, 0x0D], need (d.rank = 2) (fltOf cSHAPE roleD d 0),
    need (!perm || a.count = d.size 1) (fltOf cSHAPE roleA a 0),
    need (b.rank = 1 && 1 ≤ b.count) (fltOf cSHAPE roleB b 0),
    need (perm || d.size 1 = b.count - 1) (fltOf cSHAPE roleD d 0)]

/-- The first offset that is negative or decreases (R140, check 1). -/
def badOffset (off : List Int) : Option (Nat × Bool) :=
  ((List.range off.length).find? fun q => off.getD q 0 < 0 || (q != 0 && off.getD q 0 < off.getD (q - 1) 0)).map
    fun q => (q, decide (off.getD q 0 < 0))

/-- The length of a sequence, and its first entry. -/
def seqLen (off : List Int) (q : Int) : Nat :=
  if q < 0 then 0 else (off.getD (q.toNat + 1) 0 - off.getD q.toNat 0).toNat
def seqBase (off : List Int) (q : Int) : Nat := if q < 0 then 0 else (off.getD q.toNat 0).toNat

/-- The first failure of the columns: SHAPE or INDEX (R140, check 3). -/
def badColumn (d : TD) (off perm : List Int) (trunc : Bool) : Option Flt :=
  let L := d.size 0
  firstFlt (perm.zipIdx.map fun e =>
    let len := seqLen off e.1
    let base := seqBase off e.1
    let last := base + min len L
    if !trunc ∧ L < len then some (fltOf cSHAPE roleD d 0)
    else if d.type = 0x0C ∧ min len L ≠ 0 ∧ 2 ^ 31 < last then
      let j := 2 ^ 31 - base
      some (fltOf cINDEX roleD d (valueDetail (base + j : Nat) (j + L * e.2)))
    else none)

/-- The columns of D: the positions of each sequence, and below them the greatest code (R140). -/
def raggedEls (d : TD) (off perm : List Int) : List El :=
  (perm.zipIdx.map fun e => (List.range (d.size 0)).map fun j =>
    d.el [j, e.2] (if j < seqLen off e.1 then seqBase off e.1 + j else 2 ^ 64 - 1)).flatten

/-- The sequences that a bragged takes, in order: those of A, or all of them (R140). -/
def State.raggedPerm (s : State) (b : Bound) (i : Insn) : List Int :=
  if i.mod 3 3 = 1 then s.ints b (i.td roleA) else (List.range ((i.td roleD).size 1)).map Int.ofNat

/-- bragged's work. -/
def State.braggedWork (n : Nat) (i : Insn) (s : State) (b : Bound) : State :=
  let d := i.td roleD
  let L := d.size 0
  let off := s.ints b (i.td roleB)
  let usePerm := i.mod 3 3 = 1
  let perm := s.raggedPerm b i
  let per := if d.type = 0x0C then 512 else 256
  let s := (s.berylBegin n i (32 + 2 * ceilDiv off.length 64 + ceilDiv (L * d.size 1) per)).inc
    (Reg.CORE.BERYL_INDICES n) (off.length + if usePerm then perm.length else 0)
  match s.poisonFlt b ((if usePerm then [(roleA, i.td roleA)] else []) ++ [(roleB, i.td roleB)]) with
  | some f => s.takeFault n i f
  | none =>
    match badOffset off with
    | some (q, true) => s.takeFault n i (fltOf cINDEX roleB (i.td roleB) (valueDetail (off.getD q 0) q))
    | some (q, false) =>
      s.takeFault n i (fltOf cMETADATA roleB (i.td roleB) (valueDetail (off.getD q 0) q + 9 * 2 ^ 104))
    | none =>
      match badIndex perm [] (off.length - 1) with
      | some p => s.takeFault n i (fltOf cINDEX roleA (i.td roleA) (valueDetail (perm.getD p 0) p))
      | none =>
        match badColumn d off perm (i.mod 2 2 == 1) with
        | some f => s.takeFault n i f
        | none =>
          (s.inc (Reg.CORE.BERYL_TRUNC n) ((perm.map fun q => seqLen off q - L).sum)).berylEnd n i b roleD d
            (raggedEls d off perm) Cnt.none

/-- BRAGGED. -/
def execBragged (c : CoreIx) (s : State) : Out :=
  whenLive s fun s => s.dispatch c.val 0x24 (fun s i => s.berylFree c.val i) fun s i =>
    s.berylRun c.val i (braggedFlt i (s.jobOf c.val)) (State.braggedWork c.val i)

/-! ### Compressed tiles (R141 to R146) -/

/-- The types of a compressed descriptor (R141). -/
def tileTypes : List Nat := [1, 2, 3, 4, 5, 9, 0x0A]

/-- A tile's place: batch element, tile row, tile column; rows and columns present. -/
structure TilePos where
  be : Nat
  tr : Nat
  tc : Nat
  rows : Nat
  cols : Nat
deriving DecidableEq, Repr

/-- The tiles of a matrix in ascending slot order (R141). -/
def tilesOf (d : TD) : List TilePos :=
  let tc := ceilDiv (d.size 0) 32
  let tr := ceilDiv (d.size 1) 32
  if d.isEmpty then [] else
    (List.range d.tiles).map fun t =>
      let c := t % tc
      let r := t / tc % tr
      ⟨t / tc / tr, r, c, min 32 (d.size 1 - 32 * r), min 32 (d.size 0 - 32 * c)⟩

/-- The bytes of a tile's elements that are stored from position o, one of b bytes each. -/
def stored (data : Bytes) (b o k : Nat) : Nat := natOf (slice (o + k * b) b data)

/-- How many bits are set. -/
def popcount (w n : Nat) : Nat := ((List.range w).filter fun k => bitOf n k).length

/-- A bitmap tile's row masks. -/
def bitmapMask (data : Bytes) (r : Nat) : Nat := natOf (slice (16 + 4 * r) 4 data)

/-- The position fields of a pairs tile: row r, group g. -/
def pairField (data : Bytes) (r g : Nat) : Nat := natOf (slice (16 + 4 * r) 4 data) / 16 ^ g % 16

/-- The row counts of a list tile. -/
def listCount (data : Bytes) (r : Nat) : Nat := natOf (slice (16 + r) 1 data)

/-- The values stored before row r. -/
def storedBefore (count : Nat → Nat) (r : Nat) : Nat := ((List.range r).map count).sum

/-- The column numbers of a row of a list tile. -/
def listCols (data : Bytes) (r : Nat) : List Nat :=
  (List.range (listCount data r)).map fun k => natOf (slice (48 + storedBefore (listCount data) r + k) 1 data)

/-- Strictly ascending numbers below a limit. -/
def ascending (limit : Nat) (l : List Nat) : Bool := setWf l && l.all fun c => decide (c < limit)

/-- Element (r, c) of a tile (R143). -/
def tileElem (data : Bytes) (fmt b nnz r c : Nat) : Nat :=
  if fmt = 0 then stored data b 16 (32 * r + c)
  else if fmt = 1 then
    let before := storedBefore (fun k => popcount 32 (bitmapMask data k)) r + popcount c (bitmapMask data r)
    if bitOf (bitmapMask data r) c then stored data b 144 before else 0
  else if fmt = 2 then
    let f := pairField data r (c / 4)
    let at_ := 2 * (8 * r + c / 4)
    if c % 4 = f % 4 then stored data b 144 at_ else if c % 4 = f / 4 then stored data b 144 (at_ + 1) else 0
  else match (listCols data r).zipIdx.find? (fun e => e.1 = c) with
    | some e => stored data b (48 + nnz) (storedBefore (listCount data) r + e.2)
    | none => 0

/-- The bytes a tile of a format takes (R143). -/
def tileLength (fmt b nnz : Nat) : Nat :=
  if fmt = 0 then 16 + 1024 * b else if fmt = 1 then 144 + nnz * b else if fmt = 2 then 144 + 512 * b
  else 48 + nnz * (b + 1)

/-- The first condition of R144 that a tile breaks, 1 to 7; 0 when it breaks none. Whether a stored minus zero is non-zero is
not stated: here a value is non-zero when its code is (log entry 95). -/
def tileCheck (data : Bytes) (type : Nat) (p : TilePos) : Nat :=
  let h := natOf (slice 0 16 data)
  let b := typeBits type / 8
  let fmt := bitsOf h 3 0
  let nnz := bitsOf h 79 64
  let len := bitsOf h 95 80
  let rs := List.range 32
  if 4 ≤ fmt ∨ bitsOf h 63 48 ≠ 0 ∨ bitsOf h 29 8 ≠ 0 ∨ bitsOf h 6 4 ≠ 0 ∨ (bitOf h 7 ∧ fmt ≠ 0) then 1
  else if bitsOf h 47 40 ≠ type ∨ bitsOf h 34 30 + 1 ≠ p.rows ∨ bitsOf h 39 35 + 1 ≠ p.cols then 2
  else if len ≠ tileLength fmt b nnz ∨ 16 + 1024 * b < len ∨ (fmt = 0 ∧ nnz ≠ 1024) then 3
  else if crc32c (slice 16 (len - 16) data) ≠ bitsOf h 127 96 then 4
  else if fmt = 1 ∧ ((rs.map fun r => popcount 32 (bitmapMask data r)).sum ≠ nnz ∨
      rs.any fun r => if r < p.rows then bitmapMask data r / 2 ^ p.cols != 0 else bitmapMask data r != 0) then 5
  else if fmt = 2 ∧ (nnz ≠ 512 ∨ (rs.any fun r => (List.range 8).any fun g =>
      decide (pairField data r g / 4 ≤ pairField data r g % 4)) ∨
      rs.any fun r => (List.range 32).any fun c =>
        (decide (p.rows ≤ r) || decide (p.cols ≤ c)) && tileElem data 2 b nnz r c != 0) then 6
  else if fmt = 3 ∧ (storedBefore (listCount data) 32 ≠ nnz ∨ rs.any fun r =>
      decide (p.cols < listCount data r) || (decide (p.rows ≤ r) && listCount data r != 0) ||
        !ascending p.cols (listCols data r)) then 7
  else 0

/-- bunpack's checks (R141, R146). -/
def bunpackFlt (i : Insn) (job : Nat) : Option Flt :=
  let d := i.td roleD
  let a := i.td roleA
  firstFlt [need a.compressed (fltOf cLAYOUT roleA a 0), a.check roleA job tileTypes false true false,
    d.check roleD job tileTypes false false false, need (d.type = a.type) (fltOf cTYPE roleD d 0),
    need ((List.range 6).all fun k => d.size k == a.size k) (fltOf cSHAPE roleD d 0)]

/-- The linear indices of D that a tile gives, with their codes. -/
def tileCodes (d : TD) (p : TilePos) (data : Bytes) : List (Nat × Nat) :=
  let h := natOf (slice 0 16 data)
  ((List.range p.rows).map fun r => (List.range p.cols).map fun c =>
    (lin d.sizes ([32 * p.tc + c, 32 * p.tr + r] ++ unlin (d.sizes.drop 2) p.be),
      tileElem data (bitsOf h 3 0) (d.wbits / 8) (bitsOf h 79 64) r c)).flatten

/-- The elements of D that tiles give; where elements of D may overlap, in ascending order, so that the highest one stays
(R170). -/
def tileEls (d : TD) (l : List (Nat × Nat)) : List El :=
  (if d.ordered then (List.range d.count).filterMap fun k => l.find? fun e => e.1 = k else l).map fun e =>
    d.el (unlin d.sizes e.1) e.2

/-- The detail of a METADATA fault of a tile (R551). -/
def tileDetail (p : TilePos) (k : Nat) : Nat :=
  p.tc % 2 ^ 27 + p.tr % 2 ^ 27 * 2 ^ 27 + p.be % 2 ^ 32 * 2 ^ 54 + k * 2 ^ 104

/-- The address of tile k of a bunpack's source, and the bytes of its slot (R141). -/
def Insn.tileVa (i : Insn) (k : Nat) : Nat := (i.td roleA).base + k * tileSlot (i.td roleA).type
def State.tileData (s : State) (b : Bound) (i : Insn) (k : Nat) : Bytes :=
  (List.range (tileSlot (i.td roleA).type)).map fun j => s.byte (b.pa (i.tileVa k + j))

/-- The first poisoned byte of tile k (R146). -/
def State.tilePoison (s : State) (b : Bound) (i : Insn) (k : Nat) : Option Nat :=
  let len := max 16 (min (tileSlot (i.td roleA).type) (natOf (slice 10 2 (s.tileData b i k))))
  (List.range len).find? fun j => s.poisoned (b.pa (i.tileVa k + j))

/-- What a tile faults with: poison in it, or a condition of R144 that it breaks (R144, R146). -/
def State.tileFlt (s : State) (b : Bound) (i : Insn) (e : TilePos × Nat) : Option Flt :=
  let a := i.td roleA
  match s.tilePoison b i e.2 with
  | some j => some (fltOf cPOISON roleA a (i.tileVa e.2 + j))
  | none =>
    let c := tileCheck (s.tileData b i e.2) a.type e.1
    if c = 0 then none else some (fltOf cMETADATA roleA a (tileDetail e.1 c))

/-- What tiles that a bunpack reads add to Beryl's counters: each counts, and each that says DENSE_FALLBACK, if the byte that says
so can be read (R145, R146). -/
def State.tileCount (s : State) (n : Nat) (b : Bound) (i : Insn) (l : List (TilePos × Nat)) : State :=
  let dense := fun (e : TilePos × Nat) =>
    !s.poisoned (b.pa (i.tileVa e.2)) && bitOf (natOf (slice 0 1 (s.tileData b i e.2))) 7
  (s.inc (Reg.CORE.BERYL_TILES n) l.length).inc (Reg.CORE.BERYL_FALLBACK n) (l.filter dense).length

/-- The elements of D that the tiles of a list give (R146). -/
def State.unpacked (s : State) (b : Bound) (i : Insn) (l : List (TilePos × Nat)) : List El :=
  tileEls (i.td roleD) ((l.map fun e => tileCodes (i.td roleD) e.1 (s.tileData b i e.2)).flatten)

/-- bunpack's work: the tiles before the first bad one are expanded (R144 to R146). -/
def State.bunpackWork (n : Nat) (i : Insn) (s : State) (b : Bound) : State :=
  let tiles := (tilesOf (i.td roleA)).zipIdx
  let s := s.berylBegin n i (32 + 2 * tiles.length)
  match tiles.findIdx? fun e => (s.tileFlt b i e).isSome with
  | some k =>
    let good := s.unpacked b i (tiles.take k)
    let f := ((tiles[k]?).bind (s.tileFlt b i)).getD (flt cMETADATA)
    (((s.tileCount n b i (tiles.take (k + 1))).writeEls b good).checkOf n i b !good.isEmpty).takeFault n i f
  | none => (s.tileCount n b i tiles).berylEnd n i b roleD (i.td roleD) (s.unpacked b i tiles) Cnt.none

/-- BUNPACK. -/
def execBunpack (c : CoreIx) (s : State) : Out :=
  whenLive s fun s => s.dispatch c.val 0x25 (fun s i => s.berylFree c.val i) fun s i =>
    s.berylRun c.val i (bunpackFlt i (s.jobOf c.val)) (State.bunpackWork c.val i)

/-! ### baudit (R147 to R149) -/

/-- baudit's checks. -/
def bauditFlt (i : Insn) (job : Nat) : Option Flt :=
  let b := i.td roleB
  let x := i.td roleX
  firstFlt [i.plain roleD job [0x0C, 0x0D], i.rowOp roleA job [1, 2, 3] false, i.plain roleB job [0x0D],
    i.plain roleX job [1], need (b.rank = 1 && b.size 0 = 34) (fltOf cSHAPE roleB b 0),
    need (x.rank = 1 && x.size 0 = 1) (fltOf cSHAPE roleX x 0)]

/-- An element counts as active (R147). -/
def active (abs : Bool) (theta y : Num) : Bool :=
  y == .nan || theta.lt y || (abs && theta.lt y.neg)

/-- The alarm of an audit (R149). -/
def State.auditAlarm (s : State) (n : Nat) (i : Insn) (bad tail : Nat) : State :=
  let limit := s.get (Reg.CORE.ALARM_LIMIT n)
  let s := s.puts [(Reg.CORE.AUDIT_LAST_TAG n, i.tag), (Reg.CORE.AUDIT_LAST_MISPRED n, min bad (2 ^ 32 - 1))]
  if limit ≠ 0 ∧ limit < bad then
    let synd := bad % 2 ^ 32 + tail % 2 ^ 32 * 2 ^ 32 + limit * 2 ^ 64
    (s.put (Reg.CORE.ALARM n) 1).addRec ⟨n, 3, 0, s.jobOf n, 0x33, i.tag, false, none, synd⟩
  else s

/-- Row r of A has an active element (R147). -/
def State.hotRow (s : State) (b : Bound) (i : Insn) (r : Nat) : Bool :=
  let a := i.td roleA
  (List.range (a.size 0)).any fun e => active (i.mod 3 3 == 1) (s.value b (i.td roleX) [0]) (s.value b a (a.rowIx r e))

/-- The entries of D that become -1: those of all rows, or with MAKEUP of the rows that are not mispredicted (R148). -/
def State.auditEls (s : State) (b : Bound) (i : Insn) (rows : List Nat) : List El :=
  (rows.filter fun r => !(i.mod 2 2 == 1 && s.hotRow b i r)).map fun r =>
    (i.td roleD).el (unlin (i.td roleD).sizes r) (2 ^ 64 - 1)

/-- The index lists of the elements of rows of A. -/
def Insn.rowIxs (i : Insn) (r : Nat) : List (List Nat) := (List.range ((i.td roleA).size 0)).map ((i.td roleA).rowIx r)

/-- What an audit counts: the mispredictions, and those that are lost (R148). -/
def State.auditCount (s : State) (n : Nat) (i : Insn) (bad : Nat) : State :=
  let s := s.inc (Reg.CORE.AUDIT_MISPRED n) bad
  if i.mod 2 2 = 1 then s else s.inc (Reg.CORE.AUDIT_LOST n) bad

/-- The tail rows that a group table tells an audit: where they begin and how many they are; none where the table is poisoned, so
that the audit has no number to work with (R147; log entry 83). -/
def State.auditRows (s : State) (b : Bound) (i : Insn) : Nat × Nat :=
  if (s.poisonFlt b [(roleB, i.td roleB)]).isSome then (0, 0) else (s.elem b (i.td roleB) [32], s.elem b (i.td roleB) [33])

/-- baudit's work (R147 to R149). The permutation that it rewrites is an operand that it reads (R128, R180). The poison of its
operands is tested before the size of the tail (log entry 23). An audit that a poisoned row stops has worked on any of the rows
that are not poisoned, and counts those (log entry 19). -/
def State.bauditWork (n : Nat) (i : Insn) (s : State) (b : Bound) : State :=
  let d := i.td roleD
  let a := i.td roleA
  let first := (s.auditRows b i).1
  let tail := (s.auditRows b i).2
  let s := s.berylBegin n i (32 + ceilDiv (tail * a.size 0) 256)
  match s.poisonFlt b [(roleB, i.td roleB), (roleX, i.td roleX), (roleD, d)] with
  | some f => s.takeFault n i f
  | none =>
    if a.rows < first + tail then s.takeFault n i (fltOf cSHAPE roleA a 0)
    else if d.count < first + tail then s.takeFault n i (fltOf cSHAPE roleD d 0)
    else
      let rows := (List.range tail).map (first + ·)
      let seen := s.someOf (rows.filter fun r => (s.poisonedElems b a (i.rowIxs r)).isNone)
      match s.poisonedElems b a ((rows.map i.rowIxs).flatten) with
      | some e =>
        (s.draw.auditCount n i (seen.filter (s.hotRow b i)).length).berylStop n i b
          ((s.auditEls b i seen).map fun e => (e, Cnt.none)) (poisonFltOf roleA a e)
      | none =>
        let bad := (rows.filter (s.hotRow b i)).length
        ((s.auditCount n i bad).auditAlarm n i bad tail).berylEnd n i b roleD d (s.auditEls b i rows) Cnt.none

/-- BAUDIT. -/
def execBaudit (c : CoreIx) (s : State) : Out :=
  whenLive s fun s => s.dispatch c.val 0x26 (fun s i => s.berylFree c.val i) fun s i =>
    s.berylRun c.val i (bauditFlt i (s.jobOf c.val)) (State.bauditWork c.val i)

end Sys2Proof.Machine
end

