-- ==== Sys2Proof/Machine/Mover.lean ====
section
/-!
DEFINITION. Machine/Mover.lean: the movers (chapter 9): mcopy, its bursts, compression on store, completion,
and the mover registers with effects of their own. A burst issues its reads when BURST_ISSUE cuts it, and is
written when the last of its reads has come back and every burst before it is written; a burst of tiles asks for one tile after
another (R268). A transfer has data to write only in the command that brings the last of it, which writes it: no channel waits for
its write port (R272).
-/

namespace Sys2Proof.Machine

/-! ### Contexts and runs (R265, R266, R271) -/

/-- A field of a context word. -/
def State.ctxF (s : State) (m ch k hi lo : Nat) : Nat := bitsOf (s.ctx m ch k) hi lo

/-- Count in a field of a context word; it stays at its maximum (R11). -/
def State.ctxInc (s : State) (m ch k hi lo n : Nat) : State :=
  let w := s.ctx m ch k
  let v := bitsOf w hi lo
  s.setCtx m ch k (w - v * 2 ^ lo + min (v + n) (2 ^ (hi + 1 - lo) - 1) * 2 ^ lo)

/-- Put TAG and STATE of a context (R265). -/
def State.putChan (s : State) (m ch tag st : Nat) : State := s.setCtx m ch 1 (tag % 2 ^ 32 * 2 ^ 32 + st)

/-- The transfer that a channel carries. -/
def State.run? (s : State) (m ch : Nat) : Option Run := s.runs.find? fun r => r.m == m && r.ch == ch

/-- Change the transfer that a channel carries. -/
def State.mapRun (s : State) (m ch : Nat) (f : Run → Run) : State :=
  { s with runs := mapIf (fun r => r.m == m && r.ch == ch) f s.runs }

def Run.d (r : Run) : TD := r.insn.td roleD
def Run.a (r : Run) : TD := r.insn.td roleA
def Run.prio (r : Run) : Nat := r.insn.mod 16 15
def Run.swap (r : Run) : Nat := r.insn.mod 13 12
def Run.src (r : Run) : Nat := 0x500 + r.m


/-- The other device that a transfer writes to (R173, R219). -/
def Run.remote (r : Run) (s : State) : Option Nat :=
  if r.insn.mod 17 17 = 1 ∧ r.insn.mod 23 18 ≠ s.dev then some (r.insn.mod 23 18) else none

/-- The burst size in destination sectors (R265). -/
def State.burstSect (s : State) (m ch : Nat) : Nat := max 1 (min 4096 (s.ctxF m ch 0 52 40))

/-- A read of mover m that waits for its tag or its data. -/
def MemReq.readOf (m : Nat) (r : MemReq) : Bool := r.queue == 8 + m && !r.write

/-- A read of host memory by mover m. -/
def HostRead.ofMover (m : Nat) (h : HostRead) : Bool :=
  h.len != 0 && (match h.use with
    | .burst m' _ _ _ => m == m'
    | .dropped m' => m == m'
    | .copy _ _ _ => m == 8
    | _ => false)

/-- The sectors of host memory that a mover's reads bring (R264). -/
def State.hostSectors (s : State) (m : Nat) : Nat :=
  ((s.host.reads.filter (HostRead.ofMover m)).map fun h => ceilDiv h.len 64).sum

/-- Sector reads outstanding of a mover, those of freed channels included: they wait for their window or for their data (R264,
R280). -/
def State.outstanding (s : State) (m : Nat) : Nat :=
  (s.wins.map fun e => (e.2.queue.filter (MemReq.readOf m)).length +
    (e.2.tags.filter fun t => t.phase == 0 && t.req.readOf m).length).sum + s.hostSectors m

/-- The reads that a channel's priority lets a mover have outstanding (R264). -/
def Run.limit (r : Run) : Nat := 16384 * (r.prio + 1)

/-- The sectors that an element of a descriptor lies in. -/
def TD.elSectors (d : TD) (l : Nat) : List Nat :=
  let b := d.bitAddr (unlin d.sizes l)
  [b / 512, (b + d.wbits - 1) / 512]

/-- The destination sectors in the order in which D's linear order first reaches them (R268). -/
def TD.sectorList (d : TD) : List Nat :=
  if d.isEmpty then [] else (((List.range d.count).map d.elSectors).flatten).eraseDups

/-- The units a transfer is cut from: tiles of a compressed destination, else destination sectors. -/
def TD.cutUnits (d : TD) : Nat := if d.compressed then (tilesOf d).length else d.sectorList.length

/-! ### mcopy (R219, R266 to R269, R278, R280) -/

/-- The unit of a SWAP code in bytes (R269). -/
def swapUnit (k : Nat) : Nat := if k = 1 then 2 else 4

/-- mcopy's checks of its descriptors. A block-scaled source that it converts needs BDIM 0, as for every instruction but gmm
(R166); a bit-exact copy takes blocks along any dimension, as D's (R267, R355; log entry 112). -/
def mcopyFlt (i : Insn) (job : Nat) : Option Flt :=
  let d := i.td roleD
  let a := i.td roleA
  let k := i.mod 13 12
  let conv := !exactCopy a d
  firstFlt [d.check roleD job anyTypes true true false, a.check roleA job anyTypes true true true,
    need (!conv || valueTypes.contains d.type) (fltOf cTYPE roleD d 0),
    need (!conv || valueTypes.contains a.type) (fltOf cTYPE roleA a 0),
    need (!d.compressed || (tileTypes.contains d.type && d.bsize = 0)) (fltOf cTYPE roleD d 0),
    need (!a.compressed || (tileTypes.contains a.type && a.bsize = 0)) (fltOf cTYPE roleA a 0),
    need (!conv || a.bsize = 0 || a.bdim = 0) (fltOf cTYPE roleA a 0),
    need (k = 0 || a.compressed || a.wbits = 8 * swapUnit k ||
      (a.type = 0x0A && a.stride 0 = 1 && a.size 0 % swapUnit k = 0)) (fltOf cTYPE roleA a 0),
    need (a.rank = d.rank && a.sizes = d.sizes) (fltOf cSHAPE roleD d 0),
    need (d.compressed = (i.mod 14 14 == 1)) (fltOf cLAYOUT roleD d 0),
    need (!a.compressed || (d.compressed && a.type = d.type && k = 0)) (fltOf cLAYOUT roleA a 0),
    d.checkWrite roleD]

/-- The mover accepts an mcopy: its channel is idle and a slot of its priority is free (R266, R271). -/
def State.moverFree (s : State) (n : Nat) (i : Insn) : Bool :=
  s.ctxF n (i.mod 35 24) 1 3 0 == 0 &&
    [0, 1].any fun k => !bitOf (s.get (Reg.MOVER.SLOTS n)) (2 * i.mod 16 15 + k)

/-- The reason code of an ADDRESS fault for a device that no rule gives one for (R219, R309; log entry 24). -/
def noDevice (d : TD) (job : Nat) : Flt := fltOf cADDRESS roleD d (addrDetail d.base (Config.openValue 24 0 % 16) 0 job)

/-- A transfer is complete in every way: its channel counts it and is idle (R265, R276). -/
def State.endRun (s : State) (r : Run) : State :=
  let s := if r.posted then s else s.markDone r.core r.tag Cnt.none
  let s := s.ctxInc r.m r.ch 3 63 0 1
  s.freeRun r

/-- A write of the transfer is held for a snapshot copy (R185). -/
def State.runHeld (s : State) (r : Run) : Bool := s.snap.heldWrites.any fun h => match h.req.owner with
  | .burst m ch _ => m == r.m && ch == r.ch
  | _ => false

/-- A transfer that has written to host memory issues a read of length zero behind its last write, once none of its writes is
held any more (R185, R276). -/
def State.flushHost (s : State) (r : Run) : State :=
  if r.toHost ∧ !r.flushed ∧ !s.runHeld r then
    let h := s.host
    let s := { s with host := { h with reads := h.reads ++ [HostRead.mk h.nextRead 0 0 (.burst r.m r.ch r.burstNo 0)],
                                       nextRead := h.nextRead + 1 } }
    s.mapRun r.m r.ch fun r => { r with flushed := true, acks := r.acks + 1 }
  else s

/-- A transfer whose last burst is written: the read that follows its last write to host memory, its completion
point, and its arrival (R203, R276). -/
def State.tryFinish (s : State) (m ch : Nat) : State :=
  match s.run? m ch with
  | none => s
  | some r =>
    if r.next < r.total ∨ !r.bursts.isEmpty then s
    else if !(r.toHost && !r.flushed) ∧ r.acks = 0 ∧ r.ackTags.isEmpty then s.endRun r
    else
      let s := (s.flushHost r).putChan m ch r.tag 5
      if !r.d.arrive ∧ !s.runHeld r ∧ !r.posted then
        (s.markDone r.core r.tag Cnt.none).mapRun m ch fun r => { r with posted := true }
      else s

/-- A transfer takes its channel and slot (R265, R271). -/
def State.startRun (s : State) (n : Nat) (i : Insn) : State :=
  let ch := i.mod 35 24
  let p := i.mod 16 15
  let slot := if bitOf (s.get (Reg.MOVER.SLOTS n)) (2 * p) then 2 * p + 1 else 2 * p
  let r : Run := { m := n, ch := ch, core := n, tag := i.tag, job := s.jobOf n, word := i.word, dD := i.dD, dA := i.dA,
                   slot := slot, order := s.runOrder, next := 0, total := (i.td roleD).cutUnits, bursts := [],
                   burstNo := 0, carry := [], scales := [], acks := 0, ackTags := [], toHost := false, flushed := false,
                   posted := false, waitingReq := false }
  let s := (s.putChan n ch i.tag 2).setCtx n ch 2 0
  let s := s.put (Reg.MOVER.SLOTS n) (s.get (Reg.MOVER.SLOTS n) ||| 2 ^ slot)
  ({ s with runs := s.runs ++ [r], runOrder := s.runOrder + 1 } : State).tryFinish n ch

/-- What an mcopy does when it dispatches. -/
def State.mcopyRun (s : State) (n : Nat) (i : Insn) : State :=
  let w := s.ctx n (i.mod 35 24) 0
  match mcopyFlt i (s.jobOf n) with
  | some f => s.takeFault n i f
  | none =>
    if i.mod 17 17 = 1 ∧ !s.members.contains (i.mod 23 18) then s.takeFault n i (noDevice (i.td roleD) (s.jobOf n))
    else if !bitOf w 63 ∨ bitsOf w 5 0 ≠ s.jobOf n then s.takeFault n i (flt cCONFIG)
    else s.startRun n i

/-- MCOPY (R219). -/
def execMcopy (c : CoreIx) (s : State) : Out :=
  whenLive s fun s => s.dispatch c.val 0x30 (fun s i => s.moverFree c.val i) fun s i => s.mcopyRun c.val i

/-! ### What a burst covers (R267 to R269) -/

/-- What a burst covers: its destination sectors, the elements with bits in them, the sectors of the scale
tensor that it writes, the elements of the blocks that those serve, and the elements whose source it reads. -/
structure Cut where
  sectors : List Nat
  els : List Nat
  scaleSecs : List Nat
  blockEls : List Nat
  need : List Nat
deriving DecidableEq, Repr

/-- The burst of the destination sectors from position first up to last (R268). -/
def Run.cut (r : Run) (first last : Nat) : Cut :=
  let d := r.d
  let secs := (d.sectorList.drop first).take (last - first)
  let all := List.range d.count
  let els := all.filter fun l => (d.elSectors l).any secs.contains
  let sec := fun l => d.scaleVa (unlin d.sizes l) / 64
  let sc := if d.bsize = 0 then [] else ((all.map sec).eraseDups).filter fun k =>
    match all.find? (fun l => sec l == k) with
    | some l => secs.contains ((d.elSectors l).headD 0)
    | none => false
  let blk := if d.bsize = 0 then [] else all.filter fun l => sc.contains (sec l)
  ⟨secs, els, sc, blk, if exactCopy r.a d then els else all.filter fun l => els.contains l || blk.contains l⟩

/-- Where SWAP takes an element of bytes from (R269). -/
def swapIx (k : Nat) : List Nat → List Nat
  | i :: r =>
    let u := swapUnit k
    let j := i % u
    (i - j + (if k = 3 then (j + 2) % 4 else u - 1 - j)) :: r
  | [] => []

/-- SWAP within an element of the unit's width (R269). -/
def swapCode (k c : Nat) : Nat :=
  if k = 1 then c % 256 * 256 + c / 256
  else if k = 2 then c % 256 * 2 ^ 24 + c / 256 % 256 * 2 ^ 16 + c / 2 ^ 16 % 256 * 256 + c / 2 ^ 24
  else c % 2 ^ 16 * 2 ^ 16 + c / 2 ^ 16

/-- The index list of A from which element l is read. -/
def Run.srcIx (r : Run) (l : Nat) : List Nat :=
  let ix := unlin r.a.sizes l
  if r.swap ≠ 0 ∧ r.a.wbits = 8 then swapIx r.swap ix else ix

/-- The virtual addresses that reading an element touches. -/
def Run.srcVas (r : Run) (l : Nat) : List Nat :=
  let b := r.a.bitAddr (r.srcIx l)
  (List.range ((b + r.a.wbits - 1) / 8 - b / 8 + 1)).map (b / 8 + ·)

/-- The virtual addresses of source scales that a burst reads. -/
def Run.srcScales (r : Run) (c : Cut) : List Nat :=
  if r.a.bsize = 0 then []
  else ((if exactCopy r.a r.d then c.blockEls else c.need).map fun l => r.a.scaleVa (unlin r.a.sizes l)).eraseDups

/-- The 2 MiB units of addresses, each with the first address in it. -/
def pagesOf (vas : List Nat) : List (Nat × Nat) :=
  vas.foldl (fun l v => if l.any (fun e => e.1 == v / 2 ^ 21) then l else l ++ [(v / 2 ^ 21, v)]) []

/-- Translate parts of a burst one after another (R181, R268): role, descriptor, write, addresses. -/
def State.bindParts (s : State) (src job : Nat) : List (Nat × TD × Bool × List Nat) → Bound → State × (Flt ⊕ Bound)
  | [], b => (s, .inr b)
  | (role, d, wr, vas) :: r, b =>
    match s.bindUnits src job .anywhere (!wr) wr (fun va re l => fltOf cADDRESS role d (addrDetail va re l job))
        (pagesOf vas) b with
    | (s, .inl f) => (s, .inl f)
    | (s, .inr b) => State.bindParts s src job r b

/-- The parts of a burst to translate; the target translates a remote destination (R173). -/
def Run.parts (r : Run) (s : State) (c : Cut) : List (Nat × TD × Bool × List Nat) :=
  (if (r.remote s).isSome then [] else
    [(roleD, r.d, true, c.sectors.map (· * 64)), (roleD + 8, r.d, true, c.scaleSecs.map (· * 64))]) ++
  [(roleA, r.a, false, (c.need.map r.srcVas).flatten), (roleA + 8, r.a, false, r.srcScales c)]

/-- The unit in which a byte is read: a piece of a core store, a sector elsewhere. -/
def readUnit (pa : Nat) : Nat × Nat :=
  if csBase ≤ pa ∧ pa < hostBase then (pa / 32 * 32, 32) else (pa / 64 * 64, 64)

/-- Issue the read of one unit for a burst (R238). -/
def State.startRead (s : State) (r : Run) (n : Nat) (u : Nat × Nat) : State × Piece :=
  let pa := u.1
  let s := s.inc (Reg.MOVER.READ_BYTES r.m) u.2
  if inHost pa then
    let h := s.host
    let s := { s with host := { h with reads := h.reads ++ [HostRead.mk h.nextRead (s.hostAddr r.job pa) 64 (.burst r.m r.ch n pa)],
                                       nextRead := h.nextRead + 1 } }
    (s, ⟨pa, none⟩)
  else if csBase ≤ pa then (s, ⟨pa, some (s.bytes pa 32, s.poisoned pa)⟩)
  else if s.fe then (s, ⟨pa, some (List.replicate 64 0, true)⟩)
  else
    let q : MemReq := { queue := 8 + r.m, src := r.src, job := r.job, pa := pa, write := false, data := [], poison := false,
                        owner := .burst r.m r.ch n }
    (s.enqueue (s.locate pa).1 q, ⟨pa, none⟩)

/-- Issue the reads of a burst, as far as the mover's limit lets them out: what is issued, and what waits (R264). -/
def State.startReads (s : State) (r : Run) (n : Nat) : List (Nat × Nat) → List Piece → State × List Piece × List (Nat × Nat)
  | [], out => (s, out, [])
  | u :: rest, out =>
    if s.outstanding r.m < r.limit then
      let (s, p) := s.startRead r n u
      State.startReads s r n rest (out ++ [p])
    else (s, out, u :: rest)

/-- A channel's burst issues the reads that it still has to issue, within the limit (R264). -/
def State.pump (s : State) (r : Run) (b : Burst) : State :=
  let (s, ps, left) := s.startReads r b.n b.todo []
  let f := fun (x : Burst) => { x with reads := x.reads ++ ps, todo := left }
  s.mapRun r.m r.ch fun x => { x with bursts := mapIf (fun y => y.n == b.n) f x.bursts }

/-- Every burst of a channel issues what it can. -/
def State.pumpAll (s : State) (r : Run) : State := r.bursts.foldl (fun s b => s.pump r b) s

/-- Everything that a burst reads has come. -/
def Burst.full (b : Burst) : Bool := b.todo.isEmpty && b.reads.all fun p => p.data.isSome

/-! ### Writing a burst (R268, R270, R276, R279) -/

/-- The byte at a virtual address as a burst has read it, and its poison mark. -/
def Burst.at (b : Burst) (va : Nat) : Byte × Bool :=
  let pa := Bound.pa b.pages va
  match b.reads.find? (fun p => p.pa == (readUnit pa).1) with
  | some p => match p.data with
    | some (l, m) => (l.getD (pa - p.pa) 0, m)
    | none => (0, false)
  | none => (0, false)

/-- An element's source code as it is read, after SWAP, and its poison mark (R269). -/
def Run.srcCode (r : Run) (b : Burst) (l : Nat) : Nat × Bool :=
  let bit := r.a.bitAddr (r.srcIx l)
  let got := (r.srcVas l).map b.at
  let c := natOf (got.map Prod.fst) / 2 ^ (bit % 8) % 2 ^ r.a.wbits
  (if r.swap ≠ 0 ∧ r.a.wbits ≠ 8 then swapCode r.swap c else c, got.any Prod.snd)

/-- An element's source value (R62, R267). -/
def Run.srcValue (r : Run) (b : Burst) (l : Nat) : Num :=
  let v := decodeNum r.a.type (r.srcCode b l).1
  if r.a.bsize = 0 then v else scaled (b.at (r.a.scaleVa (unlin r.a.sizes l))).1.toNat v

/-- The scale codes of the blocks whose scales a burst writes (R65, R268). -/
def Run.newScales (r : Run) (b : Burst) (c : Cut) : List (Nat × Nat) :=
  let at_ := fun l => r.d.scaleVa (unlin r.d.sizes l)
  ((c.blockEls.map at_).eraseDups).map fun a =>
    (a, scaleCode r.d.type ((c.blockEls.filter fun l => at_ l == a).map (r.srcValue b)))

/-- Convert a burst's elements in linear order, each with lane e mod 256; one that an earlier burst converted
keeps its code (R74, R268, R356). -/
def State.convertEls (s : State) (r : Run) (b : Burst) (sc carry : List (Nat × Nat)) :
    List Nat → List (Nat × Nat) → Cnt → State × List (Nat × Nat) × Cnt
  | [], out, c => (s, out, c)
  | l :: rest, out, c =>
    match carry.find? (fun e => e.1 == l) with
    | some e => State.convertEls s r b sc carry rest (out ++ [e]) c
    | none =>
      let v := r.srcValue b l
      let f := fun rnd => if r.d.bsize = 0 then convert r.d.type rnd v
        else convertScaled r.d.type rnd (lookupD 0 (r.d.scaleVa (unlin r.d.sizes l)) sc) v
      let (s, code, k) := s.convertLane r.core (l % 256) (r.insn.mod 1 0) f
      State.convertEls s r b sc carry rest (out ++ [(l, code)]) (c.add k)

/-- A byte after the elements that write to it, in order; none when none does. -/
def byteAfter (els : List El) (va : Nat) (old : Byte) : Option Byte :=
  els.foldl (fun acc e =>
    if e.bit < va * 8 + 8 ∧ va * 8 < e.bit + e.w then
      let v := (acc.getD old).toNat
      some (BitVec.ofNat 8 ((List.range 8).foldl (fun n k =>
        let bit := va * 8 + k
        n + (if e.bit ≤ bit ∧ bit < e.bit + e.w then e.code / 2 ^ (bit - e.bit) % 2 else v / 2 ^ k % 2) * 2 ^ k) 0))
    else acc) none

/-- One write of a transfer goes to memory: held for a snapshot, posted to the host, not performed in the FE state, performed in a
core store, or given to its window (R185, R276, R428). -/
def State.moverWrite (s : State) (r : Run) (va : Nat) (snap : Bool) (q : MemReq) : State :=
  let ack := fun (s : State) => s.mapRun r.m r.ch fun r => { r with acks := r.acks + 1 }
  match (if snap then s.heldBlock r.job va else none) with
  | some b => ack (s.hold b q)
  | none =>
    if inHost q.pa then s.postRuns r.job q.pa q.data
    else if csBase ≤ q.pa then s.performReq q
    else if s.fe then s
    else ack (s.enqueue (s.locate q.pa).1 q)

/-- The request of one write of a burst. -/
def Run.writeReq (r : Run) (n pa : Nat) (data : List (Option Byte)) (poison : Bool) : MemReq :=
  { queue := 8 + r.m, src := r.src, job := r.job, pa := pa, write := true, data := data, poison := poison,
    owner := .burst r.m r.ch n }

/-- Write the sector of a burst at a local destination (R240, R276, R279). -/
def State.emitSector (s : State) (r : Run) (n : Nat) (pages : Bound) (els : List El) (sec : Nat) : State :=
  let va := sec * 64
  let pa := pages.pa va
  let mine := els.filter fun e => e.bit < va * 8 + 512 && va * 8 < e.bit + e.w
  let old := fun j => if inHost pa then Config.hostByte s.freeCtr (s.hostAddr r.job pa + j) else s.byte (pa + j)
  let data := (List.range 64).map fun j => byteAfter mine (va + j) (old j)
  let mark := fun lo w => mine.any fun e => e.mark && e.bit < (va + lo + w) * 8 && (va + lo) * 8 < e.bit + e.w
  let bytes := (data.filter Option.isSome).length
  let s := (s.inc (Reg.MOVER.WRITE_BYTES r.m) bytes).ctxInc r.m r.ch 2 63 0 bytes |>.ctxInc r.m r.ch 4 63 0 bytes
  if inHost pa then
    (s.draw.mapRun r.m r.ch fun r => { r with toHost := true }).moverWrite r va (pages.snap va) (r.writeReq n pa data false)
  else if csBase ≤ pa then
    [0, 32].foldl (fun s lo =>
      let half := (data.drop lo).take 32
      if half.all Option.isNone then s
      else s.moverWrite r (va + lo) (pages.snap va) (r.writeReq n (pa + lo) half (mark lo 32))) s
  else s.moverWrite r va (pages.snap va) (r.writeReq n pa data (mark 0 64))

/-- Cut a list of sectors into runs of consecutive ones, at most 32 long: the payloads of WRITE packets. -/
def writeRuns : List Nat → List (List Nat)
  | [] => []
  | a :: r => match writeRuns r with
    | (b :: l) :: rest => if b = a + 1 ∧ l.length < 31 then (a :: b :: l) :: rest else [a] :: (b :: l) :: rest
    | rest => [a] :: rest

/-- Send the sectors of a burst to another device as WRITE packets (R310, R313, R314). A byte of a sector that
the transfer does not write has no place in a packet: what it carries is free (log entry 25), and it does not count as
written (R265). -/
def State.emitRemote (s : State) (r : Run) (dst : Nat) (els : List El) (secs : List Nat) : State :=
  (writeRuns secs).foldl (fun s l =>
    let free := s.freeCtr
    let data := (l.map fun sec => (List.range 64).map fun j =>
      (byteAfter els (sec * 64 + j) (BitVec.ofNat 8 (Config.openValue 25 (2 ^ 64 * free + sec * 64 + j)))).getD
        (BitVec.ofNat 8 (Config.openValue 25 (2 ^ 64 * free + sec * 64 + j)))).flatten
    let marks := (l.zipIdx.map fun e =>
      if els.any fun x => x.mark && x.bit < (e.1 + 1) * 512 && e.1 * 512 < x.bit + x.w then 2 ^ e.2 else 0).sum
    let ack := r.d.arrive
    let tag := s.doors.nextTag
    let h := { s.hdr r.src dst r.job (l.headD 0 * 64) l.length with
               ackReq := ack, tag := BitVec.ofNat 16 tag, poison := BitVec.ofNat 32 marks }
    let placed := (l.map fun sec => ((List.range 64).filter fun j => (byteAfter els (sec * 64 + j) 0).isSome).length).sum
    let s := (s.inc (Reg.MOVER.WRITE_BYTES r.m) placed).ctxInc r.m r.ch 2 63 0 placed
    let s := (s.ctxInc r.m r.ch 4 63 0 placed).sendPkt 1 h data
    let s := { s with freeCtr := s.freeCtr + 64, doors := { s.doors with nextTag := (tag + 1) % 65536 } }
    if ack then s.mapRun r.m r.ch fun r => { r with ackTags := r.ackTags ++ [tag % 65536] } else s) s

/-- The writes of a burst leave, sector by sector. -/
def State.emit (s : State) (r : Run) (n : Nat) (pages : Bound) (els : List El) (secs : List Nat) : State :=
  match r.remote s with
  | some dst => s.emitRemote r dst els secs
  | none => secs.foldl (fun s sec => s.emitSector r n pages els sec) s

/-- A transfer stops in a burst: the elements of the burst that no earlier burst has converted may have drawn or not, each at
most once (R268); the instruction adds what it has counted, and the channel is freed (R87, R280). -/
def State.runStop (s : State) (r : Run) (els : List Nat) : State :=
  let k := s.freeCtr
  let lane := fun l => Reg.CORE.LANE_STATE r.core (l % 256)
  let open_ := fun l => Config.drewBeforeFault k l && !r.carry.any fun e => e.1 == l
  let s := if r.insn.mod 1 0 = 2 ∧ !exactCopy r.a r.d then
      (els.filter open_).foldl (fun s l => s.put (lane l) (genNext (s.get (lane l)))) s.draw
    else s
  s.freeRun r

/-- The instruction of a transfer, as it stands in its window. -/
def State.insnOf (s : State) (r : Run) : Option Insn := (s.core r.core).window.find? fun i => i.tag == r.tag

/-- A transfer faults in a burst (R280). -/
def State.runFault (s : State) (r : Run) (els : List Nat) (f : Flt) : State :=
  let s := s.runStop r els
  match s.insnOf r with
  | some i => (s.addCounts r.core i).takeFault r.core i f
  | none => s

/-- A transfer would write a mark into sector sec of a POISON_KILL page: it consumes it (R184, R279). -/
def State.runKill (s : State) (r : Run) (els : List Nat) (role sec : Nat) : State :=
  let s := s.runStop r els
  match s.insnOf r with
  | some i => (s.addCounts r.core i).killFault r.core i (fltOf cPOISON role r.d (sec * 64))
  | none => s

/-- The device that a transfer writes to cannot be reached (R309). -/
def State.cutOff (s : State) (r : Run) : Bool := (r.remote s).any fun d => (s.route d).isNone

/-- What keeps a burst from being written: no way to its device, a mark that it would consume, a mark for a POISON_KILL page
(R184, R279, R309). -/
inductive Bar where
  | open_
  | far
  | poison (va : Nat)
  | kill (sec : Nat)
deriving DecidableEq, Repr

/-- Look what keeps a burst from being written: used are the marked addresses that it consumes, els its elements. -/
def State.barOf (s : State) (r : Run) (pages : Bound) (used : List Nat) (els : List El) : Bar :=
  if s.cutOff r then .far
  else match used.head? with
    | some va => .poison va
    | none => match (if (r.remote s).isSome then none else (killSectors pages els).head?) with
      | some sec => .kill sec
      | none => .open_

/-- A local destination sector of a burst lies in host memory. -/
def Run.hostSector (r : Run) (s : State) (pages : Bound) (sec : Nat) : Bool := (r.remote s).isNone && inHost (pages.pa (sec * 64))

/-- The counts of a burst go to its instruction. -/
def State.addRunCnt (s : State) (r : Run) (c : Cnt) : State :=
  s.mapInsn r.core r.tag fun i => { i with sat := i.sat + c.sat, flush := i.flush + c.flush, nan := i.nan + c.nan }

/-- The burst's elements as they are written, with scales (R267, R268). -/
def State.burstEls (s : State) (r : Run) (b : Burst) (c : Cut) : State × List El × List (Nat × Nat) × List (Nat × Nat) × Cnt :=
  if exactCopy r.a r.d then
    let vals := c.els.map fun l => let x := r.srcCode b l; El.mk (r.d.bitAddr (unlin r.d.sizes l)) r.d.wbits x.1 x.2
    let sc := (c.blockEls.map fun l =>
      let x := b.at (r.a.scaleVa (unlin r.a.sizes l))
      El.mk (8 * r.d.scaleVa (unlin r.d.sizes l)) 8 x.1.toNat x.2).eraseDups
    (s, vals ++ sc, [], [], Cnt.none)
  else
    let sc := r.newScales b c
    let (s, out, cnt) := s.convertEls r b (sc ++ r.scales) r.carry c.els [] Cnt.none
    (s, (out.map fun e => El.mk (r.d.bitAddr (unlin r.d.sizes e.1)) r.d.wbits e.2 false) ++
      sc.map fun e => El.mk (8 * e.1) 8 e.2 false, sc ++ r.scales, out.filter fun e => (r.d.elSectors e.1).any fun x =>
        !c.sectors.contains x, cnt)

/-- The poisoned addresses among some that a burst has read. -/
def Burst.marked (b : Burst) (vas : List Nat) : List Nat := vas.filter fun va => (b.at va).2

/-- Every source address of a burst of sectors. -/
def Run.burstVas (r : Run) (c : Cut) : List Nat := (c.need.map r.srcVas).flatten ++ r.srcScales c

/-- The source addresses of a burst whose marks it would consume: all of them where it converts or swaps, else those of what
is bound for host memory (R279). -/
def Run.consumed (r : Run) (s : State) (b : Burst) (c : Cut) : List Nat :=
  if !exactCopy r.a r.d || r.swap != 0 then r.burstVas c
  else
    let host := r.hostSector s b.pages
    let sc := fun l => r.d.scaleVa (unlin r.d.sizes l) / 64
    ((c.els.filter fun l => (r.d.elSectors l).any fun x => c.sectors.contains x && host x).map r.srcVas).flatten ++
      ((c.blockEls.filter fun l => host (sc l)).map fun l => r.a.scaleVa (unlin r.a.sizes l))

/-- The head burst of a transfer is out of the channel and counted (R265, R279). -/
def State.dropBurst (s : State) (r : Run) (b : Burst) (marks : List Nat) : State :=
  let s := s.inc (Reg.MOVER.MOVER_POISON r.m) ((marks.map (· / 64)).eraseDups.length)
  let s := if bitOf (s.ctx r.m r.ch 0) 62 then s.ctxInc r.m r.ch 6 31 0 1 else s
  s.mapRun r.m r.ch fun x => { x with bursts := x.bursts.filter fun y => y.n ≠ b.n }

/-- The fault of a transfer that consumes a marked address: of A's values, or of its scales (R279, R551). -/
def Run.poisonFlt (r : Run) (values : List Nat) (va : Nat) : Flt :=
  fltOf cPOISON (if values.contains va then roleA else roleA + 8) r.a va

/-- Write the head burst of a transfer, or fault over what keeps it from being written (R184, R268, R279, R280, R309). -/
def State.writeBurst (s : State) (r : Run) (b : Burst) : State :=
  let c := r.cut b.first b.last
  let out := s.burstEls r b c
  match s.barOf r b.pages (b.marked (r.consumed s b c)) out.2.1 with
  | .far => s.runFault r c.els (noDevice r.d r.job)
  | .poison va => s.runFault r c.els (r.poisonFlt (c.need.map r.srcVas).flatten va)
  | .kill sec => s.runKill r c.els (if c.sectors.contains sec then roleD else roleD + 8) sec
  | .open_ =>
    let (s, els, scales, carry, cnt) := out
    let s := (s.dropBurst r b (b.marked (r.burstVas c))).mapRun r.m r.ch fun x =>
      { x with scales := scales, carry := carry ++ x.carry }
    (s.addRunCnt r cnt).emit r b.n b.pages els (c.sectors ++ c.scaleSecs)

/-! ### Compressed destinations (R277, R278) -/

/-- The positions that a group of a pairs tile stores: those of non-zero elements, and the lowest unused ones
(R277). -/
def pairPos (nz : List Nat) : Nat × Nat :=
  let free := (List.range 4).filter fun p => !nz.contains p
  let l := (List.range 4).filter fun p => (nz ++ free.take (2 - nz.length)).contains p
  (l.getD 0 0, l.getD 1 1)

/-- The header of a tile without its check (R142). -/
def tileHeader (fmt b type : Nat) (p : TilePos) (nnz : Nat) (fallback : Bool) : Nat :=
  fmt + ofBool fallback * 2 ^ 7 + (p.rows - 1) * 2 ^ 30 + (p.cols - 1) * 2 ^ 35 + type * 2 ^ 40 + nnz * 2 ^ 64 +
    tileLength fmt b nnz * 2 ^ 80

/-- A tile of element codes (row by row, 32 by 32, zero where absent) in a format: its bytes (R142, R143). -/
def tileBytes (fmt b type : Nat) (p : TilePos) (fallback : Bool) (code : Nat → Nat → Nat) : Bytes :=
  let rs := List.range 32
  let nz := fun r => rs.filter fun c => code r c != 0
  let nnz := if fmt = 0 then 1024 else if fmt = 2 then 512 else (rs.map fun r => (nz r).length).sum
  let vals := fun (f : Nat → List Nat) => (rs.map fun r => ((f r).map fun c => bytesOf b (code r c)).flatten).flatten
  let grp := fun r g => pairPos ((nz r).filterMap fun c => if c / 4 = g then some (c % 4) else none)
  let payload :=
    if fmt = 0 then vals fun _ => rs
    else if fmt = 1 then (rs.map fun r => bytesOf 4 ((nz r).map fun c => 2 ^ c).sum).flatten ++ vals nz
    else if fmt = 2 then
      (rs.map fun r => bytesOf 4 ((List.range 8).map fun g => ((grp r g).1 + 4 * (grp r g).2) * 16 ^ g).sum).flatten ++
        vals fun r => ((List.range 8).map fun g => [4 * g + (grp r g).1, 4 * g + (grp r g).2]).flatten
    else (rs.map fun r => bytesOf 1 (nz r).length).flatten ++ ((rs.map fun r => (nz r).map fun c => BitVec.ofNat 8 c).flatten) ++
      vals nz
  bytesOf 12 (tileHeader fmt b type p nnz fallback) ++ bytesOf 4 (crc32c payload) ++ payload

/-- The format that a mover chooses for a tile, and whether it falls back to DENSE (R277): FORMATS bit 0 BITMAP,
bit 1 PAIRS, bit 2 LIST. -/
def tileFormat (formats b : Nat) (code : Nat → Nat → Nat) : Nat × Bool :=
  let rs := List.range 32
  let nnz := (rs.map fun r => (rs.filter fun c => code r c != 0).length).sum
  let pairsOk := rs.all fun r => (List.range 8).all fun g =>
    decide (((List.range 4).filter fun k => code r (4 * g + k) != 0).length ≤ 2)
  let dense := tileLength 0 b 1024
  let cands := (if bitOf formats 1 ∧ pairsOk then [2] else []) ++ (if bitOf formats 0 then [1] else []) ++
    (if bitOf formats 2 then [3] else [])
  let best := cands.foldl (fun (o : Nat × Nat) f => if tileLength f b nnz < o.2 then (f, tileLength f b nnz) else o) (0, dense)
  if formats % 8 = 0 then (0, false) else (best.1, best.1 == 0)

/-- One tile of a compressed destination: the bytes to write and their marks, its format and fallback. -/
structure TileOut where
  els : List El
  fmt : Nat
  fallback : Bool
  cnt : Cnt
deriving DecidableEq, Repr

/-- The elements of a tile in D's linear order: its rows, and in each its columns. -/
def TilePos.els (p : TilePos) (d : TD) : List (Nat × Nat × Nat) :=
  ((List.range p.rows).map fun r => (List.range p.cols).map fun c =>
    (r, c, lin d.sizes ([32 * p.tc + c, 32 * p.tr + r] ++ unlin (d.sizes.drop 2) p.be))).flatten

/-- The linear indices of a tile's elements. -/
def TilePos.lins (p : TilePos) (d : TD) : List Nat := (p.els d).map fun e => e.2.2

/-- The virtual address of the k-th tile. -/
def TD.tileVa (d : TD) (k : Nat) : Nat := d.base + k * tileSlot d.type

/-- The source addresses of a tile's values, and of their scales. -/
def Run.valueVas (r : Run) (p : TilePos) : List Nat := ((p.lins r.d).map r.srcVas).flatten
def Run.scaleVas (r : Run) (p : TilePos) : List Nat :=
  if r.a.bsize = 0 then [] else (p.lins r.d).map fun l => r.a.scaleVa (unlin r.a.sizes l)

/-- The source addresses that a tile reads: a tile of a compressed source takes its first len bytes (R278). -/
def Run.tileVas (r : Run) (p : TilePos) (k len : Nat) : List Nat :=
  if r.a.compressed then (List.range len).map (r.a.tileVa k + ·) else r.valueVas p ++ r.scaleVas p

/-- The bytes that a tile of a compressed source takes, by its LENGTH as it has been read: whole sectors, at most a slot
(R278). Where LENGTH is poisoned it is a free value (log entry 26). -/
def Run.copyLen (r : Run) (b : Burst) (k free : Nat) : Nat :=
  let hdr := [10, 11].map fun j => b.at (r.a.tileVa k + j)
  let len := if hdr.any Prod.snd then Config.openValue 26 free else natOf (hdr.map Prod.fst)
  min (tileSlot r.d.type) (64 * ceilDiv len 64)

/-- A tile of a compressed source as it is written: unchanged (R278). -/
def Run.copiedTile (r : Run) (b : Burst) (k len : Nat) : TileOut :=
  ⟨(List.range len).map fun j =>
    let x := b.at (r.a.tileVa k + j)
    ⟨8 * (r.d.tileVa k + j), 8, x.1.toNat, x.2⟩, 0, false, Cnt.none⟩

/-- Compress one tile from a source that is not compressed: conversion and choice of the format (R277). -/
def State.packedTile (s : State) (r : Run) (b : Burst) (k : Nat) (p : TilePos) : State × TileOut :=
  let els := p.els r.d
  let (s, out, cnt) := if exactCopy r.a r.d then (s, (p.lins r.d).map fun l => (l, (r.srcCode b l).1), Cnt.none)
    else s.convertEls r b [] [] (p.lins r.d) [] Cnt.none
  let code := fun i j => match els.find? (fun e => e.1 == i && e.2.1 == j) with
    | some e => lookupD 0 e.2.2 out
    | none => 0
  let bw := r.d.wbits / 8
  let fmt := tileFormat (s.ctxF r.m r.ch 0 38 36) bw code
  let data := tileBytes fmt.1 bw r.d.type p fmt.2 code
  (s, ⟨data.zipIdx.map fun e => ⟨8 * (r.d.tileVa k + e.2), 8, e.1.toNat, false⟩, fmt.1, fmt.2, cnt⟩)

/-- One tile as a burst writes it, from what the burst has read. -/
def State.tileOut (s : State) (r : Run) (b : Burst) (k len : Nat) (p : TilePos) : State × TileOut :=
  if r.a.compressed then (s, r.copiedTile b k len) else s.packedTile r b k p

/-- The units that addresses lie in. -/
def unitsAt (pages : Bound) (vas : List Nat) : List (Nat × Nat) := (vas.map fun va => readUnit (pages.pa va)).eraseDups

/-- The first and the last byte of elements, which tell their pages. -/
def ends (els : List El) : List Nat := ((els.head?.toList) ++ els.getLast?.toList).map fun e => e.bit / 8

/-! ### Writing a burst of tiles (R277 to R279) -/

/-- The tiles of a burst with their numbers, and the bytes each takes of a compressed source. -/
def Run.burstTiles (r : Run) (b : Burst) : List (TilePos × Nat × Nat) :=
  ((((tilesOf r.d).zipIdx.drop b.first).take (b.last - b.first)).zip b.lens).map fun e => (e.1.1, e.1.2, e.2)

/-- The tiles of a burst, one after another. -/
def State.tileOuts (s : State) (r : Run) (b : Burst) : List (TilePos × Nat × Nat) → State × List TileOut
  | [] => (s, [])
  | (p, k, len) :: rest =>
    let (s, t) := s.tileOut r b k len p
    let (s, l) := State.tileOuts s r b rest
    (s, t :: l)

/-- The source addresses of a burst of tiles whose marks it would consume: all of them where it compresses, else those of what
is bound for host memory (R279). -/
def Run.tilesConsumed (r : Run) (s : State) (b : Burst) : List Nat :=
  let vas := (r.burstTiles b).map fun e => (e, r.tileVas e.1 e.2.1 e.2.2)
  ((vas.map fun e =>
    if r.a.compressed then e.2.filter fun va => r.hostSector s b.pages ((va - r.a.tileVa e.1.2.1 + r.d.tileVa e.1.2.1) / 64)
    else e.2).flatten)

/-- Every source address of a burst of tiles. -/
def Run.allTileVas (r : Run) (b : Burst) : List Nat := ((r.burstTiles b).map fun e => r.tileVas e.1 e.2.1 e.2.2).flatten

/-- The linear indices of the elements of a burst of tiles. -/
def Run.tileLins (r : Run) (b : Burst) : List Nat := ((r.burstTiles b).map fun e => e.1.lins r.d).flatten

/-- A burst of tiles leaves, with its counts (R265, R270, R277). -/
def State.emitTiles (s : State) (r : Run) (b : Burst) (outs : List TileOut) : State :=
  let els := (outs.map TileOut.els).flatten
  let comp := (outs.filter fun t => t.fmt != 0).length
  let back := (outs.filter fun t => t.fallback).length
  let s := s.dropBurst r b (b.marked (r.allTileVas b))
  let s := ((s.ctxInc r.m r.ch 5 63 32 comp).ctxInc r.m r.ch 5 31 0 back).inc (Reg.MOVER.MOVER_FALLBACK r.m) back
  let s := s.addRunCnt r (outs.foldl (fun c t => c.add t.cnt) Cnt.none)
  s.emit r b.n b.pages els ((els.map fun e => e.bit / 512).eraseDups)

/-- The pages of D that a burst of tiles reaches are translated, once it is known what it writes (R181, R268; log entry 96). -/
def State.bindTiles (s : State) (r : Run) (b : Burst) : State × (Flt ⊕ Bound) :=
  if (r.remote s).isSome then (s, .inr b.pages)
  else s.bindParts r.src r.job [(roleD, r.d, true, ((s.tileOuts r b (r.burstTiles b)).2.map fun t => ends t.els).flatten)] b.pages

/-- Write the head burst of tiles, or fault over what keeps it from being written (R268, R277 to R280). -/
def State.writeTiles (s : State) (r : Run) (b : Burst) : State :=
  let values := ((r.burstTiles b).map fun e => if r.a.compressed then r.tileVas e.1 e.2.1 e.2.2 else r.valueVas e.1).flatten
  if s.cutOff r then s.runFault r (r.tileLins b) (noDevice r.d r.job)
  else match (if r.a.compressed then none else (b.marked (r.allTileVas b)).head?) with
    | some va => s.runFault r (r.tileLins b) (r.poisonFlt values va)
    | none => match s.bindTiles r b with
      | (s, .inl f) => s.runFault r (r.tileLins b) f
      | (s, .inr pages) =>
        let b := { b with pages := pages }
        let out := s.tileOuts r b (r.burstTiles b)
        match s.barOf r pages (b.marked (r.tilesConsumed s b)) (out.2.map TileOut.els).flatten with
        | .far => s.runFault r (r.tileLins b) (noDevice r.d r.job)
        | .poison va => s.runFault r (r.tileLins b) (r.poisonFlt values va)
        | .kill sec => s.runKill r (r.tileLins b) roleD sec
        | .open_ => out.1.emitTiles r b out.2

/-! ### Which tiles a burst holds (R268) -/

/-- What a tile asks for first: the header of a tile of a compressed source, which tells its length, else all that it is made
from; role, descriptor, write, addresses. -/
def Run.askTile (r : Run) (p : TilePos) (k : Nat) : List (Nat × TD × Bool × List Nat) :=
  if r.a.compressed then [(roleA, r.a, false, (List.range 16).map (r.a.tileVa k + ·))]
  else [(roleA, r.a, false, r.valueVas p), (roleA + 8, r.a, false, r.scaleVas p)]

/-- The parts of a tile to translate as it is begun: its slot, where it is on this device, and what it asks for first. -/
def Run.tileParts (r : Run) (far : Bool) (p : TilePos) (k : Nat) : List (Nat × TD × Bool × List Nat) :=
  (if far then [] else [(roleD, r.d, true, [r.d.tileVa k])]) ++ r.askTile p k

/-- The source addresses of some parts. -/
def sourceVas (parts : List (Nat × TD × Bool × List Nat)) : List Nat :=
  ((parts.filter fun e => !e.2.2.1).map fun e => e.2.2.2).flatten

/-- A burst of tiles asks for more: its pages are translated first (R181, R268, R280). -/
def State.askMore (s : State) (r : Run) (b : Burst) (parts : List (Nat × TD × Bool × List Nat)) (last : Nat) (lens : List Nat) :
    State :=
  match s.bindParts r.src r.job parts b.pages with
  | (s, .inl f) => s.runFault r (r.tileLins { b with last := last, lens := lens ++ [0] }) f
  | (s, .inr pages) =>
    let new := (unitsAt pages (sourceVas parts)).filter fun u => !b.reads.any fun p => p.pa == u.1
    let f := fun (x : Burst) => { x with pages := pages, todo := new, last := last, lens := lens }
    s.mapRun r.m r.ch fun x => { x with next := last, bursts := mapIf (fun y => y.n == b.n) f x.bursts }

/-- A burst of tiles is complete: what it writes brings its sectors to the burst size, no tile is left, or it cannot be written
(R268). -/
def State.tilesEnd (s : State) (r : Run) (b : Burst) : Bool :=
  let outs := (s.tileOuts r b (r.burstTiles b)).2
  let secs := (outs.map fun t => ((t.els.map fun e => e.bit / 512).eraseDups).length).sum
  decide (s.burstSect r.m r.ch ≤ secs) || decide (r.total ≤ b.last) || s.cutOff r ||
    (!r.a.compressed && !(b.marked (r.allTileVas b)).isEmpty)

/-- The next thing that a burst of tiles asks for, once all that it asked for has come: the rest of a tile of a compressed source
by the LENGTH of its header, or the next tile; none where the burst is complete (R268, R278). -/
def State.growTiles (s : State) (r : Run) (b : Burst) : Option State :=
  if b.lens.length < b.last - b.first then
    let k := b.last - 1
    let len := r.copyLen b k s.freeCtr
    some (s.draw.askMore r b [(roleA, r.a, false, (List.range len).map (r.a.tileVa k + ·))] b.last (b.lens ++ [len]))
  else if s.tilesEnd r b then none
  else match (tilesOf r.d)[b.last]? with
    | none => none
    | some p => some (s.askMore r b (r.tileParts (r.remote s).isSome p b.last) (b.last + 1)
        (if r.a.compressed then b.lens else b.lens ++ [0]))

/-! ### A channel goes on -/

/-- A channel has a burst to issue within its outstanding limit, once the draws of earlier instructions are made; a burst of
tiles follows the one before when that is written (R77, R264). -/
def State.canCut (s : State) (r : Run) : Bool :=
  decide (r.next < r.total) && decide (s.outstanding r.m < r.limit) && !(r.insn.draws && s.drawsAhead r.core r.insn) &&
    (!r.d.compressed || r.bursts.isEmpty)

/-- A paced channel finds no request on its line (R275). -/
def State.noRequest (s : State) (r : Run) : Bool :=
  bitOf (s.ctx r.m r.ch 0) 62 && s.get (Reg.MOVER.LINE_COUNT r.m (s.ctxF r.m r.ch 0 61 57)) == 0

/-- What a burst asks for: the unit after its last, its elements, its parts to translate, its source addresses, and the bytes
that its tiles take. -/
structure BurstPlan where
  last : Nat
  els : List Nat
  parts : List (Nat × TD × Bool × List Nat)
  vas : List Nat
  lens : List Nat
deriving DecidableEq, Repr

/-- The next burst of a channel: of sectors, or of tiles, of which the first is asked for (R268). -/
def State.plan (s : State) (r : Run) : BurstPlan :=
  if r.d.compressed then
    match (tilesOf r.d)[r.next]? with
    | some p =>
      let parts := r.tileParts (r.remote s).isSome p r.next
      ⟨r.next + 1, p.lins r.d, parts, sourceVas parts, if r.a.compressed then [] else [0]⟩
    | none => ⟨r.total, [], [], [], []⟩
  else
    let last := min r.total (r.next + s.burstSect r.m r.ch)
    let c := r.cut r.next last
    ⟨last, c.els, r.parts s c, r.burstVas c, []⟩

/-- The next burst of a channel can be issued, or it is its turn to fault: behind open bursts, one whose device cannot be reached
or whose pages do not translate waits (R280, R309). -/
def State.cuttable (s : State) (r : Run) : Bool :=
  r.bursts.isEmpty || (!s.cutOff r && (match (s.bindParts r.src r.job (s.plan r).parts []).2 with
    | .inl _ => false
    | .inr _ => true))

/-- A channel has reads of an open burst to issue, within its limit (R264). -/
def State.hasReads (s : State) (r : Run) : Bool :=
  decide (s.outstanding r.m < r.limit) && r.bursts.any fun b => !b.todo.isEmpty

/-- A channel can proceed (R272). -/
def State.canProceed (s : State) (r : Run) : Bool := s.hasReads r || (s.canCut r && !s.noRequest r && s.cuttable r)

/-- Another channel of the mover goes first (R272). -/
def Run.before (x r : Run) : Bool := x.m == r.m && (decide (r.prio < x.prio) || (x.prio == r.prio && decide (x.order < r.order)))

/-- Another channel of the mover has the beat (R272). -/
def State.behind (s : State) (r : Run) : Bool := s.runs.any fun x => x.before r && s.canProceed x

/-- Moving channels that lose the beat are pre-empted (R272). -/
def State.preempt (s : State) (r : Run) : State :=
  (s.runs.filter fun x => x.m == r.m && x.ch != r.ch && s.canProceed x && s.ctxF x.m x.ch 1 3 0 == 2).foldl (fun s x =>
    ((s.putChan x.m x.ch x.tag 3).ctxInc x.m x.ch 6 63 32 1).inc (Reg.MOVER.MOVER_PREEMPT x.m) 1) s

/-- A channel that has the beat issues the reads of its open bursts that wait, within the limit (R264, R272). -/
def State.issueWaiting (s : State) (r : Run) : State :=
  if s.hasReads r ∧ !s.behind r then ((s.preempt r).putChan r.m r.ch r.tag 2).pumpAll r else s

/-- Write every burst of a channel that is ready, in order, and look whether the transfer is complete; a burst of tiles may ask for
more instead. -/
def State.settleN (s : State) (m ch : Nat) : Nat → State
  | 0 => s.tryFinish m ch
  | k + 1 =>
    match s.run? m ch with
    | none => s
    | some r => match r.bursts with
      | [] => s.tryFinish m ch
      | b :: _ =>
        if !b.full then s
        else if !r.d.compressed then State.settleN (s.writeBurst r b) m ch k
        else match s.growTiles r b with
          | none => State.settleN (s.writeTiles r b) m ch k
          | some t => State.settleN (match t.run? m ch with
            | some x => t.issueWaiting x
            | none => t) m ch k

/-- A channel goes on as far as it can: it issues the reads that its mover's limit lets out, and writes the bursts that have
come. -/
def State.settle (s : State) (m ch : Nat) : State :=
  match s.run? m ch with
  | none => s
  | some r => (s.issueWaiting r).settleN m ch (r.bursts.length + 1 + (if r.d.compressed then 2 * r.total else 0))

/-- The channels of mover m go on, those of higher priority first (R272). -/
def State.settleMover (s : State) (m : Nat) : State :=
  [3, 2, 1, 0].foldl (fun s p => (s.runs.filter fun r => r.m == m && r.prio == p).foldl (fun s r => s.settle r.m r.ch) s) s

/-- Every channel goes on as far as it can. -/
def State.settleAll (s : State) : State := s.runs.foldl (fun s r => s.settle r.m r.ch) s

/-! ### BURST_ISSUE (R264, R268, R272, R275) -/

/-- A channel takes the beat: a paced one takes its request, others are pre-empted (R272, R275). -/
def State.takeBeat (s : State) (r : Run) : State :=
  let line := Reg.MOVER.LINE_COUNT r.m (s.ctxF r.m r.ch 0 61 57)
  let s := if bitOf (s.ctx r.m r.ch 0) 62 then s.put line (s.get line - 1) else s
  ((s.preempt r).putChan r.m r.ch r.tag 2).mapRun r.m r.ch fun x => { x with waitingReq := false }

/-- A burst is cut: its reads go out as far as the limit lets them (R264, R268). -/
def State.openBurst (s : State) (r : Run) (p : BurstPlan) (pages : Bound) : State :=
  let b : Burst := ⟨r.burstNo, r.next, p.last, [], pages, unitsAt pages p.vas, p.lens⟩
  ((s.takeBeat r).mapRun r.m r.ch fun x =>
    { x with next := p.last, bursts := x.bursts ++ [b], burstNo := x.burstNo + 1 }).settleMover r.m

/-- Cut the next burst: every page that it touches is translated before it asks for anything. A fault is taken when every
burst before it is written; the burst that faults takes no request (R268, R275, R280). -/
def State.cutBurst (s : State) (r : Run) : State :=
  let p := s.plan r
  match s.bindParts r.src r.job p.parts [] with
  | (s', .inl f) => if r.bursts.isEmpty then (s'.runFault r p.els f).settleMover r.m else s
  | (s', .inr pages) => s'.openBurst r p pages

/-- BURST_ISSUE: a channel that has the beat issues what its open bursts still have to read, or else one more burst (R268, R272,
R275). -/
def State.burstIssue (s : State) (m ch : Nat) : State :=
  match s.run? m ch with
  | none => s
  | some r =>
    if s.hasReads r then (if s.behind r then s else s.settle m ch)
    else if !s.canCut r then s
    else if s.noRequest r then (s.putChan m ch r.tag 4).mapRun m ch fun x => { x with waitingReq := true }
    else if s.behind r then s
    else if s.cutOff r then (if r.bursts.isEmpty then (s.runFault r [] (noDevice r.d r.job)).settleMover m else s)
    else s.cutBurst r

/-- BURST_ISSUE. -/
def execBurstIssue (m : MoverIx) (ch : Fin 4096) (s : State) : Out := whenLive s fun s => s.burstIssue m.val ch.val

/-! ### The mover's registers (R265, R274, R281) -/

/-- MOVER_REQ_RAISE (R274). -/
def State.reqRaise (s : State) (m v : Nat) : State :=
  if s.moverPresent m then s.raiseLine m (bitsOf v 36 32) (bitsOf v 15 0) else s

/-- A write to MOVER_REQ_RAISE. -/
def execMoverReqRaise (m : MoverIx) (value : BitVec 64) (s : State) : Out :=
  whenBar s false fun s => s.reqRaise m.val value.toNat

/-- The bits of word 0 of a context that a write sets: its reserved bits stay zero (R8, R265). -/
def ctxMask (v : Nat) : Nat :=
  bitsOf v 5 0 + bitsOf v 38 36 * 2 ^ 36 + bitsOf v 52 40 * 2 ^ 40 + bitsOf v 63 57 * 2 ^ 57

/-- The mcopy of a core's stream that waits for a slot of its priority: the oldest of its queue that has not dispatched, on a
channel that is idle (R265, R266, R271). -/
def State.slotWaiter (s : State) (n : Nat) : Option Insn :=
  if 8 ≤ n then none
  else match s.oldest n 3 with
    | some i => if i.op = 0x30 ∧ s.ctxF n (i.mod 35 24) 1 3 0 = 0 ∧ !s.moverFree n i then some i else none
    | none => none

/-- Word k of a channel context as it reads: an idle channel whose mcopy waits for a slot shows STATE 1 (R265). -/
def State.ctxView (s : State) (m ch k : Nat) : Nat :=
  match s.slotWaiter m with
  | some i => if k = 1 ∧ i.mod 35 24 = ch then i.tag % 2 ^ 32 * 2 ^ 32 + 1 else s.ctx m ch k
  | none => s.ctx m ch k

/-- A channel is idle: its STATE reads 0 (R265). -/
def State.chanIdle (s : State) (m ch : Nat) : Bool := s.ctxView m ch 1 % 16 == 0

/-- Sill firmware writes word k of the selected context: word 0 only while the channel is idle; words 2 to 6 it may clear, on an
idle channel; words 1 and 7 never, since the mover holds the one and the other is reserved (R265). -/
def State.ctxWrite (s : State) (m k v : Nat) : State :=
  let ch := s.get (Reg.MOVER.CTX_SEL m)
  if !s.moverPresent m ∨ k = 1 ∨ 7 ≤ k then s
  else if k = 0 then if s.chanIdle m ch then s.setCtx m ch 0 (ctxMask v) else s.put (Reg.MOVER.CTX_BUSY m) 1
  else if s.chanIdle m ch ∧ v = 0 then s.setCtx m ch k 0
  else s

/-- A write to CTX_DATA: a host's is ignored, and recorded when it would change the word (R281, R550). -/
def State.ctxDataWrite (s : State) (m k v : Nat) (sill : Bool) : State :=
  if sill then s.ctxWrite m k v
  else if s.moverPresent m ∧ s.ctxView m (s.get (Reg.MOVER.CTX_SEL m)) k ≠ v then s.hostRefused (moverBase m + 0x10 + 8 * k) v
  else s

/-- CTX_DATA_WRITE. -/
def execCtxDataWrite (m : MoverIx) (k : Fin 8) (value : BitVec 64) (sill : Bool) (s : State) : Out :=
  whenBar s sill fun s => s.ctxDataWrite m.val k.val value.toNat sill

end Sys2Proof.Machine
end

