-- ==== Sys2Proof/Machine/Window.lean ====
section
/-!
DEFINITION. Machine/Window.lean: the memory windows (chapter 8): granting tags, responses, timeouts, the link's
replay and retraining (of doors too, R310), failure, hot channels, and the bring-up of windows and sleds.
-/

namespace Sys2Proof.Machine

/-! ### Tags and admission (R235, R236) -/

/-- A sled memory test of the window is running (R260). -/
def State.inTest (s : State) (w : Nat) : Bool :=
  s.host.tests.any fun t => (t.kind == 3 || t.kind == 4) && bitOf t.mask w && t.running

/-- A head may take a tag: its channel is below its cap, and a window under test admits job 0 alone (R236,
R260). -/
def State.admissible (s : State) (w : Nat) (r : MemReq) : Bool :=
  decide (((s.win w).onChan (s.locate r.pa).2.1).length < s.chanCap w) && (!s.inTest w || r.job == 0)

/-- The admissible head whose queue comes first after the queue served last (R236). -/
def State.nextHead (s : State) (w : Nat) : Option MemReq :=
  (List.range 38).findSome? fun k =>
    match (s.win w).head (((s.win w).lastQueue + 1 + k) % 38) with
    | some r => if s.admissible w r then some r else none
    | none => none

/-- The window carries traffic: it is in the map and neither failed nor excluded (R258). -/
def State.winOpen (s : State) (w : Nat) : Bool :=
  let st := s.get (Reg.WIN.STATE w)
  st == 4 || st == 5 || st == 6

/-- Give a tag to a request (R235). PEAK takes the most tags that are in use as one is given: after a read it stands at 0 until the
next grant (R262; log entry 115). -/
def State.putTag (s : State) (w : Nat) (t : TagSt) : State :=
  let s := s.setWin w { s.win w with tags := (s.win w).tags ++ [t] }
  s.peak (Reg.WIN.PEAK w) (s.win w).tags.length

/-- Take a tag back. -/
def State.freeTag (s : State) (w tag : Nat) : State :=
  s.setWin w { s.win w with tags := (s.win w).tags.filter fun t => t.tag ≠ tag }

/-- The base address of the sector that holds an address. -/
def sectorPa (pa : Nat) : Nat := pa / 64 * 64

/-- The message of a request with a tag enters the link's transmit queue (R233, R235). -/
def State.transmit (s : State) (w : Nat) (t : TagSt) : State :=
  s.setLink w ((s.link w).send (t.req.message t.tag t.sector) [t.tag])

/-- A WRP goes to the sector of a timed-out write under a new tag: the sector becomes poisoned (R242, R247). How it gets that tag
is not stated: it takes it ahead of the rotation, in no admission queue and whatever CHAN_CAP says (log entry 115). -/
def State.sendWrp (s : State) (w tag : Nat) (e : TagSt) : State :=
  let t := { e with tag := tag, granted := s.now, phase := 2 }
  let s := (s.setPoison (sectorPa e.req.pa)).inc (Reg.WIN.POISON_TX w) 1
  ((s.putTag w t).transmit w { t with req := { t.req with poison := true } }).noteHot w

/-- A write that replaces a sector whole ends what a sled's error in it could still do to reads that were admitted before
(R242). -/
def State.noteReplaced (s : State) (w : Nat) (r : MemReq) : State :=
  if r.write ∧ !r.poison ∧ r.full then
    let f := fun (t : TagSt) => { t with stale := true }
    s.setWin w { s.win w with tags := mapIf (fun t => !t.req.write && t.req.pa / 64 == r.pa / 64) f (s.win w).tags }
  else s

/-- A request takes a tag and enters the transmit queue (R235 to R237). The sled performs requests to one sector in the order
of the grants, so a read's data and its poison mark, and a write's effect, are settled here. -/
def State.takeTag (s : State) (w tag : Nat) (r : MemReq) : State :=
  let at_ := s.locate r.pa
  let (s, r, data, bad) := s.perform w r
  let s := s.setWin w { s.win w with lastQueue := r.queue, lastSec := assocPut at_.2.1 at_.2.2 (s.win w).lastSec }
  let s := if r.write ∧ r.poison then s.inc (Reg.WIN.POISON_TX w) 1 else s
  let t : TagSt := { tag := tag, req := r, channel := at_.2.1, sector := at_.2.2, granted := s.now, data := data, poison := bad,
                     phase := 0 }
  (((s.noteReplaced w r).putTag w t).transmit w t).noteHot w

/-- TAG_GRANT: a WRP that waits for a tag goes first, else the rotation's head (R235, R236, R247). -/
def State.grant (s : State) (w : Nat) : State :=
  let x := s.win w
  if s.fe ∨ !s.winOpen w then s
  else match x.freeTag, x.wrps with
    | none, _ => s
    | some tag, e :: rest => (s.setWin w { x with wrps := rest }).sendWrp w tag e
    | some tag, [] =>
      match s.nextHead w with
      | none => s
      | some r => s.takeTag w tag r

/-- TAG_GRANT. -/
def execTagGrant (w : WinIx) (s : State) : Out := whenLive s fun s => s.grant w.val

/-! ### Responses (R238 to R243, R248) -/

/-- A record of a window about a tag (R261). -/
def State.winRec (s : State) (w code cls job : Nat) (t : TagSt) : State :=
  s.addRec (mkRec (0x100 + w) 8 cls job code (winSynd t.sector t.tag t.channel t.req.src t.req.write))

/-- A message that breaks the protocol is discarded, counted and recorded (R243). -/
def State.winProtocol (s : State) (w synd : Nat) : State :=
  (s.inc (Reg.WIN.PROTO_ERR w) 1).ce (0x100 + w) 8 0x43 synd

/-- The source of the snapshot unit's mover (R21). -/
def copySrc : Nat := 0x509

/-- A read of a snapshot copy comes back poisoned, which is no consumption: the copy keeps the sector as poisoned (R437). -/
def State.noteBad (s : State) (pa : Nat) : State :=
  let bad := fun (b : Block) => { b with bad := setInsert (pa % 2 ^ 21 / 64) b.bad }
  { s with snap := { s.snap with blocks := mapIf (fun b => b.state != 2 && b.pa / 2 ^ 21 == pa / 2 ^ 21) bad s.snap.blocks } }

/-- A walk has read a poisoned table sector: the access that asked for it faults with reason 8, and the job is killed (R186). The
access has gone on with the entry, so that its address and the entry's level are free (log entry 8): an engine's is an operand of
the oldest instruction that the engine has in flight, a core's own a fetch; another unit has a record of its own. -/
def State.walkPoison (s : State) (r : MemReq) : State :=
  let va := Config.openValue 8 s.freeCtr % 2 ^ 57
  let level := Config.openValue 8 (s.freeCtr + 1) % 4
  let n := r.src % 65536
  let f : Flt := ⟨cADDRESS, if r.src < 65536 then 5 else 0, 0, addrDetail va 8 level r.job⟩
  let s := s.draw.draw.xfail n r.job va 8 level false
  if n < 8 ∧ 65536 ≤ r.src then
    match (s.core n).window.find? fun i => i.dispatched && unitOfOp i.op == r.src / 65536 with
    | some i => s.takeFault n i f
    | none => s.walkKill r.job n 8
  else if n < 8 ∧ s.streamState n = 1 then s.fetchFault n va f
  else (s.addRec (mkRec n (if 0x500 ≤ n then 5 else if n = 0x402 then 0x0B else if n = 0x403 then 0x0C else
    if n = 0x404 then 0x0D else 0x0E) 1 r.job cADDRESS f.synd)).walkKill r.job n 8

/-- The monitors that core n has armed on words of a sector (R300). -/
def State.ownWatch (s : State) (n pa : Nat) : List Nat :=
  (s.watching (sectorPa pa) 64).filter fun m => s.get (Reg.BARRIER.MON_CORE m) == n

/-- A unit's read comes back poisoned although the unit took good data when it asked: it has consumed poisoned data
(R25, R241). The read of a mwait that has armed its monitor on the sector is consumed by that mwait, which faults (R301). Which
virtual address a record names is not known any more: free (log entry 8). -/
def State.echoPoison (s : State) (r : MemReq) : State :=
  let bad := fun unit => (s.draw.unitConsume r.job r.src unit (Config.openValue 8 s.freeCtr))
  if r.queue < 8 then
    match (s.core r.queue).fetched.find? (fun f => f.pa / 64 * 64 == r.pa), s.ownWatch r.queue r.pa with
    | some f, _ => s.fetchFault r.queue f.addr ⟨cPOISON, 5, 0, f.addr⟩
    | none, [] => bad 1
    | none, l => s.noteHits ((l.filter fun m => !(s.net.monWrites.any fun e => e.1 == m + 256)).map fun m => (m + 256, 0))
  else if r.src = copySrc then s.noteBad r.pa
  else if r.queue < 18 then bad 5
  else if r.queue = 34 then bad 0x0B
  else if r.queue = 35 then bad 0x0C
  else if r.queue = 36 then bad 0x0D
  else s.walkPoison r

/-- The words of a sector that an issue unit has fetched are those that have come (R192, R238). -/
def State.takeWords (s : State) (r : MemReq) (data : Bytes) : State :=
  let word := fun (f : Fetched) => { f with word := BitVec.ofNat 128 (natOf (slice (f.pa % 64) 16 data)) }
  s.setCore r.queue { s.core r.queue with
    fetched := mapIf (fun f => f.pa / 64 * 64 == r.pa) word (s.core r.queue).fetched }

/-- A request is complete: its owner has its data or its acknowledgement, and the mover it came from goes on (R238, R239,
R264). -/
def State.completeReq (s : State) (r : MemReq) (data : Bytes) (poison : Bool) : State :=
  let s := if r.owner = .unit ∧ !r.write then
      (if poison then (if r.poison then s else s.echoPoison r) else if r.queue < 8 then s.takeWords r data else s) else s
  let s := s.complete r data poison
  if 8 ≤ r.queue ∧ r.queue < 18 then s.settleMover (r.queue - 8) else s

/-- A read completes at its window, and its round trip is measured. -/
def State.readDone (s : State) (w : Nat) (t : TagSt) (data : Bytes) (poison : Bool) : State :=
  let rtt := s.now - t.granted
  let s := ((s.inc (Reg.WIN.READ_SECTORS w) 1).inc (Reg.WIN.CHAN_SECT w t.channel) 1).peak (Reg.WIN.RTT_MAX_NS w) rtt
  let recent := (s.win w).rtts.filter fun e => decide (s.now < e.1 + 1000)
  (s.setWin w { s.win w with rtts := recent ++ [(s.now, rtt)] }).completeReq t.req data poison

/-- A write is acknowledged at its window: the monitors of the words that it changed take the values that it left (R239,
R300). -/
def State.writeDone (s : State) (w : Nat) (t : TagSt) : State :=
  let s := (s.inc (Reg.WIN.WRITE_SECTORS w) 1).inc (Reg.WIN.CHAN_SECT w t.channel) 1
  let s := if t.phase = 0 then s.noteHits t.req.hits else s
  s.completeReq t.req [] false

/-- The sled cannot give the data of a sector: the sector is poisoned in main memory, unless it has been replaced whole since
the read was admitted (R241, R242). Whether the sled can give it to a later read is not stated: the sector stays poisoned until
it is replaced whole (log entry 115). -/
def State.sledPoison (s : State) (t : TagSt) : State := if t.poison ∨ t.stale then s else s.setPoison (sectorPa t.req.pa)

/-- The request timeout in ns. -/
def State.winTimeout (s : State) (w : Nat) : Nat := max 1 (s.get (Reg.WIN.TIMEOUT_US w)) * 1000

/-- Mark a tag as timed out. -/
def State.setPhase (s : State) (w tag p : Nat) : State :=
  let f := fun (t : TagSt) => { t with phase := p }
  s.setWin w { s.win w with tags := mapIf (fun t => t.tag == tag) f (s.win w).tags }

/-- The monitors of a sector's words are consumed as poisoned (R301). -/
def State.consumeMonitors (s : State) (pa : Nat) : State :=
  s.noteHits ((s.watching (sectorPa pa) 64).map fun m => (m + 256, (0 : BitVec 64)))

/-- A read times out: it completes as poisoned, and its tag stays in use (R247, R248). -/
def State.expireRead (s : State) (w : Nat) (t : TagSt) : State :=
  let s := s.inc (Reg.WIN.TIMEOUT_CNT w) 1
  ((s.winRec w 0x41 1 t.req.job t).setPhase w t.tag 1).readDone w t (List.replicate 64 0) true

/-- A write times out: a WRP follows to the sector, under a new tag once one is free; a WRP that times out fails the
window (R247, R249, R301). -/
def State.expireWrite (s : State) (w : Nat) (t : TagSt) : State :=
  let s := (((s.inc (Reg.WIN.TIMEOUT_CNT w) 1).winRec w 0x42 1 t.req.job t).setPhase w t.tag 1).consumeMonitors t.req.pa
  if t.phase = 2 then s.setWin w { s.win w with failing := true }
  else match (s.win w).freeTag with
    | some new => s.sendWrp w new t
    | none => s.setWin w { s.win w with wrps := (s.win w).wrps ++ [t] }

/-- A request that still waits for a response has been given one in time, or times out before the response is taken (R247). -/
def State.expire (s : State) (w : Nat) (t : TagSt) : State := if t.req.write then s.expireWrite w t else s.expireRead w t

/-- A response has come that is not in time any more. -/
def State.answerLate (s : State) (w : Nat) (t : TagSt) : Bool := t.phase != 1 && decide (t.granted + s.winTimeout w < s.now)

/-- What a response does to the tag that it names, once a request that is too late has timed out: kind 0 is RDD, 1 RDP, 2 WACK.
A late response to a timed-out tag frees it (R238, R239, R241, R248). -/
def State.answer (s : State) (w kind : Nat) (t : TagSt) : State :=
  if t.phase = 1 then ((s.freeTag w t.tag).inc (Reg.WIN.LATE_DISCARD w) 1).noteHot w
  else if kind = 2 then ((s.freeTag w t.tag).writeDone w t).noteHot w
  else if kind = 1 then
    let s := ((s.freeTag w t.tag).sledPoison t).inc (Reg.WIN.POISON_RX w) 1
    ((s.winRec w 0x40 0 0 t).readDone w t (List.replicate 64 0) true).noteHot w
  else if t.poison then s
  else ((s.freeTag w t.tag).readDone w t t.data t.mesh).noteHot w

/-- A message has come over a window's link, in a flit that is intact; how many of this device's flits that flit acknowledges is
free, and one that answers a tag shows what has reached the sled (R244; log entry 87). -/
def State.heard (s : State) (w : Nat) (tag : Option Nat) : State :=
  let l := (s.link w).received
  let l := l.ackSome (Config.openValue 87 s.freeCtr % (l.replay.length + 1))
  s.draw.setLink w (match tag with
    | some t => l.drain.ackTag t
    | none => l.drain)

/-- The sled of a window may send messages: the window has been started and is not left out (R258). -/
def State.winTalks (s : State) (w : Nat) : Bool := s.get (Reg.WIN.STATE w) != 0 && s.get (Reg.WIN.STATE w) != 7

/-- A response for a tag (R238, R239, R243). -/
def State.response (s : State) (w tag kind : Nat) : State :=
  if !s.winTalks w then s
  else match (s.win w).tags.find? (fun t => t.tag == tag) with
    | none => (s.heard w none).winProtocol w (winSynd 0 tag 0 0 false)
    | some t =>
      let s := s.heard w (some tag)
      if t.req.write ≠ (kind == 2) then s.winProtocol w (winSynd t.sector t.tag t.channel t.req.src t.req.write)
      else if s.answerLate w t then (s.expire w t).answer w kind { t with phase := 1 }
      else s.answer w kind t

/-- RDD: the sled returns the data that its sector held when the request was performed; a poisoned sector is not
answered so (R238, R241). -/
def execRdd (w : WinIx) (tag : BitVec 12) (s : State) : Out := whenLive s fun s => s.response w.val tag.toNat 0

/-- RDP (R241). -/
def execRdp (w : WinIx) (tag : BitVec 12) (s : State) : Out := whenLive s fun s => s.response w.val tag.toNat 1

/-- WACK (R239). -/
def execWack (w : WinIx) (tag : BitVec 12) (s : State) : Out := whenLive s fun s => s.response w.val tag.toNat 2

/-- MGMT: a message whose header gives the operation op. A whole message of an operation that the table lists from the sled changes
nothing here, since RDD, RDP, WACK, the identity record, the challenge response and READY have commands of their own; a message
that is short, or of another operation, is a protocol error (R233, R243). -/
def State.mgmtMsg (s : State) (w op : Nat) (whole : Bool) : State :=
  if !s.winTalks w then s
  else if whole ∧ (op ≤ 3 ∨ op = 7) then s.heard w none
  else (s.heard w none).winProtocol w 0

/-- MGMT. -/
def execMgmt (w : WinIx) (op : BitVec 3) (whole : Bool) (s : State) : Out :=
  whenLive s fun s => s.mgmtMsg w.val op.toNat whole

/-! ### Timeouts (R247) -/

/-- READ_TIMEOUT (R247). -/
def State.readTimeout (s : State) (w tag : Nat) : State :=
  match (s.win w).tags.find? (fun t => t.tag == tag && t.phase == 0 && !t.req.write) with
  | none => s
  | some t => (s.passTo (t.granted + s.winTimeout w)).expireRead w t

/-- READ_TIMEOUT. -/
def execReadTimeout (w : WinIx) (tag : BitVec 12) (s : State) : Out :=
  whenLive s fun s => s.readTimeout w.val tag.toNat

/-- WRITE_TIMEOUT (R247, R249). -/
def State.writeTimeout (s : State) (w tag : Nat) : State :=
  match (s.win w).tags.find? (fun t => t.tag == tag && t.req.write && (t.phase == 0 || t.phase == 2)) with
  | none => s
  | some t => (s.passTo (t.granted + s.winTimeout w)).expireWrite w t

/-- WRITE_TIMEOUT. -/
def execWriteTimeout (w : WinIx) (tag : BitVec 12) (s : State) : Out :=
  whenLive s fun s => s.writeTimeout w.val tag.toNat

/-! ### Links: replay, retraining, failure (R244 to R249, R310, R318, R329) -/

/-- The link-state field of a door's pair: doors 0 to 14 have one link (R330). -/
def doorLink (d k : Nat) : Nat := if d = 15 then k else 0

/-- The number of a link (R244). -/
def linkNo : Link → Nat
  | .win w => w.val
  | .door d k => doorLinkNo d.val k.val

/-- Change this device's end of a link. -/
def State.mapLink (s : State) (k : Nat) (f : LinkSt → LinkSt) : State := s.setLink k (f (s.link k))

/-- FLIT_CRC_FAIL: a flit whose CRC does not fit is discarded and counted, and so is what follows it until the replay comes; the
NAK goes out in the next flit (R244). Bytes whose CRC fits are no such flit: that flit is received. -/
def State.crcFail (s : State) (l : Link) (f : Bytes) : State :=
  let got := fun (x : LinkSt) => if flitIntact f then x.hear f else x.crcFailed
  let n := if flitIntact f then 0 else 1
  match l with
  | .win w => if s.winTalks w.val then (s.mapLink (linkNo l) got).inc (Reg.WIN.CRC_ERR w.val) n else s
  | .door d k => if s.linkUsable d.val k.val then (s.mapLink (linkNo l) got).inc (Reg.DOOR.CRC_ERR d.val) n else s

/-- FLIT_CRC_FAIL. -/
def execFlitCrcFail (flit : FailedFlit) (s : State) : Out := whenLive s fun s => s.crcFail flit.link flit.bytes

/-- The lanes of a link that carry traffic: eight for each fibre pair in use (R231, R246, R305). -/
def State.lanesOf (s : State) (l : Link) : Nat :=
  8 * match l with
    | .win w => s.get (Reg.WIN.PAIRS w.val)
    | .door d k => s.get (Reg.DOOR.PAIRS d.val (doorLink d.val k.val))

/-- What a lane of a link carries of the flit that went out last (R232). -/
def State.laneOut (s : State) (l : Link) (lane : Nat) : Bytes :=
  match (s.link (linkNo l)).replay.getLast? with
  | some f => laneBytes (s.lanesOf l) lane ((s.link (linkNo l)).image f)
  | none => []

/-- NAK_RECEIVED: the transmitter resends the flits from ACK + 1, as far as its replay buffer holds them (R244). -/
def State.nak (s : State) (l : Link) (n : Nat) : State :=
  let again := fun (x : LinkSt) => x.received.resend n
  let sent := min n (s.link (linkNo l)).replay.length
  match l with
  | .win w => if s.winTalks w.val then (s.mapLink (linkNo l) again).inc (Reg.WIN.REPLAY w.val) sent else s
  | .door d k => if s.linkUsable d.val k.val then (s.mapLink (linkNo l) again).inc (Reg.DOOR.REPLAY d.val) sent else s

/-- NAK_RECEIVED. -/
def execNakReceived (l : Link) (resent : BitVec 9) (s : State) : Out := whenLive s fun s => s.nak l resent.toNat

/-- A window's link retrains because a flit has been replayed 8 times; where none has, because more codewords than the limit
were uncorrectable within 1 ms: they are counted, and how many they were is free (R245; log entry 97). -/
def State.retrainCause (s : State) (w : Nat) : State :=
  if (s.link w).stuck then s
  else s.draw.inc (Reg.WIN.FEC_UNCORR w) (s.get (Reg.WIN.UNCORR_LIMIT w) + 1 + Config.openValue 97 s.freeCtr)

/-- RETRAIN (R245). Doors have no counter of uncorrectable codewords (R330): that more than their limit have come is known by
this command alone. -/
def State.retrainLink (s : State) (l : Link) : State :=
  match l with
  | .win w =>
    if s.winOpen w.val then
      (((s.retrainCause w.val).put (Reg.WIN.STATE w.val) 5).inc (Reg.WIN.RETRAIN_CNT w.val) 1).ce (0x100 + w.val) 8 0x44 0
    else s
  | .door d k =>
    if s.linkUsable d.val k.val then
      ((s.put (Reg.DOOR.LINK_STATE d.val (doorLink d.val k.val)) 4).inc (Reg.DOOR.RETRAIN_CNT d.val) 1).ce
        (0x200 + d.val) 9 0x52 0
    else s

/-- RETRAIN. -/
def execRetrain (l : Link) (s : State) : Out := whenLive s fun s => s.retrainLink l

/-- Ask casement c for its spare in place of a pair: granted when it is free and FAR names the pair's far end. From then on a
calibration, one that runs among them, is held: CAL.STATE reads 2 (R329). -/
def State.askSpare (s : State) (c far pair : Nat) : State × Bool :=
  if s.get (Reg.CASE.SPARE_STATE c) = 0 ∧ s.get (Reg.CASE.SPARE_FAR c) = far then
    ((s.puts [(Reg.CASE.SPARE_STATE c, 1), (Reg.CASE.SPARE_FOR c, pair), (Reg.CASE.CAL_STATE c, 2)]).ce (0x300 + c) 0x0A 0x59 0,
      true)
  else (s, false)

/-- Ask for the spare for each pair of a list; the pairs that stay lost. -/
def State.askSpares (s : State) (c : Nat) (far name : Nat → Nat) : List Nat → State × List Nat
  | [] => (s, [])
  | k :: r =>
    let (s, got) := s.askSpare c (far k) (name k)
    let (s, l) := State.askSpares s c far name r
    (s, if got then l else k :: l)

/-- The outcome of a window's retraining (R245, R246, R248, R249). -/
def State.winRetrained (s : State) (w : Nat) (ok : Bool) (usable : Nat) : State :=
  let x := s.win w
  if s.get (Reg.WIN.STATE w) ≠ 5 then s
  else if !ok then s.setWin w { x with failures := x.failures + 1, failing := x.failing || decide (2 ≤ x.failures) }
  else
    let bad := (List.range 4).filter fun k => !bitOf usable k && !x.lost.contains k
    let (s, gone) := s.askSpares (w / 2) (fun _ => 1 + w % 2) (fun k => 4 * (w % 2) + k) bad
    let lost := x.lost ++ gone
    let s := s.setWin w { x with failures := 0, lost := lost, failing := x.failing || decide (3 ≤ lost.length),
                                 tags := x.tags.filter fun t => t.phase ≠ 1 }
    let s := (s.put (Reg.WIN.STATE w) (if s.inTest w then 6 else 4)).mapLink w LinkSt.resume
    let s := if gone.isEmpty then s
      else (s.puts [(Reg.WIN.PAIRS w, 4 - lost.length), (Reg.WIN.DEGRADED w, 1)]).ce (0x100 + w) 8 0x45 0
    s.noteHot w

/-- The pairs of a door's link: its three pairs, or one pair of door 15 (R306, R307). -/
def linkPairs (d k : Nat) : List Nat := if d = 15 then [k] else [0, 1, 2]

/-- The outcome of a door link's retraining (R245, R310, R318, R329). -/
def State.doorRetrained (s : State) (d k : Nat) (ok : Bool) (usable : Nat) : State :=
  let j := doorLink d k
  let key := d * 4 + j
  let fails := lookupD 0 key s.doors.failures
  if s.get (Reg.DOOR.LINK_STATE d j) ≠ 4 then s
  else if !ok then { s with doors := { s.doors with failures := assocPut key (fails + 1) s.doors.failures } }
  else
    let bad := (linkPairs d k).filter fun p => !bitOf usable p && !s.doors.lost.contains (d * 4 + p)
    let (s, gone) := s.askSpares d (fun p => 3 + p) (fun p => 8 + p) bad
    let s := { s with doors := { s.doors with failures := assocPut key 0 s.doors.failures,
                                              lost := s.doors.lost ++ gone.map (d * 4 + ·) } }
    let left := ((linkPairs d k).filter fun p => !s.doors.lost.contains (d * 4 + p)).length
    let s := (s.put (Reg.DOOR.LINK_STATE d j) 3).mapLink (doorLinkNo d k) LinkSt.resume
    if gone.isEmpty then s
    else (s.puts [(Reg.DOOR.PAIRS d j, left), (Reg.DOOR.DEGRADED d j, 1)]).ce (0x200 + d) 9 0x53 0

/-- RETRAIN_DONE: bit k of usable is set where pair k works. -/
def execRetrainDone (l : Link) (ok : Bool) (usable : BitVec 4) (s : State) : Out :=
  whenLive s fun s => match l with
    | .win w => s.winRetrained w.val ok usable.toNat
    | .door d k => s.doorRetrained d.val k.val ok usable.toNat

/-- A window goes DOWN: every outstanding read completes as poisoned, and the device takes the FE state (R249). -/
def State.winDown (s : State) (w : Nat) : State :=
  let reads := (s.win w).tags.filter fun t => !t.req.write && t.phase == 0
  let s := s.put (Reg.WIN.STATE w) 8
  let s := reads.foldl (fun s t => (s.freeTag w t.tag).readDone w t (List.replicate 64 0) true) s
  s.raiseFE (0x100 + w) 8 0x46 0

/-- LINK_DOWN: a window of the map that one of R249's cases has reached. -/
def execLinkDown (w : WinIx) (s : State) : Out :=
  whenLive s fun s => if s.winOpen w.val ∧ (s.win w.val).failing then s.winDown w.val else s

/-! ### Hot channels (R256) -/

/-- The queue that holds most of a channel's tags; the lowest of equals. -/
def WinSt.mostQueue (x : WinSt) (c : Nat) : Nat :=
  let n := fun q => ((x.onChan c).filter fun t => t.req.queue == q).length
  (List.range 38).foldl (fun best q => if n best < n q then q else best) 0

/-- A channel's event: the syndrome holds the channel, the queue in the place of the source, and the last sector
admitted to it (R256, R261; log entry 27). -/
def State.hotEvent (s : State) (w c : Nat) : State :=
  let x := s.win w
  let s := s.setWin w { x with hotRaised := x.hotRaised ++ [(c, none)] }
  let s := (s.puts [(Reg.WIN.HOT_ALERT w, 1), (Reg.WIN.HOT_CHANNEL w, c)]).inc (Reg.WIN.HOT_CNT w) 1
  s.ce (0x100 + w) 8 0x47 (winSynd (lookupD 0 c x.lastSec) 0 c (x.mostQueue c) false)

/-- HOT_CHANNEL: the dwell of a hot channel ends. -/
def State.hotChannel (s : State) (w c : Nat) : State :=
  let s' := s.noteHot w
  let x := s'.win w
  match x.hotSince.find? (fun e => e.1 == c) with
  | none => s
  | some e =>
    if s.get (Reg.WIN.HOT_EN w) = 0 ∨ !s.winOpen w ∨ x.hotRaised.any (fun r => r.1 == c) then s
    else (s'.passTo (e.2 + s.hotDwell w)).hotEvent w c

/-- HOT_CHANNEL. -/
def execHotChannel (w : WinIx) (ch : Fin 40) (s : State) : Out := whenLive s fun s => s.hotChannel w.val ch.val

/-! ### Bring-up (R258, R518, R253, R254, R536) -/

/-- The counters that the messages of a window's bring-up can have moved; a window that is left out keeps them at zero
(R262). -/
def startCounters (w : Nat) : List Fld :=
  [Reg.WIN.PROTO_ERR w, Reg.WIN.CRC_ERR w, Reg.WIN.REPLAY w, Reg.WIN.FEC_CORR w, Reg.WIN.FEC_UNCORR w]

/-- A window is left out of the map (R258, R262). -/
def State.exclude (s : State) (w : Nat) : State :=
  let s := s.puts ((startCounters w).map fun f => (f, 0))
  ((s.put (Reg.WIN.STATE w) 7).put Reg.FW.WINDOW_EXCLUDED 1).ce (0x100 + w) 8 0x48 0

/-- A window has not reached INIT within 12 ms (R258). -/
def State.pastInit (s : State) (w : Nat) : Bool := decide ((s.win w).startedAt + 12000000 < s.now)

/-- A verification has failed; LAST_VERIFY names it (R518, R525). -/
def State.verifyFail (s : State) (kind who reason : Nat) : State :=
  (s.inc Reg.SEC.VERIFY_FAIL 1).puts [(Reg.SEC.LAST_VERIFY_REASON, reason), (Reg.SEC.LAST_VERIFY_KIND, kind),
    (Reg.SEC.LAST_VERIFY_WHO, who)]

/-- A casement has a good feed (R532, R536). -/
def State.lit (s : State) (c : Nat) : Bool := s.get (Reg.CASE.A_OK c) == 1 || s.get (Reg.CASE.B_OK c) == 1

/-- A link of a door has a far end on its board; one that faces an absent tray stays OFF (R307; log entry 105). -/
def cabled (d k : Nat) : Bool := Config.openValue 105 (4 * d + k) % 2 == 1

/-- The peer that a link must have: device, door and pair (R306, R307). -/
def State.peerOf (s : State) (d k : Nat) : Nat × Nat × Nat :=
  let p := s.dev % 16
  let t := s.dev / 16
  if d = 15 then ((t + k + 1) % 4 * 16 + p, 15, 2 - k)
  else
    let q := d + (if p ≤ d then 1 else 0)
    (t * 16 + q, doorTo q p, 0)

/-- This device's HELLO for a door and pair: its number, the door and pair, its serial number, link version 2. Where they stand
in the payload is not stated: a free value of the numbers (R310, R322; log entry 102). -/
def State.ownHello (s : State) (d k : Nat) : Pkt :=
  { ty := 0x0A, h := s.hdr (0x200 + d) (s.peerOf d k).1 0 0 1,
    p := bytesOf 64 (Config.openValue 102 (s.dev + d * 2 ^ 6 + k * 2 ^ 10 + 2 * 2 ^ 12 + s.kept.serial * 2 ^ 20)) }

/-- From T_W the links of a door whose casement has light train; as a link has trained, this device's HELLO goes out, and STATE
reads HELLO until the peer's comes: no row tells when that is (R322, R535, R536; log entry 117). In the FE state the doors stay
down (R428). -/
def State.trainDoor (s : State) (d : Nat) : State :=
  ((if d = 15 then [0, 1, 2] else [0]).filter fun k => s.lit d && cabled d k && !s.fe).foldl (fun s k =>
    ((s.put (Reg.DOOR.LINK_STATE d k) 1).setLink (doorLinkNo d k) LinkSt.zero).sendOn d k (s.ownHello d k)) s

/-- WINDOWS_START: at T_W, when every casement is calibrated or 1 s has passed (R258, R535, R536). -/
def State.startWindows (s : State) : State :=
  let stage := s.get Reg.FW.STAGE
  if stage < 3 ∨ 5 ≤ stage then s
  else
    let s := if (List.range 16).all s.doors.calibrated.contains then s else s.passTo 1000000000
    let s := if (List.range 16).all s.lit then s else s.put Reg.FW.CASEMENT_DARK 1
    let s := (List.range 32).foldl (fun s w =>
      if s.lit (w / 2) then ((s.put (Reg.WIN.STATE w) 1).setWin w { s.win w with startedAt := s.now }).setLink w LinkSt.zero
      else s.exclude w) s
    ((List.range 16).foldl State.trainDoor s).put Reg.FW.STAGE 5

/-- WINDOWS_START. -/
def execWindowsStart (s : State) : Out := whenLive s State.startWindows

/-- WINDOW_LANES_LOCKED: the identity record is exchanged; its certificate is checked and the nonce sent (R258,
R259, R518). A window that finds fewer than two usable pairs here can carry nothing (R246): it is left out of the map as one
that comes too late is (log entry 98). -/
def State.lanesLocked (s : State) (w sledId cap channels ver pairs : Nat) (certOk : Bool) : State :=
  if s.get (Reg.WIN.STATE w) ≠ 1 then s
  else
    let s := s.puts [(Reg.WIN.STATE w, 2), (Reg.WIN.SLED_ID w, sledId), (Reg.WIN.CAP w, cap),
      (Reg.WIN.PAIRS w, min pairs 4), (Reg.WIN.DEGRADED w, ofBool (decide (pairs < 4)))]
    if cap = 0 ∨ 2 < cap ∨ channels ≠ 40 ∨ ver ≠ 1 ∨ pairs < 2 ∨ s.pastInit w then s.exclude w
    else
      let s := s.inc Reg.SEC.VERIFY_CNT 1
      if !certOk then (s.verifyFail 2 w 1).exclude w
      else
        let n := Config.random s.freeCtr
        let s := (s.setWin w { s.win w with nonce := some n, nonceAt := s.now, lost := (List.range 4).drop pairs }).draw
        s.mapLink w fun l => l.received.send (mgmtMessage (bytesOf 32 n)) []

/-- WINDOW_LANES_LOCKED. -/
def execWindowLanesLocked (w : WinIx) (sledId : BitVec 64) (cap channels : BitVec 8) (linkVer : BitVec 16)
    (pairs : BitVec 3) (certOk : Bool) (s : State) : Out :=
  whenLive s fun s =>
    s.lanesLocked w.val sledId.toNat cap.toNat channels.toNat linkVer.toNat pairs.toNat certOk

/-- A lower-numbered window that is verified already has the same SLED_ID (R518). -/
def State.duplicateSled (s : State) (w : Nat) : Bool :=
  (List.range w).any fun v => s.get (Reg.WIN.SLED_ID v) == s.get (Reg.WIN.SLED_ID w) &&
    (s.get (Reg.WIN.STATE v) == 3 || s.winOpen v)

/-- SLED_CHALLENGE_RESPONSE: the sled's signature over the nonce is checked (R518). -/
def State.sledAnswer (s : State) (w : Nat) (sigOk : Bool) : State :=
  let x := s.win w
  if s.get (Reg.WIN.STATE w) ≠ 2 ∨ x.nonce.isNone then s
  else
    let s := (s.mapLink w fun l => l.received.ackAll).setWin w { x with nonce := none }
    if s.pastInit w then s.exclude w
    else
    let s := s.inc Reg.SEC.VERIFY_CNT 1
    if x.nonceAt + 5000000 < s.now then (s.verifyFail 2 w 3).exclude w
    else if !sigOk then (s.verifyFail 2 w 2).exclude w
    else if s.duplicateSled w then (s.verifyFail 2 w 4).exclude w
    else s.put (Reg.WIN.STATE w) 3

/-- SLED_CHALLENGE_RESPONSE. -/
def execSledChallengeResponse (w : WinIx) (sigOk : Bool) (s : State) : Out :=
  whenLive s fun s => s.sledAnswer w.val sigOk

/-- SLED_VERIFY_TIMEOUT: no answer within 5 ms (R518). -/
def State.sledLate (s : State) (w : Nat) : State :=
  let x := s.win w
  if s.get (Reg.WIN.STATE w) ≠ 2 ∨ x.nonce.isNone then s
  else (((s.passTo (x.nonceAt + 5000000)).setWin w { x with nonce := none }).verifyFail 2 w 3).exclude w

/-- SLED_VERIFY_TIMEOUT. -/
def execSledVerifyTimeout (w : WinIx) (s : State) : Out := whenLive s fun s => s.sledLate w.val

/-- SLED_READY: the sled has initialized every sector; after 2 s the window is excluded (R242, R258). -/
def State.sledIsReady (s : State) (w : Nat) : State :=
  let x := s.win w
  if s.get (Reg.WIN.STATE w) ≠ 3 ∨ x.ready then s
  else if x.startedAt + 2000000000 < s.now then s.exclude w
  else (s.heard w none).setWin w { x with ready := true }

/-- SLED_READY. -/
def execSledReady (w : WinIx) (s : State) : Out := whenLive s fun s => s.sledIsReady w.val

/-- BRINGUP_TIMEOUT: not INIT by 12 ms, or not READY by 2 s (R258). -/
def State.bringupLate (s : State) (w : Nat) : State :=
  let x := s.win w
  let st := s.get (Reg.WIN.STATE w)
  if st = 1 ∨ st = 2 then (s.passTo (x.startedAt + 12000000)).exclude w
  else if st = 3 ∧ !x.ready then (s.passTo (x.startedAt + 2000000000)).exclude w
  else s

/-- BRINGUP_TIMEOUT. -/
def execBringupTimeout (w : WinIx) (s : State) : Out := whenLive s fun s => s.bringupLate w.val

/-- The windows that are neither ready nor excluded. -/
def State.unsettled (s : State) : List Nat :=
  (List.range 32).filter fun w => !(s.get (Reg.WIN.STATE w) == 7 || (s.get (Reg.WIN.STATE w) == 3 && (s.win w).ready))

/-- Fix the map over the windows of a list: key, W, L, MEM_TOP, states, and the records of sleds that have more
capacity than the map uses (R253, R254, R258). -/
def State.fixMap (s : State) (ws : List Nat) : State :=
  let small := ws.any fun w => s.get (Reg.WIN.CAP w) == 1
  let l := if ws.isEmpty then 0 else if small then 24 else 25
  let key := Config.random s.freeCtr
  let s := s.draw.puts [(Reg.WIN.MAP_W 0, ws.length), (Reg.WIN.MAP_ACTIVE 0, (ws.map fun w => 2 ^ w).sum),
    (Reg.WIN.MAP_L 0, l), (Reg.WIN.HASH_KEY 0, key),
    (Reg.XLAT.MEM_TOP, if ws.isEmpty then 0 else ws.length * 40 * 2 ^ l * 256)]
  let s := ws.zipIdx.foldl (fun s e => s.puts [(Reg.WIN.STATE e.1, 4), (Reg.WIN.SLOT e.1, e.2)]) s
  ws.foldl (fun s w => if small ∧ s.get (Reg.WIN.CAP w) = 2 then s.ce (0x100 + w) 8 0x49 (2 + 256 * l) else s) s

/-- MAP_FORM: every window past INIT, or 2 s after the start (R258). -/
def State.formMap (s : State) : State :=
  if s.get Reg.FW.STAGE ≠ 5 then s
  else
    let late := s.unsettled
    let t0 := ((List.range 32).map fun w => (s.win w).startedAt).foldl max 0
    let s := if late.isEmpty then s else late.foldl State.exclude (s.passTo (t0 + 2000000000))
    let ws := (List.range 32).filter fun w => s.get (Reg.WIN.STATE w) == 3
    let s := if ws.isEmpty then s.put Reg.FW.NO_MEMORY 1 else s
    (s.fixMap ws).put Reg.FW.STAGE 6

/-- MAP_FORM. -/
def execMapForm (s : State) : Out := whenLive s State.formMap

end Sys2Proof.Machine
end

