-- ==== Sys2Proof/Machine/Sync.lean ====
section
/-!
DEFINITION. Machine/Sync.lean: latches, barrier counters, memory-word monitors and multicast (chapter 10), with
the instructions lop, barr and mwait.
-/

namespace Sys2Proof.Machine

/-! ### lop and the latches' homes (R220, R291 to R294) -/

/-- What a lop does: one message for each latch of its range (R293). -/
def State.lopRun (s : State) (n : Nat) (i : Insn) : State :=
  let op := if i.mod 35 34 = 0 then HomeOp.set else HomeOp.clear
  let count := i.mod 19 8 + 1
  (List.range count).foldl (fun s k => s.injectLatch (routerOf n) n (i.mod 33 20 + k) op (some (n, i.tag)) false)
    (s.mapInsn n i.tag fun x => { x with waits := count })

/-- lop (R220). -/
def execLop (c : CoreIx) (s : State) : Out :=
  whenLive s fun s => s.dispatch c.val 0x40 always fun s i => s.lopRun c.val i

/-- A jmp that reads a latch is resolved by the value: COND 1 jumps when it is set, 2 when it is clear (R209). -/
def State.resolveJmp (s : State) (n tag : Nat) (set : Bool) : State :=
  match (s.core n).window.find? (fun i => i.tag = tag && i.op = 2 && i.waits != 0) with
  | none => s
  | some i =>
    let s := (s.mapInsn n tag fun x => { x with waits := 0 }).markDone n tag Cnt.none
    if (i.mod 35 34 = 1) = set ∧ i.waits = 1 then s.redirect n i.target else s

/-- An answer of a home reaches its core: one latch of a lop is acknowledged, and the last one ends its work; a jmp has its value;
a refused arrival faults its barr (R209, R220, R221, R293, R295). -/
def State.takeAck (s : State) (a : AckMsg) : State :=
  match a.what with
  | .lop => s.mapInsn a.core a.tag fun x => { x with waits := x.waits - 1, done := x.done || x.waits == 1 }
  | .jmp set => s.resolveJmp a.core a.tag set
  | .refused =>
    match (s.core a.core).window.find? (fun i => i.tag = a.tag && i.op == 0x41) with
    | some i => s.takeFault a.core i (flt cCONFIG)
    | none => s

/-- A notification or a release that was sent earlier from the answer's router to its core's is still on its way (R283). -/
def State.ackBehind (s : State) (a : AckMsg) : Bool :=
  (s.net.notes.any fun w => homeRouter w.latch == a.router && routerOf w.core == routerOf a.core && decide (w.sent < a.sent)) ||
    s.net.releases.any fun b => homeRouter b.counter == a.router && routerOf b.part == routerOf a.core && decide (b.sent < a.sent)

/-- The answers that nothing stands before arrive, in the order in which they were sent: they have no row of their own (R283; log
entry 120). -/
def State.landAcks (s : State) : State :=
  let go := s.net.acks.filter fun a => !s.ackBehind a
  go.foldl State.takeAck { s with net := { s.net with acks := s.net.acks.filter s.ackBehind } }

/-- A home answers a core (R283, R293, R295). -/
def State.sendAck (s : State) (router core tag : Nat) (what : Answered) : State :=
  ({ s with net := { s.net.cross router (routerOf core) with acks := s.net.acks ++ [⟨router, core, tag, what, s.net.sent⟩] } } :
    State).landAcks

/-- A home acknowledges one latch to the lop that asked for it, where one did (R293). -/
def State.ackLop (s : State) (m : LatchMsg) : State :=
  match m.ack with
  | none => s
  | some (n, tag) => s.sendAck (homeRouter m.latch) n tag .lop

/-- The host interface takes an edge: the first of a bit sends its group's vector, and a member without a host
link tells the lead (R294, R466, R467). -/
def State.hostEdge (s : State) (latch : Nat) : State :=
  let j := (latch - 0x3E00) / 64
  let b := 2 ^ ((latch - 0x3E00) % 64)
  let old := s.get (Reg.LATCH.HOST_EDGE j)
  if bitOf old ((latch - 0x3E00) % 64) then s
  else
    let s := s.put (Reg.LATCH.HOST_EDGE j) (old + b)
    let s := if s.get (Reg.GEN.HLATCH_EN j) = 1 then s.sendVec (s.get (Reg.GEN.HLATCH_VEC j)) else s
    if s.isMember ∧ s.get Reg.GEN.LINK_UP = 0 then
      s.sendPkt 9 (s.hdr 0x401 s.lead 0 5 1)
        (((List.range 8).map fun k => bytesOf 8 (s.get (Reg.LATCH.HOST_EDGE k))).flatten)
    else s

/-- Inject a notification from a latch's home (R283, R292). -/
def State.sendNote (s : State) (core latch : Nat) : State :=
  { s with net := { s.net.cross (homeRouter latch) (routerOf core) with
      notes := s.net.notes ++ [⟨core, latch, s.net.sent⟩] } }

/-- Send the notifications of a performed set and empty the latch's watcher set (R292). -/
def State.notify (s : State) (latch : Nat) : State :=
  let mine := s.net.watchers.filter fun w => w.latch = latch
  mine.foldl (fun s w => s.sendNote w.core latch)
    { s with net := { s.net with watchers := s.net.watchers.filter (fun w => w.latch ≠ latch) } }

/-- A message may have come in one beat with those of its latch that the record names: at the same time, and in the order of one
beat. Messages of doors are in the order of their global sources, which are not kept (R291). -/
def BeatMsgs.with_ (b : BeatMsgs) (m : LatchMsg) (now : Nat) : Bool :=
  b.at_ == now && (decide (b.src ≤ m.src) || (b.src / 16 == 0x20 && m.src / 16 == 0x20))

/-- Whether a message that is performed after another of its latch, at the same time and in the order of one beat, arrived in one
beat with it is free; a beat that brings a set and a clear of the latch is counted once (R291; log entry 99). -/
def State.collide (s : State) (m : LatchMsg) : State :=
  let set := m.op == .set
  let keep := fun (s : State) (x : BeatMsgs) => { s with net := { s.net with
    beats := x :: s.net.beats.filter fun b => b.latch != m.latch && b.at_ == s.now } }
  let fresh : BeatMsgs := ⟨m.latch, m.src, s.now, set, !set⟩
  match s.net.beats.find? (fun b => b.latch == m.latch) with
  | none => keep s fresh
  | some b =>
    if !b.with_ m s.now then keep s fresh
    else if Config.openValue 99 s.freeCtr % 2 = 0 then keep s.draw fresh
    else
      let s := keep s.draw { b with src := m.src, set := b.set || set, clear := b.clear || !set }
      s.inc Reg.LATCH.COLLIDE (ofBool (!(b.set && b.clear) && (b.set || set) && (b.clear || !set)))

/-- A set or a clear is performed at the latch's home (R291, R292, R294). -/
def State.performLatch (s : State) (m : LatchMsg) : State :=
  let s := s.collide m
  if m.op = .set then
    let s := ((s.put (Reg.LATCH.latch m.latch) 1).inc Reg.LATCH.LATCH_SETS 1).notify m.latch
    let s := if 0x3E00 ≤ m.latch ∧ (m.close ∨ m.src ≠ 0x401) then s.hostEdge m.latch else s
    s.ackLop m
  else ((s.put (Reg.LATCH.latch m.latch) 0).inc Reg.LATCH.LATCH_CLEARS 1).ackLop m

/-- The way of a latch message, a barrier message to its counter's home, a notification, a release: the routers at which it is
injected and delivered. Units on one router share an attachment point (R15, R283; log entry 88). -/
def LatchMsg.way (m : LatchMsg) : Nat × Nat := (m.from_, homeRouter m.latch)
def BarMsg.way (a : BarMsg) : Nat × Nat := (routerOf (if a.part < 8 then a.part else 0x401), homeRouter a.counter)
def WatchMsg.way (w : WatchMsg) : Nat × Nat := (homeRouter w.latch, routerOf w.core)
def BarMsg.back (a : BarMsg) : Nat × Nat := (homeRouter a.counter, routerOf a.part)

/-- Messages of one class that share a way arrive in the order in which they were injected (R282, R283). -/
def LatchMsg.sameWay (a b : LatchMsg) : Bool := a.way == b.way
def BarMsg.sameWay (a b : BarMsg) : Bool := a.way == b.way

/-- A barrier message stands before a latch message on its way, or a latch message before a barrier message (R283). -/
def State.behindBar (s : State) (m : LatchMsg) : Bool := s.net.arrivals.any fun a => a.way == m.way && decide (a.sent < m.sent)
def State.behindLatch (s : State) (a : BarMsg) : Bool := s.net.latchMsgs.any fun m => a.way == m.way && decide (m.sent < a.sent)

/-- A release stands before a notification on its way, or a notification before a release (R283). -/
def State.behindRelease (s : State) (w : WatchMsg) : Bool :=
  s.net.releases.any fun a => a.back == w.way && decide (a.sent < w.sent)
def State.behindNote (s : State) (a : BarMsg) : Bool := s.net.notes.any fun w => a.back == w.way && decide (w.sent < a.sent)

/-- A write of the host that was posted before is not performed yet, since a snapshot holds it (R303). -/
def State.hostHeld (s : State) : Bool := s.snap.heldWrites.any fun h => h.req.src == 0x401

/-- Take the message that arrives next on the way of message i, where it is of a kind. -/
def State.takeMsg (s : State) (i : Nat) (kind : HomeOp → Bool) : Option (State × LatchMsg) :=
  match pick LatchMsg.sameWay i s.net.latchMsgs with
  | some (m, rest) =>
    if kind m.op ∧ !s.behindBar m ∧ !(m.src = 0x401 ∧ !m.close ∧ s.hostHeld) then
      some ({ s with net := { s.net with latchMsgs := rest } }, m) else none
  | none => none

/-- LATCH_MESSAGE (R291). -/
def execLatchMessage (i : Nat) (s : State) : Out :=
  whenLive s fun s => match s.takeMsg i (fun k => k == .set || k == .clear) with
    | some (s, m) => s.performLatch m
    | none => s

/-- A watch is performed: a set latch is answered at once, else the core is recorded, once (R292). -/
def State.performWatch (s : State) (m : LatchMsg) : State :=
  if s.get (Reg.LATCH.latch m.latch) = 1 then s.sendNote m.src m.latch
  else if s.net.watchers.any fun w => w.core == m.src && w.latch == m.latch then s
  else { s with net := { s.net with watchers := s.net.watchers ++ [⟨m.src, m.latch, m.sent⟩] } }

/-- WATCH (R292). -/
def execWatch (i : Nat) (s : State) : Out :=
  whenLive s fun s => match s.takeMsg i (fun k => k == .watch) with
    | some (s, m) => s.performWatch m
    | none => s

/-- A notification reaches its core: every instruction in the window that waits on the latch is satisfied, and
the core holds no watch for it any more (R205, R292). -/
def State.takeNote (s : State) (w : WatchMsg) : State :=
  let c := s.core w.core
  let f := fun (i : Insn) => { i with waitOk := true }
  s.setCore w.core { c with watching := c.watching.filter (fun l => l ≠ w.latch),
                            window := mapIf (fun i => i.waitV && i.wait == w.latch) f c.window }

/-- LATCH_NOTIFICATION (R292). -/
def execLatchNotification (i : Nat) (s : State) : Out :=
  whenLive s fun s => match pick (fun a b => a.way == b.way) i s.net.notes with
    | some (w, rest) => if s.behindRelease w then s
      else (({ s with net := { s.net with notes := rest } } : State).takeNote w).landAcks
    | none => s

/-- LATCH_READ (R293). -/
def execLatchRead (i : Nat) (s : State) : Out :=
  whenLive s fun s => match s.takeMsg i (fun k => k == .read) with
    | some (s, m) => match m.ack with
      | some (n, tag) => s.sendAck (homeRouter m.latch) n tag (.jmp (s.get (Reg.LATCH.latch m.latch) == 1))
      | none => s
    | none => s

/-- One latch message for each 1 of a value written to LATCH.SET or LATCH.CLR (R303, R304). -/
def State.hostLatches (s : State) (k v : Nat) (set : Bool) : State :=
  ((List.range 64).filter (bitOf v)).foldl (fun s i => s.sendLatch 0x401 (64 * k + i) set none) s

/-- LATCH_SET_WRITE. -/
def execLatchSetWrite (k : Fin 256) (value : BitVec 64) (s : State) : Out :=
  whenBar s false fun s => s.hostLatches k.val value.toNat true

/-- LATCH_CLR_WRITE. -/
def execLatchClrWrite (k : Fin 256) (value : BitVec 64) (s : State) : Out :=
  whenBar s false fun s => s.hostLatches k.val value.toNat false

/-! ### Barrier counters (R221, R295 to R299) -/

/-- Fewer than two barr of the stream on the counter have dispatched and not completed (R297). -/
def State.barrFree (s : State) (n : Nat) (i : Insn) : Bool :=
  decide (((s.core n).window.filter fun y =>
    y.dispatched && y.op == 0x41 && y.mod 35 25 == i.mod 35 25).length < 2)

/-- Send an arrival. -/
def State.sendArrival (s : State) (part counter tag : Nat) : State := s.injectBar part counter tag false

/-- barr (R221). -/
def execBarr (c : CoreIx) (s : State) : Out :=
  whenLive s fun s => s.dispatch c.val 0x41 (fun s i => s.barrFree c.val i) fun s i =>
    s.sendArrival c.val (i.mod 35 25) i.tag

/-- ARRIVE_WRITE: host software arrives at a counter (R295). -/
def execArriveWrite (value : BitVec 64) (s : State) : Out :=
  whenBar s false fun s => s.sendArrival 8 (bitsOf value.toNat 10 0) 0

/-- A refused arrival is counted; a barr's is answered, and faults it (R221, R295). -/
def State.refuseArrival (s : State) (a : BarMsg) : State :=
  let s := s.inc Reg.BARRIER.REFUSED 1
  if a.part < 8 ∧ !a.dead then s.sendAck (homeRouter a.counter) a.part a.tag .refused else s

/-- Release the participants of a mask, ascending: each one's oldest counted arrival (R295, R296). -/
def State.release (s : State) (c mask : Nat) : List Nat → State
  | [] => s
  | q :: r =>
    match splitFirst (fun (a : BarMsg) => a.counter == c && a.part == q) s.net.counted with
    | some (x, a, y) =>
      if bitOf mask q then
        State.release { s with net :=
          if q < 8 then { s.net.cross (homeRouter c) (routerOf q) with
            counted := x ++ y, releases := s.net.releases ++ [{ a with sent := s.net.sent }] }
          else { s.net with counted := x ++ y } } c mask r
      else State.release s c mask r
    | none => State.release s c mask r

/-- Close the open phase of a counter as long as every participant has arrived in it; src is the source of the
arrival that closed it (R295). The loop closes at most two phases. -/
def State.closePhases (s : State) (c src : Nat) : Nat → State
  | 0 => s
  | k + 1 =>
    let part := s.get (Reg.BARRIER.CFG_PART c)
    if s.get (Reg.BARRIER.ARRIVED c) = part ∧ part ≠ 0 then
      let s := s.puts [(Reg.BARRIER.PHASE c, 1 - s.get (Reg.BARRIER.PHASE c)),
        (Reg.BARRIER.CLOSE_CNT c, s.get (Reg.BARRIER.CLOSE_CNT c) + 1)]
      let s := s.release c part (List.range 9)
      let s := if s.get (Reg.BARRIER.CFG_POST_V c) = 1 then
          s.injectLatch (homeRouter c) src (s.get (Reg.BARRIER.CFG_POST c)) .set none true else s
      State.closePhases (s.puts [(Reg.BARRIER.ARRIVED c, s.get (Reg.BARRIER.EARLY c)), (Reg.BARRIER.EARLY c, 0)]) c src k
    else s


/-- An arrival is performed at its counter's home (R295). -/
def State.performArrival (s : State) (a : BarMsg) : State :=
  let c := a.counter
  let arrived := s.get (Reg.BARRIER.ARRIVED c)
  let early := s.get (Reg.BARRIER.EARLY c)
  let src := if a.part < 8 then a.part else 0x401
  let count := fun (s : State) => { s with net := { s.net with counted := s.net.counted ++ [a] } }
  if s.get (Reg.BARRIER.CFG_VALID c) = 0 ∨ !bitOf (s.get (Reg.BARRIER.CFG_PART c)) a.part then s.refuseArrival a
  else if !bitOf arrived a.part then
    (count (s.put (Reg.BARRIER.ARRIVED c) (arrived + 2 ^ a.part))).closePhases c src 2
  else if !bitOf early a.part then
    (count (s.put (Reg.BARRIER.EARLY c) (early + 2 ^ a.part))).inc Reg.BARRIER.EARLY_CNT 1
  else s.put Reg.BARRIER.HOST_OVF 1

/-- BARRIER_ARRIVAL (R295). -/
def execBarrierArrival (i : Nat) (s : State) : Out :=
  whenLive s fun s => match pick BarMsg.sameWay i s.net.arrivals with
    | some (a, rest) => if a.leave ∨ s.behindLatch a then s
        else ({ s with net := { s.net with arrivals := rest } } : State).performArrival a
    | none => s

/-- A release is performed at its core: the barr completes, unless its stream has been killed (R296, R298). -/
def State.takeRelease (s : State) (a : BarMsg) : State := if a.dead then s else s.markDone a.part a.tag Cnt.none

/-- BARRIER_RELEASE (R296). -/
def execBarrierRelease (i : Nat) (s : State) : Out :=
  whenLive s fun s => match pick (fun a b => a.back == b.back) i s.net.releases with
    | some (a, rest) => if s.behindNote a then s
      else (({ s with net := { s.net with releases := rest } } : State).takeRelease a).landAcks
    | none => s

/-- A withdrawal is performed: the participant's bit is cleared from EARLY if it is set there, else from ARRIVED,
and a halted stream's barr leaves the window; once its phase has closed nothing is left to clear (R298). -/
def State.performWithdrawal (s : State) (a : BarMsg) : State :=
  let c := a.counter
  let mine := fun (x : BarMsg) => x.counter == c && x.part == a.part && x.tag == a.tag && x.dead == a.dead
  if s.net.counted.any mine then
    let s := { s with net := { s.net with counted := s.net.counted.filter (fun x => !mine x) } }
    let early := s.get (Reg.BARRIER.EARLY c)
    let arrived := s.get (Reg.BARRIER.ARRIVED c)
    let s := if bitOf early a.part then s.put (Reg.BARRIER.EARLY c) (early - 2 ^ a.part)
      else s.put (Reg.BARRIER.ARRIVED c) (if bitOf arrived a.part then arrived - 2 ^ a.part else arrived)
    if a.dead then s else s.dropInsn a.part a.tag
  else s

/-- BARRIER_WITHDRAWAL (R298). -/
def execBarrierWithdrawal (i : Nat) (s : State) : Out :=
  whenLive s fun s => match pick BarMsg.sameWay i s.net.arrivals with
    | some (a, rest) => if a.leave ∧ !s.behindLatch a then
        ({ s with net := { s.net with arrivals := rest } } : State).performWithdrawal a else s
    | none => s

/-- A write to a counter's configuration is performed only while the counter is empty (R299). -/
def State.barrierCfg (s : State) (c v : Nat) : State :=
  if s.get (Reg.BARRIER.ARRIVED c) = 0 ∧ s.get (Reg.BARRIER.EARLY c) = 0 then
    s.puts [(Reg.BARRIER.CFG_VALID c, bitsOf v 63 63), (Reg.BARRIER.CFG_POST_V c, bitsOf v 47 47),
      (Reg.BARRIER.CFG_POST c, bitsOf v 46 33), (Reg.BARRIER.CFG_PART c, bitsOf v 8 0)]
  else s.put Reg.BARRIER.CFG_BUSY 1

/-- BARRIER_CFG_WRITE: host software and Sill firmware may write (R299). -/
def execBarrierCfgWrite (c : Fin 2048) (value : BitVec 64) (sill : Bool) (s : State) : Out :=
  whenBar s sill fun s => s.barrierCfg c.val value.toNat

/-! ### Monitors (R222, R300, R301) -/

/-- A monitor's condition: 0 not equal, 1 equal, 2 unsigned greater or equal (R222). -/
def monHolds (cond v comparand : Nat) : Bool :=
  if cond = 0 then v != comparand else if cond = 1 then v == comparand else decide (comparand ≤ v)

/-- The stream already holds the monitor armed (R301). -/
def State.ownMonitor (s : State) (n m : Nat) : Bool :=
  s.get (Reg.BARRIER.MON_ARMED m) == 1 && s.get (Reg.BARRIER.MON_CORE m) == n

/-- mwait's checks of its word and its comparand (R222). -/
def mwaitFlt (i : Insn) (job : Nat) : Option Flt :=
  let a := i.td roleA
  let x := i.td roleX
  firstFlt [a.check roleA job [0x0D] false false false,
    need (a.rank = 1 && a.size 0 = 1) (fltOf cSHAPE roleA a 0),
    x.check roleX job [0x0D] false false false, need (!x.isEmpty) (fltOf cSHAPE roleX x 0)]

/-- Arm a monitor (R300). -/
def State.arm (s : State) (n m : Nat) (i : Insn) (pa comparand : Nat) : State :=
  let s := s.puts [(Reg.BARRIER.MON_ARMED m, 1), (Reg.BARRIER.MON_CORE m, n), (Reg.BARRIER.MON_COND m, i.mod 27 26),
    (Reg.BARRIER.MON_JOB m, s.jobOf n), (Reg.BARRIER.MON_PA m, pa / 8), (Reg.BARRIER.MON_COMPARAND m, comparand)]
  { s with net := { s.net with monTags := s.net.monTags ++ [(m, i.tag)] } }

/-- What a mwait does (R222, R300, R301). -/
def State.mwaitRun (s : State) (n : Nat) (i : Insn) : State :=
  let a := i.td roleA
  let x := i.td roleX
  let job := s.jobOf n
  let m := i.mod 35 28
  match mwaitFlt i job with
  | some f => s.takeFault n i f
  | none =>
    if s.get (Reg.BARRIER.MON_ARMED m) = 1 then s.takeFault n i (flt cCONFIG)
    else match s.xlat n job a.base true false with
      | (s, .bad re l) => s.takeFault n i (fltOf cADDRESS roleA a (addrDetail a.base re l job))
      | (s, .ok pa _ _) =>
        if inHost pa then s.takeFault n i (flt cCONFIG)
        else match s.readVa n job x.base 8 with
          | (s, _, _, .bad v re l) => s.takeFault n i (fltOf cADDRESS roleX x (addrDetail v re l job))
          | (s, xd, xp, _) =>
            match s.readPa n job pa 8 with
            | (s, ad, ap) =>
              if ap then s.takeFault n i (fltOf cPOISON roleA a a.base)
              else if xp then s.takeFault n i (fltOf cPOISON roleX x x.base)
              else if monHolds (i.mod 27 26) (natOf ad) (natOf xd) then
                (s.inc Reg.BARRIER.MON_WAKE 1).markDone n i.tag Cnt.none
              else s.arm n m i pa (natOf xd)

/-- mwait (R222). -/
def execMwait (c : CoreIx) (s : State) : Out :=
  whenLive s fun s => s.dispatch c.val 0x42 (fun s i => !s.ownMonitor c.val (i.mod 35 28)) fun s i => s.mwaitRun c.val i

/-- A monitor disarms; the writes it has not tested are dropped (R300). -/
def State.disarmOne (s : State) (m : Nat) : State :=
  let s := s.put (Reg.BARRIER.MON_ARMED m) 0
  ({ s with net := { s.net with monTags := s.net.monTags.filter (fun e => e.1 ≠ m) } } : State).dropHits [m]

/-- An armed monitor tests the value that a write leaves in its word, or consumes poison (R300, R301). -/
def State.testMonitor (s : State) (m : Nat) (v : BitVec 64) (poison : Bool) : State :=
  match s.net.monTags.find? (fun e => e.1 = m) with
  | none => s
  | some e =>
    let n := s.get (Reg.BARRIER.MON_CORE m)
    if poison then
      let s := s.disarmOne m
      match (s.core n).window.find? (fun i => i.tag = e.2) with
      | some i => s.takeFault n i (fltOf cPOISON roleA (i.td roleA) (i.td roleA).base)
      | none => s
    else
      let s := s.inc Reg.BARRIER.MON_WRITES 1
      if monHolds (s.get (Reg.BARRIER.MON_COND m)) v.toNat (s.get (Reg.BARRIER.MON_COMPARAND m)) then
        ((s.disarmOne m).inc Reg.BARRIER.MON_WAKE 1).markDone n e.2 Cnt.none
      else s

/-- MONITOR_WRITE: the writes to one word are tested in the order in which they were performed (R300). -/
def execMonitorWrite (i : Nat) (s : State) : Out :=
  whenLive s fun s => match pick (fun a b => a.1 % 256 == b.1 % 256) i s.net.monWrites with
    | some (e, rest) => ({ s with net := { s.net with monWrites := rest } } : State).testMonitor (e.1 % 256) e.2 (decide (256 ≤ e.1))
    | none => s

/-! ### Multicast and the mesh (R285, R288 to R290, R304) -/

/-- The target routers of a group (R288). -/
def State.mcastTargets (s : State) (g : Nat) : List Nat :=
  (List.range 36).filter fun r => bitOf (s.get (Reg.LATCH.MCAST_TARGETS g)) r

/-- The routers that a multicast packet crosses: along its source's row to every column that holds a target, and in each such
column toward the targets (R288). -/
def State.mcastPath (s : State) (g router : Nat) : List Nat := ((s.mcastTargets g).map (meshPath router)).flatten.eraseDups

/-- A multicast packet of a group enters the mesh: the copies for targets without buffer space, and those that earlier copies
of the group are held for, enter the hold stores; the others are delivered, and with them the packet, where none is held
(R288 to R290). -/
def State.mcastGo (s : State) (g : Nat) (full : List Nat) : State :=
  let kept := (s.mcastTargets g).filter fun r => full.contains r || s.net.held.any fun h => h.group == g && h.router == r
  let held := s.net.held ++ kept.map fun r => ⟨g, s.net.mcastNext, r⟩
  let s := { s with net := { s.net with held := held, mcastNext := s.net.mcastNext + 1 } }
  let s := (s.inc Reg.LATCH.MCAST_HOLD kept.length).put Reg.LATCH.HELD_NOW held.length
  if kept.isEmpty then s else s.put (Reg.LATCH.MCAST_INFLIGHT g) (s.get (Reg.LATCH.MCAST_INFLIGHT g) + 1)

/-- Four packets of a group are in flight, or some of the group wait already (R289). -/
def State.mcastFull (s : State) (g : Nat) : Bool :=
  decide (4 ≤ s.get (Reg.LATCH.MCAST_INFLIGHT g)) || s.net.mcastWaits.any fun x => x.group == g

/-- A unit injects a multicast packet; full are the targets that have no buffer space for it now. A group that is not valid
injects nothing, and the fifth packet of a group waits at its source (R288, R289). No command does this (log entry 57). -/
def State.mcastInject (s : State) (g src : Nat) (full : List Nat) : State :=
  if s.get (Reg.LATCH.MCAST_VALID g) = 0 then s
  else if s.mcastFull g then { s with net := { s.net with mcastWaits := s.net.mcastWaits ++ [⟨g, src, full⟩] } }
  else s.mcastGo g full

/-- The oldest packet of a group that waits at its source goes, where fewer than four are in flight (R289). -/
def State.mcastNextIn (s : State) (g : Nat) : State :=
  if 4 ≤ s.get (Reg.LATCH.MCAST_INFLIGHT g) then s
  else match splitFirst (fun (x : McastWait) => x.group == g) s.net.mcastWaits with
    | some (a, x, b) => ({ s with net := { s.net with mcastWaits := a ++ b } } : State).mcastGo g x.full
    | none => s

/-- The oldest held copy of a group at a router is delivered; the packet leaves the count with its last copy
(R289, R290). -/
def State.releaseCopy (s : State) (g router : Nat) : State :=
  match splitFirst (fun (h : HeldCopy) => h.group == g && h.router == router) s.net.held with
  | none => s
  | some (x, h, y) =>
    let s := ({ s with net := { s.net with held := x ++ y } } : State).put Reg.LATCH.HELD_NOW (x ++ y).length
    if (x ++ y).any fun k => k.group == g && k.packet == h.packet then s
    else (s.put (Reg.LATCH.MCAST_INFLIGHT g) (s.get (Reg.LATCH.MCAST_INFLIGHT g) - 1)).mcastNextIn g

/-- A write to LATCH.MCAST: Sill firmware's, while nothing of the group is in flight; a host's is ignored, and
recorded when it would change the field (R304, R550). -/
def State.mcastWrite (s : State) (g v : Nat) (sill : Bool) : State :=
  let f := [(Reg.LATCH.MCAST_VALID g, bitsOf v 63 63), (Reg.LATCH.MCAST_TARGETS g, bitsOf v 35 0)]
  if sill then (if s.get (Reg.LATCH.MCAST_INFLIGHT g) = 0 then s.puts f else s)
  else if f.any fun e => s.get e.1 != e.2 then s.hostRefused (Reg.LATCH.MCAST_VALID g).off v
  else s

/-- MCAST_WRITE. -/
def execMcastWrite (g : Fin 32) (value : BitVec 64) (sill : Bool) (s : State) : Out :=
  whenBar s sill fun s => s.mcastWrite g.val value.toNat sill

/-- An uncorrectable error in the payload of a packet in flight: the writes of a unit to the 64-byte piece that have not reached
their window carry a mark from now on, and what its reads of the piece bring back is marked (R285). -/
def State.meshPayload (s : State) (src pa : Nat) : State :=
  let mine := fun (r : MemReq) => r.src % 65536 == src && r.pa / 64 == pa / 64
  let write := fun (r : MemReq) => if r.write && mine r then { r with poison := true, hits := [] } else r
  let read := fun (t : TagSt) => if !t.req.write && mine t.req then { t with mesh := true } else t
  { s with wins := s.wins.map fun e => (e.1, { e.2 with queue := e.2.queue.map write, tags := e.2.tags.map read }) }

/-- MESH_HEADER: an uncorrectable error in a header is fatal to the device; src is the packet's originating unit. One in a
payload, which has no row of its own, marks the piece that the operand names (R285; log entry 116). A number that is no source of
this device sends no packet (R2, R20). -/
def execMeshHeader (error : MeshError) (s : State) : Out :=
  whenLive s fun s =>
    if !s.isSource error.src.toNat then s
    else
      let s := s.inc Reg.LATCH.NET_ECC_UNCORR 1
      match error.payload with
      | some pa => s.meshPayload error.src.toNat pa.toNat
      | none => s.raiseFE error.src.toNat 7 0x24 0

/-- SYNC_STATE: an error in the state at a home is corrected, or fatal to the device (R2, R20, R401, R406). -/
def execSyncState (src : BitVec 16) (corrected : Bool) (s : State) : Out :=
  whenLive s fun s => if corrected || !s.isSource src.toNat then s else s.raiseFE src.toNat 0x0F 0x31 0

end Sys2Proof.Machine
end

