-- ==== Sys2Proof/Machine/Packet.lean ====
section
/-!
DEFINITION. Machine/Packet.lean: what Agate, the expert router and the doors share: reading and writing the elements
of a tensor sector by sector, receiving a door packet, relaying it, performing its payload, and the ledgers
(R308, R310 to R313, R320, R321).
-/

namespace Sys2Proof.Machine

/-! ### Elements by virtual address -/

/-- The bytes of elements given by bit address and width, rising. -/
def elemBytes (els : List (Nat × Nat)) : List Nat :=
  ((els.map fun e => (List.range ((e.1 % 8 + e.2 + 7) / 8)).map (e.1 / 8 + ·)).flatten).foldl (fun l v => setInsert v l) []

/-- For each sector that holds some of a rising list of bytes, the range from the first to the last of them. -/
def spans (bytes : List Nat) : List (Nat × Nat) :=
  ((bytes.map (· / 64)).foldl (fun l v => setInsert v l) []).map fun sec =>
    let mine := bytes.filter fun v => v / 64 == sec
    (mine.headD 0, mine.getLastD 0 + 1 - mine.headD 0)

/-- Read ranges of a job's addresses for a unit: the bytes by address; a failure of translation or poison ends
the reading. -/
def State.readSpans (s : State) (src job : Nat) : List (Nat × Nat) → State × List (Nat × Byte) × Acc
  | [] => (s, [], .done)
  | (va, n) :: r =>
    match s.readVa src job va n with
    | (s, _, _, .bad v re l) => (s, [], .bad v re l)
    | (s, data, p, _) =>
      if p then (s, [], .poison va)
      else
        match State.readSpans s src job r with
        | (s, m, a) => (s, (data.zipIdx.map fun e => (va + e.2, e.1)) ++ m, a)

/-- The code of an element among bytes that have been read. -/
def codeIn (m : List (Nat × Byte)) (bit w : Nat) : Nat :=
  natOf ((List.range ((bit % 8 + w + 7) / 8)).map fun i => lookupD 0 (bit / 8 + i) m) / 2 ^ (bit % 8) % 2 ^ w

/-- The elements of a list of index lists, as bit addresses and widths. -/
def TD.places (d : TD) (ixs : List (List Nat)) : List (Nat × Nat) := ixs.map fun ix => (d.bitAddr ix, d.wbits)

/-- Write the bytes that are present of one sector of a job's address space (R184, R185, R240). -/
def State.writeSector (s : State) (src queue job va : Nat) (data : List (Option Byte)) (poison : Bool) : State × Acc :=
  match s.xlat src job va false true with
  | (s, .bad re l) => (s, .bad va re l)
  | (s, .ok pa kill snap) =>
    match s.putSector src queue job va pa kill snap data poison with
    | (s, true) => (s, .poison va)
    | (s, false) => (s, .done)

/-- Write the sectors of a list of bytes; the first failure of translation ends the writing. -/
def State.writeSectors (s : State) (src queue job : Nat) (l : List (Nat × Byte)) : List Nat → State × Acc
  | [] => (s, .done)
  | sec :: r =>
    match s.writeSector src queue job (sec * 64) (sectorBytes l sec) false with
    | (s, .done) => State.writeSectors s src queue job l r
    | (s, a) => (s, a)

/-- Write elements of whole bytes for a unit. -/
def State.writeUnit (s : State) (src queue job : Nat) (els : List El) : State × Acc :=
  let l := (els.map fun e => elBytes e.bit e.w e.code).flatten
  s.writeSectors src queue job l (sectorsIn l)

/-! ### Receiving a packet (R308, R310 to R312, R320) -/


/-- Entries of a door's ledger. -/
def State.ledgerUsed (s : State) (d : Nat) : Nat := (s.doors.ledger.filter fun e => e.door == d).length

/-- A relaying device sends a packet on, marked as relayed (R308). -/
def State.relayPkt (s : State) (d ty : Nat) (h : Hdr) (p : Bytes) : State :=
  (s.inc (Reg.DOOR.RELAY_PKTS d) 1).sendPkt ty { h with relayed := true } p

/-- The pair over which a packet comes: door 15 has one for each tray (R307). -/
def State.pairFrom (s : State) (d : Nat) (h : Hdr) : Nat :=
  if d = 15 then (h.src.toNat / 65536 / 16 + 4 - s.dev / 16 - 1) % 4 else 0

/-- A packet has come over a door's link, in a flit that is intact; how many of this device's flits it acknowledges is free
(R244; log entry 87). -/
def State.heardDoor (s : State) (d k : Nat) : State :=
  let l := (s.link (doorLinkNo d k)).received
  (s.draw.setLink (doorLinkNo d k) (l.ackSome (Config.openValue 87 s.freeCtr % (l.replay.length + 1)))).pushOut d k

/-- A packet that breaks the protocol is discarded, counted and recorded (R310). -/
def State.doorProtocol (s : State) (d : Nat) : State := (s.inc (Reg.DOOR.PROTO_ERR d) 1).ce (0x200 + d) 9 0x51 0

/-- A control packet of more than 64 payload bytes, which no device sends (R312; log entry 101). -/
def overlong (ty : Nat) (h : Hdr) : Bool := !bulk ty (h.addr.toNat % 8) && decide (1 < h.sectors.toNat)

/-- A door gives no bulk credits: its ledger is full, or a packet is held at it (R320, R334). -/
def State.noCredit (s : State) (d : Nat) : Bool := decide (8192 ≤ s.ledgerUsed d) || s.doors.waiting.any fun e => e.1 == d

/-- A packet arrives on a door: not over a link that carries nothing, nor a bulk packet while the door gives no bulk credits;
one for another device is relayed; one for this device is acted on. -/
def State.arrive (s : State) (d ty : Nat) (h : Hdr) (p : Bytes) (act : State → State) : State :=
  if !s.linkUsable d (s.pairFrom d h) ∨ (bulk ty (h.addr.toNat % 8) ∧ s.noCredit d) then s
  else
    let s := (s.heardDoor d (s.pairFrom d h)).inc (Reg.DOOR.RX_BYTES d) (32 + p.length)
    if overlong ty h then s.doorProtocol d
    else if h.dst.toNat = s.dev then act s else s.relayPkt d ty h p

/-- The commands of packets: ok says whether the header's address is one of the command's kind. A packet of another
kind, or whose payload is not the 64 bytes for each sector of its header, is no such packet (R310). -/
def packet (d : DoorIx) (ty : Nat) (h : Hdr) (p : Bytes) (ok : Nat → Bool) (act : State → State) (s : State) : Out :=
  if p.length = 64 * h.sectors.toNat ∧ ok h.addr.toNat then whenLive s fun s => s.arrive d.val ty h p act
  else .fault .illFormed

/-- The KIND of an AGATE or EXPERT packet is in ADDR [2:0] (R351, R391); of a SILL packet in ADDR [3:0] (R505). -/
def kind3 (k : Nat) : Nat → Bool := fun a => a % 8 == k
def kind4 (k : Nat) : Nat → Bool := fun a => a % 16 == k

/-- A packet of a type that has no kinds. -/
def anyKind : Nat → Bool := fun _ => true

/-- The device from which a packet comes (R21). -/
def originOf (h : Hdr) : Nat := h.src.toNat / 65536

/-- Add an entry to a door's ledger, which has 8,192 (R320). A control packet that comes while all are taken has no entry: it
has written no sector (log entry 101). -/
def State.ledgerAdd (s : State) (d : Nat) (h : Hdr) (sectors : List Nat) : State :=
  if 8192 ≤ s.ledgerUsed d then s
  else
    let e : Ledger := ⟨d, originOf h, h.epoch.toNat, sectors, h.job.toNat⟩
    let s := { s with doors := { s.doors with ledger := s.doors.ledger ++ [e] } }
    let s := s.peak (Reg.DOOR.LEDGER_PEAK d) (s.ledgerUsed d)
    if s.ledgerUsed d = 8192 then
      { s with doors := { s.doors with fullSince := assocPut d s.now s.doors.fullSince } } else s

/-- Remove the ledger entries that satisfy p; doors whose ledgers are full no more give credits again. -/
def State.ledgerDrop (s : State) (p : Ledger → Bool) : State :=
  let s := { s with doors := { s.doors with ledger := s.doors.ledger.filter (fun e => !p e) } }
  { s with doors := { s.doors with fullSince := s.doors.fullSince.filter fun e => decide (8192 ≤ s.ledgerUsed e.1) } }

/-- A write to the sector waits for a snapshot (R185). -/
def State.sectorHeld (s : State) (pa : Nat) : Bool := s.snap.heldWrites.any fun h => h.req.pa / 64 == pa / 64

/-- A write that waits for a snapshot carries a poison mark from now on. -/
def State.markHeld (s : State) (pa : Nat) : State :=
  let f := fun (h : Held) => { h with req := { h.req with poison := true } }
  { s with snap := { s.snap with heldWrites := mapIf (fun h => h.req.pa / 64 == pa / 64) f s.snap.heldWrites } }

/-- The write by which door d poisons a sector of main memory. -/
def poisonReq (d job pa : Nat) : MemReq :=
  { queue := 18 + d, src := 0x200 + d, job := job, pa := sectorPa pa, write := true, data := List.replicate 64 (some 0),
    poison := true, owner := .unit }

/-- Mark the pieces of a sector as they stand (R401). -/
def State.markSector (s : State) (pa : Nat) : State := (s.setPoison pa).setPoison (pa + 32)

/-- The block of the open snapshot that a physical address lies in and that is not DONE (R435). -/
def State.openBlock (s : State) (job pa : Nat) : Option Block :=
  if s.snap.isOpen ∧ job = s.get Reg.SNAP.STATUS_JOB then s.snap.blocks.find? fun b => b.pa / 2 ^ 21 == pa / 2 ^ 21 && b.state != 2
  else none

/-- The write by which a door poisons a sector of main memory is held for a snapshot as any other (R321, R435). -/
def State.poisonMain (s : State) (d job pa : Nat) : State :=
  match s.openBlock job pa with
  | some b => s.hold b (poisonReq d job pa)
  | none => s.unitWrite (poisonReq d job pa)

/-- Poison a sector that a packet wrote, as the door writes poison: marked pieces of a core store, a WRP behind the writes that
wait before it, or consumption in a POISON_KILL page; which address the record of that names is free (R184, R313, R321; log
entry 100). -/
def State.poisonSector (d job : Nat) (s : State) (sec : Nat) : State :=
  let pa := sectorPa sec
  if sec % 2 = 1 then ((s.draw.countKill job).unitConsume job (0x200 + d) 9 (Config.openValue 100 s.freeCtr))
  else if s.sectorHeld pa then s.markHeld pa
  else if s.inMain pa then s.poisonMain d job pa
  else s.markSector pa

/-- Poison the recorded sectors of the ledger entries that satisfy p, and count them at their doors (R318,
R321). -/
def State.poisonLedger (s : State) (p : Ledger → Bool) : State :=
  (s.doors.ledger.filter p).foldl (fun s e =>
    (e.sectors.foldl (State.poisonSector e.door e.job) s).inc (Reg.DOOR.POISONED_SECT e.door) e.sectors.length) s

/-- The physical sectors of a payload of n sectors at a virtual address, with their pages' POISON_KILL and SNAP;
or the first failure. -/
def State.bindSectors (s : State) (src job : Nat) : List Nat → State × ((Nat × Nat × Nat) ⊕ List (Nat × Nat × Bool × Bool))
  | [] => (s, .inr [])
  | va :: r =>
    match s.xlat src job va false true with
    | (s, .bad re l) => (s, .inl (va, re, l))
    | (s, .ok pa kill snap) =>
      match State.bindSectors s src job r with
      | (s, .inl e) => (s, .inl e)
      | (s, .inr l) => (s, .inr ((va, pa, kill, snap) :: l))

/-- The virtual addresses of a payload's sectors. -/
def payloadVas (va n : Nat) : List Nat := (List.range n).map fun i => va + 64 * i

/-- Write the sectors of a payload that a unit receives (R313, R391, R351): none when one fails translation; marked
sectors are poisoned. The physical sectors are for the ledger. -/
def State.receiveAt (s : State) (src queue job va : Nat) (h : Hdr) (p : Bytes) : State × List Nat × Acc :=
  match s.bindSectors src job (payloadVas va h.sectors.toNat) with
  | (s, .inl (v, re, l)) => (s, [], .bad v re l)
  | (s, .inr l) =>
    l.zipIdx.foldl (fun acc e =>
      match acc with
      | (s, secs, a) =>
        match s.writeSector src queue job e.1.1 ((slice (64 * e.2) 64 p).map some) (bitOf h.poison.toNat e.2) with
        | (s, .done) => (s, secs ++ [e.1.2.1 + ofBool e.1.2.2.1], a)
        | (s, b) => (s, secs, if a = .done then b else a)) (s, [], Acc.done)

end Sys2Proof.Machine
end

