-- ==== Sys2Proof/Machine/Agate.lean ====
section
/-!
DEFINITION. Machine/Agate.lean: gradient reduction (chapter 14): agput, the contributions, the exact sum, the
checksums, the reports and the verdict.
-/

namespace Sys2Proof.Machine

/-! ### Runs and buckets (R374 to R376, R390) -/

/-- Agate's source number (R19). -/
def agateSrc : Nat := 0x402

/-- The job Agate serves (R374). -/
def State.agateJob (s : State) : Nat := s.get Reg.AGATE.CTL_JOB

/-- The valid buckets. -/
def State.buckets (s : State) : List Nat := (List.range 1024).filter fun b => s.get (Reg.AGATE.BUCKET_VALID b) == 1

/-- Contributions of each member to a bucket (R375). -/
def State.contribs (s : State) (b : Nat) : Nat := s.get (Reg.AGATE.BUCKET_CONTRIB_M1 b) + 1

/-- Contributions that a run needs to a bucket: K (R375). -/
def State.needed (s : State) (b : Nat) : Nat := s.contribs b * s.members.length

/-- The bytes of a slot (R390). -/
def slotBytes (n : Nat) : Nat := 64 + 64 * ceilDiv n 512

/-- The 2,048-byte pieces of a slot (R391). -/
def slotPieces (n : Nat) : Nat := ceilDiv (slotBytes n) 2048

/-- The virtual address of the slot of a device's contribution (R390). -/
def State.slotVa (s : State) (b dev idx : Nat) : Nat :=
  s.get (Reg.AGATE.BUCKET_RXBASE b) + (dev * s.contribs b + idx) * slotBytes (s.get (Reg.AGATE.BUCKET_N b))

/-- The address of an Agate packet (R391). -/
def agateAddr (piece bucket run step index kind : Nat) : Nat :=
  piece * 2 ^ 46 + bucket * 2 ^ 30 + run * 2 ^ 22 + step * 2 ^ 6 + index * 8 + kind

/-- The open run's number and step. -/
def State.runNow (s : State) : Nat := s.get Reg.AGATE.STEP_RUN
def State.stepNow (s : State) : Nat := s.get Reg.AGATE.STEP_STEP

/-- Agate is open. -/
def State.agateOpen (s : State) : Bool := s.get Reg.AGATE.STEP_STATE == 1

/-! ### Sum latches, verdicts, reports, failures (R384, R393 to R396) -/

/-- Set a bucket's sum latch, once in a run. -/
def State.setSum (s : State) (b : Nat) : State :=
  if s.get (Reg.AGATE.BUCKET_SUM_V b) = 1 ∧ !s.agate.latched.contains b then
    ({ s with agate := { s.agate with latched := b :: s.agate.latched } } : State).sendLatch agateSrc
      (s.get (Reg.AGATE.BUCKET_SUM b)) true none
  else s

/-- Set every sum latch of the run that is not set yet (R384). -/
def State.setSums (s : State) : State := s.buckets.foldl State.setSum s

/-- The open run's unfinished work is dropped at its verdict (R396). -/
def State.endOfRun (s : State) : State :=
  let run := s.runNow
  { s with agate := { s.agate with
    waiting := [], slots := s.agate.slots.filter (fun r => r.run ≠ run),
    verdictTimes := s.now :: s.agate.verdictTimes } }

/-- What every device does at a verdict (R396, R398): kind 1 commit, 2 repeat. -/
def State.applyVerdict (s : State) (kind reason bucket device tv : Nat) : State :=
  let s := (s.agate.waiting.foldl (fun s c => s.markDone c.core c.tag Cnt.none) s).setSums.endOfRun
  let s := s.puts [(Reg.AGATE.VERDICT_RUN, s.runNow), (Reg.AGATE.VERDICT_KIND, kind), (Reg.AGATE.VERDICT_REASON, reason),
    (Reg.AGATE.VERDICT_BUCKET, bucket), (Reg.AGATE.VERDICT_DEVICE, device), (Reg.AGATE.VERDICT_STEP, s.stepNow),
    (Reg.AGATE.T_VERDICT, tv)]
  let s := if kind = 1 then s.inc Reg.AGATE.COMMITS 1 else s.inc Reg.AGATE.REPEATS 1
  let s := if s.get Reg.AGATE.CTL_NOTIFY_V = 1 then s.sendLatch agateSrc (s.get Reg.AGATE.CTL_NOTIFY) true none else s
  let s := if kind = 2 then s.cancelBatches fun b => b.ofJob s.agateJob else s
  if s.get Reg.AGATE.STEP_REPLAY = 1 then s.puts [(Reg.AGATE.STEP_STATE, 0), (Reg.AGATE.STEP_REPLAY, 0)]
  else s.put Reg.AGATE.STEP_STATE 2

/-- The lead posts its verdict: it goes to every member, and the lead acts on it (R395, R396). -/
def State.postVerdict (s : State) (kind reason bucket device : Nat) : State :=
  let body := bytesOf 8 s.now ++ bytesOf 1 kind ++ bytesOf 1 reason ++ bytesOf 2 bucket ++ bytesOf 1 device ++
    bytesOf 51 0
  (s.reqAll 0x0B 4 agateSrc s.agateJob (agateAddr 0 0 s.runNow s.stepNow 0 3) body).applyVerdict kind reason bucket device
    s.now

/-- The reports of success of a bucket. -/
def State.successes (s : State) (b : Nat) : List Report := s.agate.reports.filter fun r => r.bucket == b && r.reason == 0

/-- Every member has reported success for every valid bucket (R395). -/
def State.allReported (s : State) : Bool :=
  s.buckets.all fun b => s.members.all fun d => (s.successes b).any fun r => r.dev == d

/-- The lowest bucket whose checksums differ between devices (R389). -/
def State.crossBucket (s : State) : Option Nat :=
  s.buckets.find? fun b => match s.successes b with
    | [] => false
    | r :: rest => rest.any fun x => x.check != r.check

/-- The lead takes a report, and may post the verdict (R395). In a verdict of CROSS the manual names no reporting
device: that value is free (log entry 28). -/
def State.takeReport (s : State) (r : Report) : State :=
  let s := { s with agate := { s.agate with reports := s.agate.reports ++ [r] } }
  if r.reason ≠ 0 then s.postVerdict 2 r.reason r.bucket r.dev
  else if s.allReported then
    match s.crossBucket with
    | some b => s.draw.postVerdict 2 4 b (Config.openValue 28 s.freeCtr % 64)
    | none => s.postVerdict 1 0 0 0
  else s

/-- Send a bucket's report to the lead; the lead's own is taken internally (R393, R391). -/
def State.sendReport (s : State) (b reason check : Nat) : State :=
  if s.isMember then
    s.sendReq 0x0B 4 (s.hdr agateSrc s.lead s.agateJob (agateAddr 0 b s.runNow s.stepNow 0 2) 1)
      (bytesOf 8 check ++ bytesOf 1 reason ++ bytesOf 55 0)
  else s.takeReport ⟨b, s.dev, check, reason⟩

/-- A bucket of the open run fails on this device (R393, R384). -/
def State.bucketFail (s : State) (b reason : Nat) : State :=
  let st := s.get (Reg.AGATE.BUCKET_STATE b)
  if s.agateOpen ∧ 1 ≤ st ∧ st ≤ 3 then
    let s := s.puts [(Reg.AGATE.BUCKET_STATE b, 5), (Reg.AGATE.BUCKET_REASON b, reason)]
    let s := s.addRec (mkRec agateSrc 0x0B 0 s.agateJob (0x70 + reason) 0)
    (((s.inc (Reg.AGATE.FAIL reason) 1).setSums).sendReport b reason 0)
  else s

/-- Some bucket of the open run has failed here, so that no sum is written any more (R384). -/
def State.runFailed (s : State) : Bool := s.buckets.any fun b => s.get (Reg.AGATE.BUCKET_STATE b) == 5

/-! ### Contributions in the receive area (R390 to R394) -/

/-- A slot holds a piece. -/
def RxSlot.has (r : RxSlot) (k : Nat) : Bool := r.pieces.any fun x => x.n == k

/-- The reason for which a slot fails its bucket; 0 none. -/
def RxSlot.bad (r : RxSlot) : Nat := ((r.pieces.find? fun x => x.bad != 0).map RxPiece.bad).getD 0

/-- A contribution is complete in its slot: every piece has come, or a header that shows RANGE, which comes alone (R380, R391). -/
def RxSlot.complete (r : RxSlot) (n : Nat) : Bool :=
  (r.pieces.any fun x => x.n == 0 && x.bad == 6) || (List.range (slotPieces n)).all r.has

/-- Put a piece into a slot, over one of its number. -/
def RxSlot.put (r : RxSlot) (x : RxPiece) : RxSlot := { r with pieces := r.pieces.filter (fun y => y.n != x.n) ++ [x] }

/-- A slot of a run. -/
def RxSlot.names (r : RxSlot) (run b dev idx : Nat) : Bool := r.run == run && r.bucket == b && r.dev == dev && r.index == idx

/-- Contributions of a run to a bucket that are complete. -/
def State.completeIn (s : State) (run b : Nat) : Nat :=
  (s.agate.slots.filter fun r => r.run == run && r.bucket == b &&
    r.complete (s.get (Reg.AGATE.BUCKET_N b))).length

/-- A bucket's deadline (R376). -/
def State.deadline (s : State) (b : Nat) : Nat := s.get Reg.AGATE.T_OPEN + s.get (Reg.AGATE.BUCKET_DEADLINE_US b) * 1000

/-- A bucket of the open run that still collects when its deadline has passed fails, before anything else reaches it (R391,
R393). -/
def State.expireBucket (s : State) (b : Nat) : State :=
  if s.get (Reg.AGATE.BUCKET_STATE b) = 1 ∧ s.deadline b < s.now ∧ s.completeIn s.runNow b ≠ s.needed b then s.bucketFail b 1
  else s

/-- What is left of a slot when a run opens: the pieces for it that name its step (R392). -/
def RxSlot.kept (r : RxSlot) (step run : Nat) : RxSlot :=
  { r with pieces := r.pieces.filter fun x => r.run == run && x.step == step }

/-- The run's records start anew; the pieces that came ahead for it stay when they name its step, and other pieces are discarded
(R392). -/
def State.freshRun (s : State) (step run : Nat) (replay : Bool) : State :=
  let lost := (s.agate.slots.map fun r => r.pieces.length - (r.kept step run).pieces.length).sum
  ({ s with agate := { s.agate with
    waiting := [], dispatched := [], summed := [], reports := [], latched := [],
    slots := (s.agate.slots.map fun r => r.kept step run).filter (fun r => !r.pieces.isEmpty),
    replay := replay } } : State).inc Reg.AGATE.DISCARD lost

/-- A bucket begins to collect. -/
def State.startBucket (run : Nat) (s : State) (b : Nat) : State :=
  s.puts [(Reg.AGATE.BUCKET_STATE b, 1), (Reg.AGATE.BUCKET_REASON b, 0), (Reg.AGATE.BUCKET_LOCAL b, 0),
    (Reg.AGATE.BUCKET_RECEIVED b, s.completeIn run b)]

/-- What slots filled ahead bring with them, and the commit of a lead whose run has no valid bucket (R392, R395). -/
def State.afterOpen (s : State) : State :=
  let s := s.agate.slots.foldl (fun s r => if r.bad = 0 then s else s.bucketFail r.bucket r.bad) s
  if s.buckets.isEmpty && !s.isMember && s.agateOpen then s.postVerdict 1 0 0 0 else s

/-- Open a run (R376, R398). -/
def State.openRun (s : State) (step run : Nat) (replay : Bool) : State :=
  let s := (s.freshRun (step % 65536) (run % 256) replay).puts [(Reg.AGATE.STEP_STATE, 1),
    (Reg.AGATE.STEP_REPLAY, ofBool replay), (Reg.AGATE.STEP_RUN, run), (Reg.AGATE.STEP_STEP, step),
    (Reg.AGATE.T_OPEN, s.now),
    (Reg.AGATE.CLOSE_BASE, s.get (Reg.BARRIER.CLOSE_CNT (s.get Reg.AGATE.CTL_STEP_BARRIER)))]
  (s.buckets.foldl (State.startBucket (run % 256)) s).afterOpen

/-- RUN_OPEN: the verdict is posted and the step's barrier counter has closed since the last open (R376). -/
def State.nextRun (s : State) : State :=
  let cnt := s.get (Reg.BARRIER.CLOSE_CNT (s.get Reg.AGATE.CTL_STEP_BARRIER))
  let ahead := (cnt + 2 ^ 32 - s.get Reg.AGATE.CLOSE_BASE) % 2 ^ 32
  if s.get Reg.AGATE.STEP_STATE = 2 ∧ 0 < ahead ∧ ahead < 2 ^ 31 then
    s.openRun (s.stepNow + (if s.get Reg.AGATE.VERDICT_KIND = 1 then 1 else 0)) (s.runNow + 1) false
  else s

/-- RUN_OPEN. -/
def execRunOpen (s : State) : Out := whenLive s State.nextRun

/-- A retraction reaches Agate: every bucket of the open and the next run that holds a contribution of the device
whose epoch is at or after the retracted one fails (R394). -/
def State.agateRetract (s : State) (dev e : Nat) : State :=
  let hit := fun (r : RxSlot) => r.dev == dev && r.has 0 && epochGe r.epoch e
  let mine := s.agate.slots.filter hit
  let fails := fun (x : RxPiece) => if x.n = 0 ∧ x.bad = 0 then { x with bad := 5 } else x
  let s := { s with agate := { s.agate with
    slots := mapIf hit (fun r => { r with pieces := r.pieces.map fails }) s.agate.slots } }
  let run := s.runNow
  (mine.filter fun r => r.run == run).foldl (fun s r => s.bucketFail r.bucket 5) s

/-! ### agput (R223, R377, R378) -/

/-- The configuration check of an agput (R377, R378). -/
def State.agputConfig (s : State) (n b step : Nat) : Bool :=
  let st := s.get Reg.AGATE.STEP_STATE
  s.get Reg.AGATE.CTL_EN == 1 && s.jobOf n == s.agateJob && st != 0 && decide (b < 1024) &&
    s.get (Reg.AGATE.BUCKET_VALID b) == 1 && s.stepNow == step &&
    (st != 1 || decide (lookupD 0 b s.agate.dispatched < s.contribs b))

/-- The checks of an agput's operands (R377). -/
def agputFlt (i : Insn) (job n out : Nat) : Option Flt :=
  let d := i.td roleD
  let a := i.td roleA
  let x := i.td roleX
  firstFlt [d.check roleD job [out] false false false, a.check roleA job [1] false false false,
    x.check roleX job [2] false false false,
    need (a.rank ≤ 5 && a.count = n) (fltOf cSHAPE roleA a 0),
    need (d.rank = a.rank && d.sizes = a.sizes) (fltOf cSHAPE roleD d 0),
    need (x.rank = a.rank + 1 && x.sizes = a.sizes ++ [2]) (fltOf cSHAPE roleX x 0),
    d.checkWrite roleD, x.checkWrite roleX,
    need (!meets d.ranges a.ranges && !meets d.ranges x.ranges) (fltOf cALIAS roleD d 0),
    need (!meets x.ranges a.ranges) (fltOf cALIAS roleX x 0)]

/-- What an agput does at dispatch (R377, R378). -/
def State.agputRun (s : State) (n : Nat) (i : Insn) : State :=
  let b := i.mod 35 20
  if !s.agputConfig n b (i.mod 19 4) then s.takeFault n i (flt cCONFIG)
  else if s.get Reg.AGATE.STEP_STATE = 2 then (s.inc Reg.AGATE.DISCARD 1).markDone n i.tag Cnt.none
  else match agputFlt i (s.jobOf n) (s.get (Reg.AGATE.BUCKET_N b)) (s.get (Reg.AGATE.BUCKET_OUT_TYPE b)) with
    | some f => s.takeFault n i f
    | none => { s with agate := { s.agate with
        dispatched := assocPut b (lookupD 0 b s.agate.dispatched + 1) s.agate.dispatched,
        waiting := s.agate.waiting ++ [⟨n, i.tag, b, i.dD, i.dA, i.dX⟩] } }

/-- agput (R223). -/
def execAgput (c : CoreIx) (s : State) : Out :=
  whenLive s fun s => s.dispatch c.val 0x50 always fun s i => s.agputRun c.val i

/-! ### Compression (R379, R380, R386) -/

/-- The modulus of the checksums (R386). -/
def chkP : Nat := 2 ^ 61 - 1

/-- The checksum of values in units of 2^-96: weights are the powers of 37, from the first (R386). -/
def checksum (xs : List Int) : Nat :=
  (xs.foldl (fun (a : Nat × Nat) x => ((a.1 + a.2 * (x % (chkP : Int)).toNat) % chkP, a.2 * 37 % chkP)) (0, 37)).1

/-- The magnitude of a value. -/
def Num.abs : Num → Num
  | .fin _ m e => .fin false m e
  | .inf _ => .inf false
  | .nan => .nan

/-- A magnitude divided by n and rounded once to FP32 (R379). -/
def meanCode (sum : Num) (n : Nat) : Nat :=
  match sum with
  | .fin _ m e =>
    let a := m * 2 ^ 64 / n
    (convert 1 .rne (.fin false (2 * a + ofBool (decide (m * 2 ^ 64 % n ≠ 0))) (e - 65))).1
  | _ => 0x7F800000

/-- A multiple of 2^-96 as a number of units. -/
def unitsOf96 (x : Num) : Nat :=
  match x with
  | .fin _ m e => roundInt .rne m (e + 96)
  | _ => 0

/-- What compressing a contribution gives (R379, R380). -/
structure Packed where
  range : Bool
  under : Bool
  sigma : Nat
  bits : List Bool
  errs : List Nat
  flush : Nat
  check : Nat

/-- An error that the compression leaves, rounded to BF16 (R379). A zero error of two negative zeros under σ = 0 has a sign
that the spec does not state: free (log entry 86). -/
def packError (x : Num) : Nat × Cnt :=
  match x with
  | .fin true 0 _ => (0x8000 * (Config.openValue 86 0 % 2), Cnt.none)
  | x => convert 2 .rne x

/-- Compress: g and e are the entries of A and of the error memory (R379, R380, R386). -/
def pack (g e : List Num) : Packed :=
  let v := List.zipWith Num.add g e
  let s0 := meanCode (v.foldl (fun a x => a.add x.abs) (Num.zero false)) v.length
  let x0 := decodeNum 1 s0
  if (g ++ e).any (fun x => !x.isFin) || !x0.isFin || !(x0.lt (.fin false 1 81)) then
    ⟨true, false, 0, [], [], 0, 0⟩
  else
    let under := x0.lt (.fin false 1 (-73))
    let sigma := if under then Num.fin false (unitsOf96 x0) (-96) else x0
    let bits := v.map fun x => !x.isNeg || x.isZero
    let errs := List.zipWith (fun x b => packError (x.add (if b then sigma.neg else sigma))) v bits
    ⟨false, under, (convert 1 .rne sigma).1, bits, errs.map Prod.fst, (errs.map fun r => r.2.flush).sum,
      checksum (bits.map fun b => if b then (unitsOf96 sigma : Int) else -(unitsOf96 sigma : Int))⟩

/-- Bits packed into bytes, the first lowest, padded to whole sectors (R390). -/
def bitBytes (n : Nat) (bits : List Bool) : Bytes :=
  (List.range (slotBytes n - 64)).map fun k =>
    BitVec.ofNat 8 (((List.range 8).map fun j => ofBool (bits.getD (8 * k + j) false) * 2 ^ j).sum)

/-- The header of a contribution (R390). -/
def State.contribHeader (s : State) (b idx : Nat) (k : Packed) : Bytes :=
  bytesOf 2 s.stepNow ++ bytesOf 1 s.runNow ++ bytesOf 1 (ofBool k.range + 2 * ofBool k.under) ++ bytesOf 2 b ++
    bytesOf 1 s.dev ++ bytesOf 1 idx ++ bytesOf 4 (s.get (Reg.AGATE.BUCKET_N b)) ++ bytesOf 4 k.sigma ++
    bytesOf 8 k.check ++ bytesOf 4 s.epoch ++ bytesOf 36 0

/-- Send a contribution to every other member: the bit pieces, then piece 0 (R381). -/
def State.sendContrib (s : State) (b idx : Nat) (data : Bytes) : State :=
  let count := ceilDiv data.length 2048
  ((List.range count).drop 1 ++ [0]).foldl (fun s k =>
    s.reqAll 0x0B 4 agateSrc s.agateJob (agateAddr k b s.runNow s.stepNow idx 1)
      (slice (2048 * k) (min 2048 (data.length - 2048 * k)) data)) s

/-- Take the contribution at the front off the list. -/
def State.dropContribution (s : State) : State := { s with agate := { s.agate with waiting := s.agate.waiting.drop 1 } }

/-- A contribution has been compressed: its slot, its pieces, its counts, and the end of its agput (R380, R381). The elements of the
error memory that it flushed count in AGATE.FLUSH (R379); in NUM_FLUSH and NUM_LAST of the core the agput counts nothing (DESIGN
CHOICE, log entry 122). -/
def State.deliverContribution (s : State) (c : Contribution) (k : Packed) : State :=
  let b := c.bucket
  let n := s.get (Reg.AGATE.BUCKET_N b)
  let idx := s.get (Reg.AGATE.BUCKET_LOCAL b)
  let data := if k.range then s.contribHeader b idx k else s.contribHeader b idx k ++ bitBytes n k.bits
  match s.writeVa agateSrc s.agateJob (s.slotVa b s.dev idx) data false with
  | (s, .done) =>
    let s := (s.dropContribution.sendContrib b idx data).after 34 (.done c.core c.tag)
    let s := (((s.inc Reg.AGATE.TAKEN 1).inc Reg.AGATE.UNDER (ofBool k.under)).inc Reg.AGATE.RANGE
      (ofBool k.range)).inc Reg.AGATE.FLUSH k.flush
    let s := s.puts [(Reg.AGATE.BUCKET_LOCAL b, idx + 1), (Reg.AGATE.BUCKET_RECEIVED b, s.get (Reg.AGATE.BUCKET_RECEIVED b) + 1)]
    let piece := fun (j : Nat) => RxPiece.mk j s.stepNow (if k.range ∧ j = 0 then 6 else 0)
    let slot : RxSlot := ⟨s.runNow, b, s.dev, idx, (List.range (slotPieces n)).map piece, s.epoch % 2 ^ 32, c.dD, true⟩
    let s := { s with agate := { s.agate with slots := s.agate.slots ++ [slot] } }
    let s := s.pushCheck agateSrc 0x0B c.tag s.agateJob b []
    if k.range then s.bucketFail b 6 else s
  | (s, .bad _ re _) =>
    (({ s with agate := { s.agate with waiting := s.agate.waiting.drop 1 ++ [c] } } : State).bucketFail b 10).walkKill
      s.agateJob agateSrc re
  | (s, _) => s

/-- CONTRIBUTION_TAKEN: the oldest waiting contribution is compressed in two passes over A and X (R379 to R381); where its bucket is
late and the lead has judged the run for that, it has stopped (R395, R396). -/
def State.takeContribution (s : State) : State :=
  match s.agate.waiting with
  | [] => s
  | c :: _ =>
    match (s.core c.core).window.find? (fun i => i.tag = c.tag) with
    | none => s.dropContribution
    | some i =>
      let s := s.expireBucket c.bucket
      if s.agate.waiting.head? ≠ some c then s else
      let job := s.agateJob
      let a := i.td roleA
      let x := i.td roleX
      let p := s.stepNow % 2
      let fail := fun (s : State) (f : Flt) => s.dropContribution.takeFault c.core i f
      let col := fun q => a.allIx.map (· ++ [q])
      match s.readSpans agateSrc job (spans (elemBytes (a.places a.allIx))) with
      | (s, _, .bad v re l) => fail s (fltOf cADDRESS roleA a (addrDetail v re l job))
      | (s, _, .poison v) => fail s (fltOf cPOISON roleA a v)
      | (s, ma, .done) =>
        match s.readSpans agateSrc job (spans (elemBytes (x.places (col p)))) with
        | (s, _, .bad v re l) => fail s (fltOf cADDRESS roleX x (addrDetail v re l job))
        | (s, _, .poison v) => fail s (fltOf cPOISON roleX x v)
        | (s, mx, .done) =>
          if s.others.any fun d => (s.route d).isNone then
            fail s ⟨cADDRESS, 0, 0, addrDetail 0 (Config.openValue 24 0 % 16) 0 job⟩
          else
            let k := pack (a.allIx.map fun ix => decodeNum 1 (codeIn ma (a.bitAddr ix) 32))
              ((col p).map fun ix => decodeNum 2 (codeIn mx (x.bitAddr ix) 16))
            let els := if k.range then [] else
              List.zipWith (fun ix e => El.mk (x.bitAddr ix) 16 e false) (col (1 - p)) k.errs
            match s.writeUnit agateSrc 34 job els with
            | (s, .bad v re l) => fail s (fltOf cADDRESS roleX x (addrDetail v re l job))
            | (s, _) => s.deliverContribution c k

/-- CONTRIBUTION_TAKEN. -/
def execContributionTaken (s : State) : Out := whenLive s State.takeContribution

/-! ### Receiving pieces (R391, R392) -/

/-- Note a piece that has been written into its slot; bad is the reason for which it fails its bucket, RANGE (6) in a header that
shows it, or ADDRESS (10). -/
def State.notePiece (s : State) (run b dev idx : Nat) (x : RxPiece) (epoch : Nat) : State :=
  let n := s.get (Reg.AGATE.BUCKET_N b)
  let is := fun (r : RxSlot) => r.names run b dev idx
  let old := (s.agate.slots.find? is).getD ⟨run, b, dev, idx, [], 0, 0, false⟩
  let new : RxSlot := { old.put x with epoch := if x.n = 0 then epoch else old.epoch }
  let s := { s with agate := { s.agate with slots := s.agate.slots.filter (fun r => !is r) ++ [new] } }
  let s := if new.complete n ∧ !old.complete n then
      let s := s.inc Reg.AGATE.RECEIVED 1
      if s.agateOpen ∧ run = s.runNow then
        s.put (Reg.AGATE.BUCKET_RECEIVED b) (s.get (Reg.AGATE.BUCKET_RECEIVED b) + 1) else s
    else s
  if x.bad ≠ 0 ∧ run = s.runNow then s.bucketFail b x.bad else s

/-- A CONTRIB piece: it is written into its slot when it names the open run or the next one (R392). -/
def State.takeContrib (s : State) (d : Nat) (h : Hdr) (p : Bytes) : State :=
  let a := h.addr.toNat
  let piece := bitsOf a 56 46
  let b := bitsOf a 45 30
  let run := bitsOf a 29 22
  let step := bitsOf a 21 6
  let idx := bitsOf a 5 3
  let dev := originOf h
  let s := if s.agateOpen && run == s.runNow then s.expireBucket b else s
  let st := s.get Reg.AGATE.STEP_STATE
  let now := st = 1 ∧ run = s.runNow ∧ step = s.stepNow
  let next := (st = 1 ∨ st = 2) ∧ run = (s.runNow + 1) % 256
  if (now ∨ next) ∧ b < 1024 ∧ s.get (Reg.AGATE.BUCKET_VALID b) = 1 ∧ idx < s.contribs b ∧
      piece < slotPieces (s.get (Reg.AGATE.BUCKET_N b)) ∧ s.members.contains dev then
    let job := s.agateJob
    let epoch := natOf (slice 24 4 p)
    match s.receiveAt agateSrc 34 job (s.slotVa b dev idx + 2048 * piece) h p with
    | (s, secs, .poison va) => ((s.ledgerAdd d h secs).countKill job).unitConsume job agateSrc 0x0B va
    | (s, secs, .done) =>
      (s.ledgerAdd d h secs).notePiece run b dev idx
        ⟨piece, step, if piece = 0 && (p.getD 3 0).toNat % 2 = 1 && !bitOf h.poison.toNat 0 then 6 else 0⟩ epoch
    | (s, _, .bad _ re _) => (if now then s.bucketFail b 10 else
        s.notePiece run b dev idx ⟨piece, step, 10⟩ epoch).walkKill job agateSrc re
  else s.inc Reg.AGATE.DISCARD 1

/-! ### The sum stage (R382, R383, R387, R388) -/

/-- What the bytes of a slot say: the values in units of 2^-96 and the carried checksum; none where the scale is not
on the grid of the accumulator (R382, R387, R390). -/
def slotValues (n : Nat) (data : Bytes) : Option (List Int × Nat) :=
  let sigma := decodeNum 1 (natOf (slice 12 4 data))
  let u := unitsOf96 sigma
  let on := match sigma with
    | .fin neg m e => !neg && (Num.add (.fin false m e) (.fin true u (-96))).isZero
    | _ => false
  let bit := fun i => bitOf ((data.getD (64 + i / 8) 0).toNat) (i % 8)
  if on then some ((List.range n).map fun i => if bit i then (u : Int) else -(u : Int), natOf (slice 16 8 data) % 2 ^ 61)
  else none

/-- Read the slots of a bucket and add their values: the sums and the sum of the checksums, or the reason of the
failure with that of a translation that failed (R387, R393, R394). -/
def State.sumSlots (s : State) (b n : Nat) : List RxSlot → List Int → Nat → State × ((Nat × Nat) ⊕ (List Int × Nat))
  | [], acc, tot => (s, .inr (acc, tot))
  | r :: rest, acc, tot =>
    match s.readVa agateSrc s.agateJob (s.slotVa b r.dev r.index) (slotBytes n) with
    | (s, _, _, .bad _ re _) => (s, .inl (10, re))
    | (s, data, p, _) =>
      if p then (s, .inl (8, 0))
      else match slotValues n data with
        | none => (s, .inl (2, 0))
        | some (xs, c) =>
          if checksum xs = c then State.sumSlots s b n rest (List.zipWith (· + ·) acc xs) ((tot + c) % chkP)
          else (s, .inl (2, 0))

/-- Write the sums to the D of each local contribution (R383). -/
def State.writeSums (s : State) (codes : List Nat) : List RxSlot → State × Acc
  | [] => (s, .done)
  | r :: rest =>
    let d := parseTD r.dD
    match s.writeUnit agateSrc 34 s.agateJob (List.zipWith (fun ix c => El.mk (d.bitAddr ix) d.wbits c false) d.allIx codes)
    with
    | (s, .done) => State.writeSums s codes rest
    | (s, a) => (s, a)

/-- Every D of a bucket is written: its sum latch is set once the writes are complete (R383). -/
def State.sumWritten (s : State) (b : Nat) : State :=
  if s.get (Reg.AGATE.BUCKET_SUM_V b) = 1 ∧ !s.agate.latched.contains b then
    ({ s with agate := { s.agate with latched := b :: s.agate.latched } } : State).after 34
      (.latch agateSrc (s.get (Reg.AGATE.BUCKET_SUM b)))
  else s

/-- The sum of a bucket has been formed: it is written, unless the run has failed here, and checked; the bucket then
awaits epochs and verdicts (R383, R384, R388). -/
def State.finishSum (s : State) (b : Nat) (slots : List RxSlot) (sums : List Int) (tot : Nat) : State :=
  let exp := signed 8 (s.get (Reg.AGATE.BUCKET_SCALE_EXP b))
  let out := sums.map fun x => convert (s.get (Reg.AGATE.BUCKET_OUT_TYPE b)) .rne
    (if x = 0 then Num.zero false else (Num.ofInt x).scaleBy (exp - 96))
  if checksum sums ≠ tot then s.bucketFail b 3
  else
    let s := s.put (Reg.AGATE.BUCKET_STATE b) 3
    let s := { s with agate := { s.agate with summed := s.agate.summed ++ [(b, tot)] } }
    if s.runFailed then s
    else match s.writeSums (out.map Prod.fst) (slots.filter RxSlot.localC) with
      | (s, .done) =>
        let s := (s.inc Reg.AGATE.SAT (out.map fun r => r.2.sat).sum).inc Reg.AGATE.FLUSH (out.map fun r => r.2.flush).sum
        (s.sumWritten b).pushCheck agateSrc 0x0B 0 s.agateJob b []
      | (s, .bad _ re _) => (s.bucketFail b 10).walkKill s.agateJob agateSrc re
      | (s, _) => s.bucketFail b 10

/-- The slots of a bucket in the open run, by device and index. -/
def State.bucketSlots (s : State) (b : Nat) : List RxSlot :=
  s.members.flatMap fun dev => (List.range (s.contribs b)).filterMap fun j =>
    s.agate.slots.find? fun r => r.names s.runNow b dev j

/-- SUM_STAGE: all contributions of a collecting bucket are complete (R383). -/
def State.sumStage (s : State) (b : Nat) : State :=
  let n := s.get (Reg.AGATE.BUCKET_N b)
  if s.agateOpen ∧ s.get (Reg.AGATE.BUCKET_VALID b) = 1 ∧ s.get (Reg.AGATE.BUCKET_STATE b) = 1 ∧
      s.completeIn s.runNow b = s.needed b then
    let slots := s.bucketSlots b
    match (s.put (Reg.AGATE.BUCKET_STATE b) 2).sumSlots b n slots (List.replicate n 0) 0 with
    | (s, .inl (reason, re)) => (s.bucketFail b reason).walkKill s.agateJob agateSrc re
    | (s, .inr (sums, tot)) => s.finishSum b slots sums tot
  else s

/-- SUM_STAGE. -/
def execSumStage (b : Fin 1024) (s : State) : Out := whenLive s fun s => s.sumStage b.val

/-! ### Deadlines, success, reports and verdicts (R393, R395, R396) -/

/-- BUCKET_DEADLINE: T_OPEN + DEADLINE_US with a contribution incomplete (R376, R393). -/
def State.bucketLate (s : State) (b : Nat) : State :=
  if s.agateOpen ∧ s.get (Reg.AGATE.BUCKET_VALID b) = 1 ∧ s.get (Reg.AGATE.BUCKET_STATE b) = 1 ∧
      s.completeIn s.runNow b ≠ s.needed b then
    (s.passTo (s.deadline b)).bucketFail b 1
  else s

/-- BUCKET_DEADLINE. -/
def execBucketDeadline (b : Fin 1024) (s : State) : Out := whenLive s fun s => s.bucketLate b.val

/-- The epoch of a device has closed here (R317, R320): this device's own by its own closing. -/
def State.epochClosed (s : State) (dev e : Nat) : Bool :=
  if dev = s.dev then s.doors.nextClose != 0 && epochGe (s.doors.nextClose - 1) e
  else match s.doors.closed.find? (fun x => x.1 == dev) with
    | some x => epochGe x.2 e
    | none => false

/-- BUCKET_SUCCESS: every epoch closed, every verdict given (R393). -/
def State.bucketDone (s : State) (b : Nat) : State :=
  if s.agateOpen ∧ s.get (Reg.AGATE.BUCKET_STATE b) = 3 ∧
      ((s.bucketSlots b).all fun r => s.epochClosed r.dev r.epoch) ∧
      !(s.checks.any fun c => c.src == agateSrc && c.bucket == b) then
    (s.put (Reg.AGATE.BUCKET_STATE b) 4).sendReport b 0 (lookupD 0 b s.agate.summed)
  else s

/-- BUCKET_SUCCESS. -/
def execBucketSuccess (b : Fin 1024) (s : State) : Out := whenLive s fun s => s.bucketDone b.val

/-- A packet names the open run. -/
def State.namesRun (s : State) (a : Nat) : Bool :=
  s.agateOpen && bitsOf a 29 22 == s.runNow && bitsOf a 21 6 == s.stepNow

/-- A REPORT reaches the lead (R392, R395). -/
def State.gotReport (s : State) (d : Nat) (h : Hdr) (p : Bytes) : State :=
  let s := s.ledgerAdd d h []
  if s.namesRun h.addr.toNat ∧ !s.isMember then
    s.takeReport ⟨bitsOf h.addr.toNat 45 30, originOf h, natOf (slice 0 8 p), (p.getD 8 0).toNat⟩
  else s.inc Reg.AGATE.DISCARD 1

/-- REPORT. -/
def execReport (d : DoorIx) (h : Hdr) (p : Bytes) (s : State) : Out :=
  packet d 4 h p (kind3 2) (fun s => s.gotReport d.val h p) s

/-- The lowest member that has not reported some valid bucket. -/
def State.missingDevice (s : State) : Option Nat :=
  s.members.find? fun d => s.buckets.any fun b => !(s.agate.reports.any fun r => r.bucket == b && r.dev == d)

/-- VERDICT_TIMEOUT: the lead names the lowest missing device; the manual names no bucket, so that value is free (R395;
log entry 28). -/
def State.verdictLate (s : State) : State :=
  if s.agateOpen ∧ !s.isMember then
    match s.missingDevice with
    | none => s
    | some dev =>
      let top := (s.buckets.map fun b => s.get (Reg.AGATE.BUCKET_DEADLINE_US b)).foldl max 0
      let s := s.passTo (s.get Reg.AGATE.T_OPEN + (top + max 1 (s.get Reg.AGATE.VERDICT_TIMEOUT_US)) * 1000)
      s.draw.postVerdict 2 9 (Config.openValue 28 s.freeCtr % 1024) dev
  else s

/-- VERDICT_TIMEOUT. -/
def execVerdictTimeout (s : State) : Out := whenLive s State.verdictLate

/-- A VERDICT reaches a member (R392, R396). -/
def State.gotVerdict (s : State) (d : Nat) (h : Hdr) (p : Bytes) : State :=
  let s := s.ledgerAdd d h []
  let kind := (p.getD 8 0).toNat
  if s.namesRun h.addr.toNat ∧ s.isMember ∧ (kind = 1 ∨ kind = 2) then
    s.applyVerdict kind (p.getD 9 0).toNat (natOf (slice 10 2 p)) (p.getD 12 0).toNat (natOf (slice 0 8 p))
  else s.inc Reg.AGATE.DISCARD 1

/-- VERDICT. -/
def execVerdict (d : DoorIx) (h : Hdr) (p : Bytes) (s : State) : Out :=
  packet d 4 h p (kind3 3) (fun s => s.gotVerdict d.val h p) s

end Sys2Proof.Machine
end

