-- ==== Sys2Proof/Machine/Expert.lean ====
section
/-!
DEFINITION. Machine/Expert.lean: the expert router (chapter 12): xdisp, xrecv and xret, the summaries, the slot
allocation, tokens and returns, closing and cancelling a batch.
-/

namespace Sys2Proof.Machine

/-! ### Batches and placement (R331 to R335) -/

/-- The expert router's source number (R19). -/
def expSrc : Nat := 0x403

/-- This device's tray position. -/
def State.pos (s : State) : Nat := s.dev % 16

/-- Positions of this tray's members. -/
def State.trayPositions (s : State) : List Nat := (s.members.filter fun d => d / 16 == s.dev / 16).map (· % 16)

/-- An expert is placed on this device. -/
def State.placedHere (s : State) (e : Nat) : Bool :=
  s.get (Reg.EXPERT.PLACE_VALID e) == 1 && s.get (Reg.EXPERT.PLACE_POS e) == s.pos

/-- The experts placed on this device. -/
def State.localExperts (s : State) : List Nat := (List.range 64).filter s.placedHere

/-- The most rows an expert receives (R348). -/
def State.reserved (s : State) (e : Nat) : Nat := s.get (Reg.EXPERT.PLACE_CAP e) + s.get (Reg.EXPERT.PLACE_PCAP e)

/-- The open batch of a generation. -/
def State.batch? (s : State) (g : Nat) : Option Batch := s.batches.find? fun b => b.gen == g

/-- Change the open batch of a generation. -/
def State.mapBatch (s : State) (g : Nat) (f : Batch → Batch) : State :=
  { s with batches := mapIf (fun b => b.gen == g) f s.batches }

/-- The generation is retired: neither that of an open batch nor new (R333). -/
def State.genRetired (s : State) (g : Nat) : Bool := (s.batch? g).isNone && !s.genNew g

/-- Open a batch of a new generation in the lowest free entry; one that is open stays (R333). -/
def State.openBatch (s : State) (g job : Nat) : State :=
  if (s.batch? g).isSome then s
  else
    let free := ((List.range 8).find? fun k => !(s.batches.any fun b => b.slot == k)).getD 0
    let b : Batch := ⟨g, job, free, [], [], [], false, [], [], [], [], [], []⟩
    ({ s with batches := s.batches ++ [b] } : State).put Reg.EXPERT.NEWEST g

/-- An instruction of a generation may dispatch: it does not open a ninth batch (R334). -/
def State.batchRoom (s : State) (g : Nat) : Bool :=
  (s.batch? g).isSome || !s.genNew g || decide (s.batches.length < 8)

/-- The bytes of a row. -/
def TD.rowLen (d : TD) : Nat := d.size 0 * d.wbits / 8

/-- A row occupies a multiple of 64 bytes (R336). -/
def TD.wholeRows (d : TD) : Bool := d.size 0 * d.wbits % 512 == 0

/-- The pieces of a row (R351). -/
def rowPieces (r : Nat) : Nat := ceilDiv r 2048

/-- What a batch must agree on: TOPK, token type, row length, job (R338). -/
structure Agreed where
  topk : Nat
  type : Nat
  row : Nat
  job : Nat
deriving DecidableEq, Repr

/-- What an xdisp brings to the agreement. -/
def XPart.agreed (p : XPart) : Agreed := ⟨p.topk, (parseTD p.dA).type, (parseTD p.dA).rowLen, p.job⟩

/-- What a summary brings. -/
def Demand.agreed (d : Demand) : Agreed := ⟨d.topk, d.type, d.rowBytes, d.job⟩

/-- What is known of a batch's agreement on this device. -/
def Batch.known (b : Batch) : Option Agreed :=
  match b.xdisps, b.demands with
  | p :: _, _ => some p.agreed
  | [], d :: _ => some d.agreed
  | [], [] => none

/-- The batch's job, which its packets carry (R338, R351). -/
def Batch.jobNow (b : Batch) : Nat := (b.known.map Agreed.job).getD b.job

/-! ### Moving rows -/

/-- Read bytes through bound pages: data and poison. -/
def State.readBound (s : State) (job : Nat) (b : Bound) : List (Nat × Nat) → State × Bytes × Bool
  | [] => (s, [], false)
  | (va, n) :: r =>
    match s.readPa expSrc job (b.pa va) n with
    | (s, data, p) =>
      match State.readBound s job b r with
      | (s, more, q) => (s, data ++ more, p || q)

/-- Read the 64-byte parts of a row: the bytes, and a mask of the parts that are poisoned. -/
def State.readRow (s : State) (job : Nat) (b : Bound) (va n : Nat) : State × Bytes × Nat :=
  (List.range (ceilDiv n 64)).foldl (fun acc k =>
    match acc.1.readBound job b (sectorsOf (va + 64 * k) (min 64 (n - 64 * k))) with
    | (s, data, p) => (s, acc.2.1 ++ data, acc.2.2 + ofBool p * 2 ^ k)) (s, [], 0)

/-- Write a payload at an address through bound pages, sector by sector; a sector that takes bytes of a poisoned 64-byte part is
poisoned. The address where poison met POISON_KILL (R128, R184). -/
def State.writeRow (s : State) (job : Nat) (b : Bound) (va : Nat) (p : Bytes) (poison : Nat) : State × Option Nat :=
  (sectorsOf va p.length).foldl (fun acc e =>
    match acc.1.putSector expSrc 35 job e.1 (b.pa e.1) (b.kill e.1) (b.snap e.1) ((slice (e.1 - va) e.2 p).map some)
      (bitOf poison ((e.1 - va) / 64) || bitOf poison ((e.1 - va + e.2 - 1) / 64)) with
    | (s, true) => (s, some e.1)
    | (s, false) => (s, acc.2)) (s, none)

/-- A job whose poisoned row met POISON_KILL is killed (R184). -/
def State.afterRow (r : State × Option Nat) (job : Nat) : State :=
  match r with
  | (s, some va) => (s.countKill job).unitConsume job expSrc 0x0C va
  | (s, none) => s

/-- The physical sectors of a payload, with their pages' POISON_KILL, for the ledger (R320). -/
def rowSectors (b : Bound) (va n : Nat) : List Nat :=
  (sectorsOf va n).map fun e => sectorPa (b.pa e.1) + ofBool (b.kill e.1)

/-! ### Receive rows and return rows (R342, R344, R346) -/

/-- The rows of an expert after the allocation. -/
def Batch.rowsOf (b : Batch) (e : Nat) : Nat := b.rows.getD e 0

/-- The tags of an expert's rows. -/
def Batch.tagsOf (b : Batch) (e : Nat) : List (Nat × Nat) :=
  (b.tags.filter fun t => t.1 == e).map fun t => (t.2.1, t.2.2)

/-- An xrecv completes when its rows are complete and its tag table is written: once its writes are complete (R344). -/
def State.tryRecv (s : State) (g e : Nat) : State :=
  match s.batch? g with
  | none => s
  | some b =>
    match b.xrecvs.find? (fun p => p.expert == e && !p.finished) with
    | none => s
    | some p =>
      let n := rowPieces (parseTD p.dD).rowLen
      let whole := (List.range (b.rowsOf e)).all fun j => (List.range n).all fun k => b.got.contains (e, j, k)
      if b.allocated ∧ whole then
        let d := parseTD p.dX
        let s := s.putEls p.job p.bound d (tagTable d (b.rowsOf e) (b.pool.getD e 0) (b.tagsOf e))
        let s := s.mapBatch g fun b => { b with xrecvs := mapIf (fun x => x.expert == e) (fun x => { x with finished := true }) b.xrecvs }
        s.after 35 (.done p.core p.tag)
      else s

/-- A piece of a return row is written into the return buffer; the last one sets the core's return latch (R346). -/
def State.putReturn (s : State) (b : Batch) (p : XPart) (row piece : Nat) (data : Bytes) (poison : Nat) : State :=
  let len := (parseTD p.dA).rowLen
  let s := State.afterRow (s.writeRow p.job p.bound (p.base + row * len + 2048 * piece) data poison) p.job
  let got := b.gotRet ++ [(p.core, row, piece)]
  let whole := (List.range (rowPieces len)).all fun k => got.contains (p.core, row, k)
  let owed := if whole then p.owed.filter (fun r => r ≠ row) else p.owed
  let s := s.mapBatch b.gen fun b => { b with
    gotRet := got, xdisps := mapIf (fun x => x.core == p.core) (fun x => { x with owed := owed }) b.xdisps }
  if whole ∧ owed.isEmpty ∧ !p.owed.isEmpty then s.setReturnLatch b p.core else s

/-- The address of an expert packet (R351). -/
def expertAddr (piece row core gen expert kind : Nat) : Nat :=
  piece * 2 ^ 45 + row * 2 ^ 29 + core * 2 ^ 26 + gen * 2 ^ 10 + expert * 16 + kind

/-- Send the pieces of a row to a device; where ack is set each packet asks for an acknowledgement, and the tags are
listed (R342, R351). -/
def State.sendRow (s : State) (dst job : Nat) (addr : Nat → Nat) (data : Bytes) (poison : Nat) (ack : Bool) :
    State × List Nat :=
  (List.range (rowPieces data.length)).foldl (fun acc k =>
    let part := slice (2048 * k) (min 2048 (data.length - 2048 * k)) data
    let tag := acc.1.doors.nextTag
    let h := { acc.1.hdr expSrc dst job (addr k) (ceilDiv part.length 64) with
               ackReq := ack, tag := BitVec.ofNat 16 (if ack then tag else 0),
               poison := BitVec.ofNat 32 (poison / 2 ^ (32 * k)) }
    let s := acc.1.sendPkt 5 h part
    if ack then ({ s with doors := { s.doors with nextTag := (tag + 1) % 65536 } }, acc.2 ++ [tag % 65536])
    else (s, acc.2)) (s, [])

/-- A result row goes back to its source, poisoned where the xret has faulted (R345, R346). -/
def State.sendReturn (s : State) (g tag : Nat) (data : Bytes) (poison : Nat) : State :=
  match s.batch? g with
  | none => s
  | some b =>
    let core := bitsOf tag 35 33
    let row := bitsOf tag 13 0 * ((b.known.map Agreed.topk).getD 1) + bitsOf tag 29 28
    let dst := bitsOf tag 41 36
    if dst = s.dev then
      match b.xdisps.find? (fun p => p.core == core && p.owed.contains row) with
      | none => s.inc Reg.EXPERT.RET_DISCARD 1
      | some _ => (List.range (rowPieces data.length)).foldl (fun s k =>
          match s.batch? g with
          | none => s
          | some b => match b.xdisps.find? (fun p => p.core == core) with
            | none => s
            | some p => s.putReturn b p row k (slice (2048 * k) (min 2048 (data.length - 2048 * k)) data)
                (poison / 2 ^ (32 * k) % 2 ^ 32)) s
    else (s.sendRow dst b.jobNow (fun k => expertAddr k row core g (bitsOf tag 47 42) 3) data poison false).1

/-- A faulted xret delivers a return that it owes as a poisoned row (R345). -/
def State.poisonReturn (s : State) (g tag : Nat) : State :=
  match s.batch? g with
  | none => s
  | some b =>
    let len := (b.known.map Agreed.row).getD 0
    s.sendReturn g tag (List.replicate len 0) (2 ^ ceilDiv len 64 - 1)

/-- A piece of a token row is written into the expert's receive buffer (R342, R344); where the
expert's xret has faulted already, its return goes out poisoned at once (R345). -/
def State.putToken (s : State) (b : Batch) (p : XPart) (row piece tag : Nat) (data : Bytes) (poison : Nat) : State :=
  let d := parseTD p.dD
  let s := State.afterRow (s.writeRow p.job p.bound (d.va [0, row] + 2048 * piece) data poison) p.job
  let s := s.mapBatch b.gen fun b => { b with got := b.got ++ [(p.expert, row, piece)],
                                              tags := if piece = 0 then b.tags ++ [(p.expert, row, tag)] else b.tags }
  let s := if piece = 0 ∧ b.xrets.any (fun x => x.expert == p.expert && !x.ok) then s.poisonReturn b.gen tag else s
  s.tryRecv b.gen p.expert

/-- An xdisp completes when D is written and every row it sent is complete at its target: acknowledged, or, for the rows that
stay here, once the writes are complete (R342). -/
def State.tryDisp (s : State) (g n : Nat) : State :=
  match s.batch? g with
  | none => s
  | some b =>
    match b.xdisps.find? (fun p => p.core == n) with
    | none => s
    | some p =>
      if b.allocated ∧ p.ackTags.isEmpty ∧ !p.finished ∧ !p.faulted then
        (s.mapBatch g fun b => { b with xdisps := mapIf (fun x => x.core == n) (fun x => { x with finished := true }) b.xdisps }).after
          35 (.done p.core p.tag)
      else s

/-- An acknowledgement of a TOKEN packet has come back. -/
def State.ackToken (s : State) (tag : Nat) : State :=
  let hit := s.batches.flatMap fun b => (b.xdisps.filter fun p => p.ackTags.contains tag).map fun p => (b.gen, p.core)
  let off := fun (p : XPart) => { p with ackTags := p.ackTags.filter (fun t => t ≠ tag) }
  let s := { s with batches := s.batches.map fun b => { b with xdisps := b.xdisps.map off } }
  hit.foldl (fun s e => s.tryDisp e.1 e.2) s

/-! ### The allocation (R339, R340) -/

/-- One round of the pool: a slot to each expert that still wants one, in ascending order, while slots remain. -/
def poolRound (o p : List Nat) (rem : Nat) : List Nat × Nat :=
  (List.zip o p).foldl (fun acc e =>
    if e.2 < e.1 ∧ 0 < acc.2 then (acc.1 ++ [e.2 + 1], acc.2 - 1) else (acc.1 ++ [e.2], acc.2)) ([], rem)

/-- Rounds until the pool is empty or nobody wants more. -/
def poolLoop : Nat → List Nat → List Nat → Nat → List Nat
  | 0, _, p, _ => p
  | k + 1, o, p, rem =>
    if rem ≠ 0 ∧ (List.zip o p).any fun e => e.2 < e.1 then
      let r := poolRound o p rem
      poolLoop k o r.1 r.2
    else p

/-- Rows for each expert, and of them from the pool (R339). -/
def allocate (a cap pcap : List Nat) (pool : Nat) : List Nat × List Nat :=
  let f := List.zipWith min a cap
  let o := List.zipWith min (List.zipWith (· - ·) a f) pcap
  let p := poolLoop (pool + 1) o (o.map fun _ => 0) pool
  (List.zipWith (· + ·) f p, p)

/-- The demand of a position for an expert. -/
def Batch.demand (b : Batch) (pos e : Nat) : Nat :=
  match b.demands.find? (fun d => d.pos == pos) with
  | some d => d.counts.getD e 0
  | none => 0

/-- The place of this device's first assignment to expert e in the order of R340. -/
def State.firstPlace (s : State) (b : Batch) (e : Nat) : Nat :=
  let order := ((List.range 16).map fun t => (e + t) % 16).filter s.trayPositions.contains
  ((order.takeWhile fun p => p ≠ s.pos).map fun p => b.demand p e).sum

/-- Rows for a list of choices: next holds the next place of each expert; a choice takes its place as its row when the
expert has that many (R340). -/
def takeRows (q : List Nat) : List (Option Nat) → List Nat → List (Option (Nat × Nat)) × List Nat
  | [], next => ([], next)
  | none :: r, next => let x := takeRows q r next; (none :: x.1, x.2)
  | some e :: r, next =>
    let j := next.getD e 0
    let x := takeRows q r (next.set e (j + 1))
    ((if j < q.getD e 0 then some (e, j) else none) :: x.1, x.2)

/-- The tag of a receive row (R344). -/
def rowTag (g e dev core k i : Nat) : Nat := g * 2 ^ 48 + e * 2 ^ 42 + dev * 2 ^ 36 + core * 2 ^ 33 + k * 2 ^ 28 + i

/-- Move one token: the row's bytes go to the expert's receive row, over the mesh or over a door (R342). -/
def State.moveToken (s : State) (g : Nat) (p : XPart) (c e j : Nat) : State :=
  match s.batch? g with
  | none => s
  | some b =>
    let a := parseTD p.dA
    let i := c / p.topk
    let dst := s.dev / 16 * 16 + s.get (Reg.EXPERT.PLACE_POS e)
    match s.readRow p.job p.bound (a.va [0, i]) a.rowLen with
    | (s, data, poison) =>
      if dst = s.dev then
        match b.xrecvs.find? (fun x => x.expert == e) with
        | none => s
        | some x => (List.range (rowPieces data.length)).foldl (fun s k =>
            match s.batch? g with
            | none => s
            | some b => s.putToken b x j k (rowTag g e s.dev p.core (c % p.topk) i)
                (slice (2048 * k) (min 2048 (data.length - 2048 * k)) data) (poison / 2 ^ (32 * k) % 2 ^ 32)) s
      else
        match s.sendRow dst b.jobNow (fun k => expertAddr k j 0 g e 2) data poison true with
        | (s, tags) => s.mapBatch g fun b => { b with
            xdisps := mapIf (fun x => x.core == p.core) (fun x => { x with ackTags := x.ackTags ++ tags }) b.xdisps }

/-- Carry out the allocation for one xdisp: its positions, its tokens, the returns it expects (R342, R346). -/
def State.placeXdisp (s : State) (g : Nat) (p : XPart) (rows : List (Option (Nat × Nat))) : State :=
  match s.batch? g with
  | none => s
  | some b =>
    let d := parseTD p.dD
    let taken := rows.zipIdx.filterMap fun e => e.1.map fun r => (e.2, r.1, r.2)
    let pos := rows.zipIdx.map fun e =>
      ([e.2 % p.topk, e.2 / p.topk], if e.1.isSome then e.2 / p.topk else 0xFFFFFFFF)
    let s := s.putEls p.job p.bound d pos
    let s := s.mapBatch g fun b => { b with
      xdisps := mapIf (fun x => x.core == p.core) (fun x => { x with owed := taken.map Prod.fst }) b.xdisps }
    let s := taken.foldl (fun s t => s.moveToken g p t.1 t.2.1 t.2.2) s
    let s := if taken.isEmpty then s.setReturnLatch b p.core else s
    s.tryDisp g p.core

/-- The counters and the SPILL record of the experts placed here (R347, R348). The manual does not lay the record's
syndrome out: it is a free value of the three numbers that it carries (log entry 30). -/
def State.countSpills (s : State) (g job : Nat) (a q p : List Nat) : State :=
  let mine := s.localExperts
  let s := mine.foldl (fun s e =>
    let s := (s.inc (Reg.EXPERT.DEMAND e) (a.getD e 0)).inc (Reg.EXPERT.POOL_USED e) (p.getD e 0)
    (s.inc (Reg.EXPERT.SPILL e) (a.getD e 0 - q.getD e 0)).inc (Reg.EXPERT.IDLE e) (s.reserved e - q.getD e 0)) s
  let spill := fun e => a.getD e 0 - q.getD e 0
  let worst := mine.foldl (fun best e => if spill best < spill e then e else best) (mine.headD 0)
  if mine.isEmpty ∨ spill worst = 0 then s
  else s.addRec (mkRec expSrc 0x0C 0 job 0x61 (Config.openValue 30 (spill worst * 2 ^ 22 + worst * 2 ^ 16 + g)))

/-- The four fields agree across the tray, in every xdisp here, and in every receive buffer here (R338). -/
def Batch.agrees (b : Batch) : Bool :=
  match b.demands with
  | [] => true
  | d :: rest =>
    let x := d.agreed
    rest.all (fun y => y.agreed == x) && b.xdisps.all (fun p => p.agreed == x) &&
      b.xrecvs.all fun p => (parseTD p.dD).type == x.type && (parseTD p.dD).rowLen == x.row

/-- Every summary of the tray has arrived: the batch is allocated, or cancelled where the summaries disagree (R338 to
R342). -/
def State.tryAllocate (s : State) (g : Nat) : State :=
  match s.batch? g with
  | none => s
  | some b =>
    let here := s.trayPositions.all fun p => b.demands.any fun d => d.pos == p
    if !b.sent ∨ !here ∨ b.allocated then s
    else if !b.agrees then
      ((s.addRec (mkRec expSrc 0x0C 1 b.jobNow 0x60 0)).inc Reg.EXPERT.MISMATCH 1).cancelGen g
    else
      let es := List.range 64
      let a := es.map fun e => (s.trayPositions.map fun p => b.demand p e).sum
      let qp := allocate a (es.map fun e => s.get (Reg.EXPERT.PLACE_CAP e)) (es.map fun e => s.get (Reg.EXPERT.PLACE_PCAP e))
        (min (s.get Reg.EXPERT.POOL) 65536)
      let s := s.mapBatch g fun b => { b with rows := qp.1, pool := qp.2 }
      let s := s.countSpills g b.jobNow a qp.1 qp.2
      let parts := (List.range 8).filterMap fun n => b.xdisps.find? fun p => p.core == n && !p.faulted
      let placed := parts.foldl (fun (acc : List (XPart × List (Option (Nat × Nat))) × List Nat) p =>
        let x := takeRows qp.1 p.choices acc.2
        (acc.1 ++ [(p, x.1)], x.2)) ([], es.map fun e => s.firstPlace b e)
      let s := placed.1.foldl (fun s e => s.placeXdisp g e.1 e.2) s
      s.localExperts.foldl (fun s e => s.tryRecv g e) s

/-! ### xdisp (R336, R337) -/

/-- The checks of a row buffer's descriptor (R336, R343). -/
def rowFlt (d : TD) (role job : Nat) : Option Flt :=
  firstFlt [d.check role job valueTypes false false false, need (d.rank = 2) (fltOf cSHAPE role d 0),
    need (d.size 0 ≤ 1 || d.stride 0 = 1) (fltOf cSHAPE role d 0), need d.wholeRows (fltOf cSHAPE role d 0)]

/-- xdisp's checks of its operands (R336). -/
def xdispFlt (i : Insn) (job : Nat) : Option Flt :=
  let a := i.td roleA
  let same := fun (d : TD) => decide (d.rank = 2) && d.sizes == [i.mod 19 18 + 1, a.size 1]
  let d := i.td roleD
  let b := i.td roleB
  let x := i.td roleX
  firstFlt [d.check roleD job [0x0C] false false false, rowFlt a roleA job,
    need (a.size 1 ≤ 16384) (fltOf cSHAPE roleA a 0), b.check roleB job [0x0C] false false false,
    x.check roleX job [1, 2, 3] false false false, need (same d) (fltOf cSHAPE roleD d 0),
    need (same b) (fltOf cSHAPE roleB b 0), need (same x) (fltOf cSHAPE roleX x 0), d.checkWrite roleD]

/-- The generation of an instruction of the EXPERT queue. -/
def Insn.gen (i : Insn) : Nat := i.mod 35 20

/-- An xdisp is ready: no ninth batch, and no other open batch of the core with its generation modulo 4 (R334,
R336). -/
def State.xdispReady (s : State) (n : Nat) (i : Insn) : Bool :=
  s.batchRoom i.gen && !(s.batches.any fun b => b.gen != i.gen && b.gen % 4 == i.gen % 4 && b.xdisps.any fun p => p.core == n)

/-- Class the choices of an xdisp, in the order of token and choice: the experts, or the fault of the first route that
names none (R337). -/
def State.classify (s : State) (i : Insn) (mb mx : List (Nat × Byte)) : List (Nat × Nat) → Flt ⊕ List (Option Nat)
  | [] => .inr []
  | (k, t) :: r =>
    let b := i.td roleB
    let x := i.td roleX
    let route := signed 32 (codeIn mb (b.bitAddr [k, t]) 32)
    let gate := decodeNum x.type (codeIn mx (x.bitAddr [k, t]) x.wbits)
    let rest := fun (o : Option Nat) => match State.classify s i mb mx r with
      | .inl f => Sum.inl f
      | .inr l => Sum.inr (o :: l)
    if route = -1 ∨ gate.isZero then rest none
    else if 0 ≤ route ∧ route < 64 ∧ s.get (Reg.EXPERT.PLACE_VALID route.toNat) = 1 then rest (some route.toNat)
    else .inl (fltOf cINDEX roleB b (valueDetail route (lin b.sizes [k, t])))

/-- Bind the pages of a return buffer (R336, R346). -/
def State.bindReturn (s : State) (job base n : Nat) : State × (Flt ⊕ Bound) :=
  s.bindUnits expSrc job .anywhere false true (fun va re l => ⟨cADDRESS, 0, 0, addrDetail va re l job⟩)
    ((unitsOf base n).map fun u => (u, max base (u * 2 ^ 21))) []

/-- A placed expert lies on a device to which no way is left (R309). -/
def State.unreachable (s : State) : Bool :=
  (List.range 64).any fun e => s.get (Reg.EXPERT.PLACE_VALID e) == 1 && !s.placedHere e &&
    (s.route (s.dev / 16 * 16 + s.get (Reg.EXPERT.PLACE_POS e))).isNone

/-- Enter an xdisp into its batch. -/
def State.joinXdisp (s : State) (n : Nat) (i : Insn) (b : Bound) (choices : List (Option Nat)) (faulted : Bool) : State :=
  let g := i.gen
  let latch := if s.get (Reg.EXPERT.RETURN_LATCH_V n (g % 4)) = 1 then some (s.get (Reg.EXPERT.RETURN_LATCH n (g % 4)))
    else none
  let p : XPart := ⟨n, i.tag, s.jobOf n, 0, i.dD, i.dA, i.dX, faulted, false, b, i.mod 19 18 + 1, choices,
    s.get (Reg.EXPERT.RETURN_BASE n (g % 4)), latch, [], []⟩
  (s.openBatch g (s.jobOf n)).mapBatch g fun b => { b with xdisps := b.xdisps ++ [p] }

/-- What an xdisp does at dispatch: its checks, its pages, and its count phase (R333, R335 to R337). -/
def State.xdispRun (s : State) (n : Nat) (i : Insn) : State :=
  let job := s.jobOf n
  let g := i.gen
  let twice : Bool := match s.batch? g with
    | some b => b.xdisps.any fun p => p.core == n
    | none => false
  let base := s.get (Reg.EXPERT.RETURN_BASE n (g % 4))
  let a := i.td roleA
  let b := i.td roleB
  let x := i.td roleX
  if s.genRetired g ∨ !s.dispCores.contains n ∨ twice then s.takeFault n i (flt cCONFIG)
  else match xdispFlt i job with
  | some f => s.takeFault n i f
  | none =>
    if s.unreachable then s.takeFault n i ⟨cADDRESS, 0, 0, addrDetail 0 (Config.openValue 24 0 % 16) 0 job⟩
    else match s.bindAll expSrc job .anywhere [⟨roleD, i.td roleD, false, true⟩, ⟨roleA, a, true, false⟩] with
    | (s, .inl f) => s.takeFault n i f
    | (s, .inr pages) =>
      match s.bindReturn job base (a.size 1 * (i.mod 19 18 + 1) * a.rowLen) with
      | (s, .inl f) => s.takeFault n i f
      | (s, .inr back) =>
        match s.readSpans expSrc job (spans (elemBytes (b.places b.allIx))) with
        | (s, _, .bad v re l) => (s.joinXdisp n i [] [] true).takeFault n i (fltOf cADDRESS roleB b (addrDetail v re l job))
        | (s, _, .poison v) => (s.joinXdisp n i [] [] true).takeFault n i (fltOf cPOISON roleB b v)
        | (s, mb, .done) =>
          match s.readSpans expSrc job (spans (elemBytes (x.places x.allIx))) with
          | (s, _, .bad v re l) => (s.joinXdisp n i [] [] true).takeFault n i (fltOf cADDRESS roleX x (addrDetail v re l job))
          | (s, _, .poison v) => (s.joinXdisp n i [] [] true).takeFault n i (fltOf cPOISON roleX x v)
          | (s, mx, .done) =>
            let order := (List.range (a.size 1)).flatMap fun t => (List.range (i.mod 19 18 + 1)).map fun k => (k, t)
            match s.classify i mb mx order with
            | .inl f => (s.joinXdisp n i [] [] true).takeFault n i f
            | .inr l => (s.joinXdisp n i (pages ++ back) l false).inc Reg.EXPERT.UNROUTED (l.filter Option.isNone).length


/-! ### xrecv (R343) -/

/-- A buffer agrees with what is known of the batch (R343, R345). -/
def agreeFlt (b : Option Batch) (d : TD) (role : Nat) : Option Flt :=
  match b.bind Batch.known with
  | none => none
  | some x => firstFlt [need (d.type = x.type) (fltOf cTYPE role d 0), need (d.rowLen = x.row) (fltOf cSHAPE role d 0)]

/-- xrecv's checks of its operands (R343). -/
def State.xrecvFlt (s : State) (i : Insn) (job e : Nat) : Option Flt :=
  let d := i.td roleD
  let x := i.td roleX
  firstFlt [rowFlt d roleD job, x.check roleX job [0x0D] false false false,
    need (s.reserved e ≤ d.size 1) (fltOf cSHAPE roleD d 0), need (x.rank = 1) (fltOf cSHAPE roleX x 0),
    need (2 + s.reserved e ≤ x.size 0) (fltOf cSHAPE roleX x 0), agreeFlt (s.batch? i.gen) d roleD,
    d.checkWrite roleD, x.checkWrite roleX]

/-- What an xrecv does at dispatch (R333, R335, R343). -/
def State.xrecvRun (s : State) (n : Nat) (i : Insn) : State :=
  let job := s.jobOf n
  let g := i.gen
  let e := i.mod 19 14
  let twice : Bool := match s.batch? g with
    | some b => b.xrecvs.any fun p => p.expert == e
    | none => false
  if s.genRetired g ∨ !s.placedHere e ∨ twice then s.takeFault n i (flt cCONFIG)
  else match s.xrecvFlt i job e with
  | some f => s.takeFault n i f
  | none =>
    match s.bindAll expSrc job .anywhere [⟨roleD, i.td roleD, false, true⟩, ⟨roleX, i.td roleX, false, true⟩] with
    | (s, .inl f) => s.takeFault n i f
    | (s, .inr pages) =>
      let p : XPart := ⟨n, i.tag, job, e, i.dD, i.dA, i.dX, false, false, pages, 1, [], 0, none, [], []⟩
      (s.openBatch g job).mapBatch g fun b => { b with xrecvs := b.xrecvs ++ [p] }


/-! ### xret (R345) -/

/-- A faulted xret delivers every return that it owes as a poisoned row: those of the rows that have come, but for the ones that it
has sent; the others follow their rows (R345). -/
def State.poisonReturns (s : State) (g e : Nat) (sent : List Nat) : State :=
  match s.batch? g with
  | none => s
  | some b => ((b.tagsOf e).filter fun t => !sent.contains t.2).foldl (fun s t => s.poisonReturn g t.2) s

/-- Note that an expert's xret has dispatched, and whether it sent its results. -/
def State.noteXret (s : State) (g : Nat) (x : XRet) : State := s.mapBatch g fun b => { b with xrets := b.xrets ++ [x] }

/-- What an xret that faults leaves in its batch (R345). -/
def State.failXret (s : State) (n : Nat) (i : Insn) (sent : List Nat) : State :=
  (s.poisonReturns i.gen (i.mod 19 14) sent).noteXret i.gen ⟨i.mod 19 14, false, n, i.tag⟩

/-- An expert of this device whose xret has not dispatched yet in an open batch (R335). -/
def State.xretDue (s : State) (g e : Nat) : Bool :=
  s.placedHere e && (match s.batch? g with
    | some b => !b.xrets.any fun p => p.expert == e
    | none => false)

/-- xret's checks of its operands (R345). -/
def State.xretFlt (s : State) (i : Insn) (job : Nat) : Option Flt :=
  let a := i.td roleA
  let b := i.td roleB
  firstFlt [rowFlt a roleA job, b.check roleB job [0x0D] false false false, need (b.rank = 1) (fltOf cSHAPE roleB b 0),
    need (2 ≤ b.size 0) (fltOf cSHAPE roleB b 0), agreeFlt (s.batch? i.gen) a roleA]

/-- The tags of a tag table: rows with their tags, or the first tag that fails its check, with its position (R345). -/
def checkTags (g e rows : Nat) : List (Nat × Nat) → (Nat × Nat) ⊕ List (Nat × Nat)
  | [] => .inr []
  | (j, t) :: r =>
    if t = 2 ^ 64 - 1 then checkTags g e rows r
    else if bitsOf t 63 48 = g ∧ bitsOf t 47 42 = e ∧ bitsOf t 32 30 = 0 ∧ bitsOf t 27 14 = 0 ∧ j < rows then
      match checkTags g e rows r with
      | .inl x => .inl x
      | .inr l => .inr ((j, t) :: l)
    else .inl (t, j + 2)

/-- A result goes to a device to which no way is left (R309). -/
def State.noWayBack (s : State) (l : List (Nat × Nat)) : Bool :=
  l.any fun t => decide (bitsOf t.2 41 36 ≠ s.dev) && (s.route (bitsOf t.2 41 36)).isNone

/-- The results leave, row by row: the pages of a row of A are translated when it is reached (R181, R345). Where one fails, the fault
and the tags of the rows that have been sent. -/
def State.sendResults (s : State) (job g : Nat) (a : TD) : List (Nat × Nat) → List Nat → State × Option (Flt × List Nat)
  | [], _ => (s, none)
  | t :: r, sent =>
    let va := a.va [0, t.1]
    match s.bindUnits expSrc job .anywhere true false (fun va re l => fltOf cADDRESS roleA a (addrDetail va re l job))
        ((unitsOf va a.rowLen).map fun u => (u, max va (u * 2 ^ 21))) [] with
    | (s, .inl f) => (s, some (f, sent))
    | (s, .inr pages) =>
      match s.readRow job pages va a.rowLen with
      | (s, data, poison) => State.sendResults (s.sendReturn g t.2 data poison) job g a r (t.2 :: sent)

/-- What an xret does at dispatch; it completes when its last read is done and every result has left (R345). -/
def State.xretRun (s : State) (n : Nat) (i : Insn) : State :=
  let job := s.jobOf n
  let g := i.gen
  let e := i.mod 19 14
  let a := i.td roleA
  let b := i.td roleB
  let fail := fun (s : State) (f : Flt) => (s.failXret n i []).takeFault n i f
  if !s.xretDue g e then s.takeFault n i (flt cCONFIG)
  else match s.xretFlt i job with
  | some f => fail s f
  | none =>
    match s.readSpans expSrc job (spans (elemBytes (b.places b.allIx))) with
    | (s, _, .bad v re l) => fail s (fltOf cADDRESS roleB b (addrDetail v re l job))
    | (s, _, .poison v) => fail s (fltOf cPOISON roleB b v)
    | (s, m, .done) =>
      let el := fun k => codeIn m (b.bitAddr [k]) 64
      if (a.size 1 : Int) < signed 64 (el 0) then fail s (fltOf cSHAPE roleA a 0)
      else match checkTags g e (a.size 1) ((List.range (b.size 0 - 2)).map fun j => (j, el (j + 2))) with
      | .inl (t, k) => fail s (fltOf cMETADATA roleB b (t + k * 2 ^ 64 + 10 * 2 ^ 104))
      | .inr l =>
        if s.noWayBack l then fail s ⟨cADDRESS, 0, 0, addrDetail 0 (Config.openValue 24 0 % 16) 0 job⟩
        else match s.sendResults job g a l [] with
          | (s, some (f, sent)) => (s.failXret n i sent).takeFault n i f
          | (s, none) => (s.noteXret g ⟨e, true, n, i.tag⟩).after 35 (.done n i.tag)

/-- An xret that is dispatched, and faults before it looks at its operands, LATE or with a slot that failed its parity check, owes its
returns as well (R345). -/
def State.lostXret (s : State) (n : Nat) : State :=
  match s.oldest n (queueOf 0x5A) with
  | none => s
  | some i =>
    if s.streamState n = 1 ∧ i.op = 0x5A ∧ s.timely i ∧ !s.hazard n i ∧ (i.bad ∨ s.tooLate n i) ∧ s.xretDue i.gen (i.mod 19 14) then
      s.failXret n i []
    else s


/-! ### Summaries and packets (R338, R350, R351) -/

/-- The payload of a summary (R351). -/
def summaryBytes (d : Demand) : Bytes :=
  (d.counts.map fun n => bytesOf 4 n).flatten ++ bytesOf 4 d.rowBytes ++ bytesOf 1 d.type ++ bytesOf 1 d.topk ++
    bytesOf 58 0

/-- This device's demand for each expert, and its four fields (R338). -/
def State.ownDemand (s : State) (b : Batch) : Demand :=
  let all := (b.xdisps.filter fun p => !p.faulted).flatMap fun p => p.choices
  let x := b.known.getD ⟨0, 0, 0, b.job⟩
  ⟨s.pos, (List.range 64).map fun e => (all.filter fun c => c == some e).length, x.topk, x.type, x.row, x.job⟩

/-- SUMMARY_SEND: the count phases are over and every expert placed here has its xrecv (R338). -/
def State.sendSummary (s : State) (g : Nat) : State :=
  match s.batch? g with
  | none => s
  | some b =>
    let counted := s.dispCores.all fun n => b.xdisps.any fun p => p.core == n
    let taking := s.localExperts.all fun e => b.xrecvs.any fun p => p.expert == e
    if b.sent ∨ !counted ∨ !taking then s
    else
      let d := s.ownDemand b
      let s := (s.trayPositions.filter fun p => p ≠ s.pos).foldl (fun s p =>
        s.sendReq 0x0C 5 (s.hdr expSrc (s.dev / 16 * 16 + p) d.job (expertAddr 0 0 0 g 0 1) 5) (summaryBytes d)) s
      (s.mapBatch g fun b => { b with sent := true, demands := b.demands ++ [d] }).tryAllocate g


/-- A SUMMARY packet; it is not recorded in the ledger (R333, R338, R350, R352). -/
def State.gotSummary (s : State) (h : Hdr) (p : Bytes) : State :=
  let g := bitsOf h.addr.toNat 25 10
  if s.genRetired g then s.inc Reg.EXPERT.TOK_DISCARD 1
  else
    let d : Demand := ⟨originOf h % 16, (List.range 64).map fun e => natOf (slice (4 * e) 4 p), (p.getD 261 0).toNat,
      (p.getD 260 0).toNat, natOf (slice 256 4 p), h.job.toNat⟩
    let s := s.openBatch g h.job.toNat
    let add := fun (b : Batch) => if b.demands.any fun x => x.pos == d.pos then b else { b with demands := b.demands ++ [d] }
    (s.mapBatch g add).tryAllocate g

/-- The packets held at the doors that have room now are performed, oldest first (R334). -/
def State.seatFrom : Nat → State → State
  | 0, s => s
  | k + 1, s =>
    match splitFirst (fun e => s.batchRoom (bitsOf e.2.h.addr.toNat 25 10)) s.doors.waiting with
    | none => s
    | some (x, e, y) =>
      State.seatFrom k (({ s with doors := { s.doors with waiting := x ++ y } } : State).gotSummary e.2.h e.2.p)

/-- Batches may have closed, so that packets held at the doors may have room (R334; log entry 103). -/
def State.seat (s : State) : State := State.seatFrom s.doors.waiting.length s

/-- xdisp (R336). -/
def execXdisp (c : CoreIx) (s : State) : Out :=
  whenLive s fun s => s.seat.dispatch c.val 0x58 (fun s i => s.xdispReady c.val i) fun s i => s.xdispRun c.val i

/-- xrecv (R343). -/
def execXrecv (c : CoreIx) (s : State) : Out :=
  whenLive s fun s => s.seat.dispatch c.val 0x59 (fun s i => s.batchRoom i.gen) fun s i => s.xrecvRun c.val i

/-- The commands of bulk packets: a packet that was held at its door for room, and has it now, comes before them (R312, R334; log
entry 103). -/
def bulkPacket (d : DoorIx) (ty : Nat) (h : Hdr) (p : Bytes) (ok : Nat → Bool) (act : State → State) (s : State) : Out :=
  if p.length = 64 * h.sectors.toNat ∧ ok h.addr.toNat then whenLive s fun s => s.seat.arrive d.val ty h p act
  else .fault .illFormed

/-- CONTRIB (R392): as a bulk packet it needs credits, which a packet held at its door keeps back (R312, R334). -/
def execContrib (d : DoorIx) (h : Hdr) (p : Bytes) (s : State) : Out :=
  bulkPacket d 4 h p (kind3 1) (fun s => s.takeContrib d.val h p) s

/-- xret (R345). -/
def execXret (c : CoreIx) (s : State) : Out :=
  whenLive s fun s => (s.seat.lostXret c.val).dispatch c.val 0x5A always fun s i => s.xretRun c.val i

/-- SUMMARY_SEND. -/
def execSummarySend (gen : BitVec 16) (s : State) : Out := whenLive s fun s => (s.seat.sendSummary gen.toNat).seat

/-- A SUMMARY is performed, or held at its door while it would open a ninth batch (R334). -/
def State.takeSummary (s : State) (d : Nat) (h : Hdr) (p : Bytes) : State :=
  if s.batchRoom (bitsOf h.addr.toNat 25 10) then s.gotSummary h p
  else { s with doors := { s.doors with waiting := s.doors.waiting ++ [(d, ⟨5, h, p⟩)] } }

/-- SUMMARY. -/
def execSummary (d : DoorIx) (h : Hdr) (p : Bytes) (s : State) : Out :=
  bulkPacket d 5 h p (kind4 1) (fun s => (s.takeSummary d.val h p).seat) s

/-- Acknowledge a packet that asks for it, once its payload is complete (R310, R342). -/
def State.acknowledge (s : State) (d : Nat) (h : Hdr) : State :=
  if h.ackReq then
    s.after 35 (.packet 2 { s.hdr (0x200 + d) (originOf h) h.job.toNat 0 0 with tag := h.tag } []) else s

/-- A TOKEN packet: its piece goes into the receive row that it names (R342, R350). -/
def State.gotToken (s : State) (d : Nat) (h : Hdr) (p : Bytes) (core choice index : Nat) : State :=
  let a := h.addr.toNat
  let g := bitsOf a 25 10
  let e := bitsOf a 9 4
  let row := bitsOf a 44 29
  let piece := bitsOf a 56 45
  match s.batch? g with
  | none => s.inc Reg.EXPERT.TOK_DISCARD 1
  | some b =>
    match b.xrecvs.find? (fun x => x.expert == e && !x.finished) with
    | none => s.inc Reg.EXPERT.TOK_DISCARD 1
    | some x =>
      let s := s.ledgerAdd d h (rowSectors x.bound ((parseTD x.dD).va [0, row] + 2048 * piece) p.length)
      (s.putToken b x row piece (rowTag g e (originOf h) core choice index) p h.poison.toNat).acknowledge d h

/-- TOKEN: core, choice and index are the tag of the row, which the manual does not place in the packet (R344, R351;
log entry 31). -/
def execToken (d : DoorIx) (h : Hdr) (p : Bytes) (core : CoreIx) (choice : BitVec 2) (index : BitVec 14) (s : State) : Out :=
  bulkPacket d 5 h p (kind4 2) (fun s => s.gotToken d.val h p core.val choice.toNat index.toNat) s

/-- A RETURN packet: its piece goes into the source's return row (R346, R350). -/
def State.gotReturn (s : State) (d : Nat) (h : Hdr) (p : Bytes) : State :=
  let a := h.addr.toNat
  let row := bitsOf a 44 29
  let piece := bitsOf a 56 45
  match s.batch? (bitsOf a 25 10) with
  | none => s.inc Reg.EXPERT.RET_DISCARD 1
  | some b =>
    match b.xdisps.find? (fun x => x.core == bitsOf a 28 26 && x.owed.contains row) with
    | none => s.inc Reg.EXPERT.RET_DISCARD 1
    | some x =>
      let s := s.ledgerAdd d h (rowSectors x.bound (x.base + row * (parseTD x.dA).rowLen + 2048 * piece) p.length)
      s.putReturn b x row piece p h.poison.toNat

/-- RETURN. -/
def execReturnPacket (d : DoorIx) (h : Hdr) (p : Bytes) (s : State) : Out :=
  bulkPacket d 5 h p (kind4 3) (fun s => s.gotReturn d.val h p) s

/-! ### Closing and cancelling (R335, R349) -/

/-- An instruction of the batch has done its work, and its requests are not complete yet (R342, R344, R345). -/
def State.awaits (s : State) (core tag : Nat) : Bool := s.later.any fun l => l.act == .done core tag

/-- Writes into a batch's pages are not complete, or the requests of one of its instructions (R335). -/
def State.batchBusy (s : State) (b : Batch) : Bool :=
  (s.reqOut fun r => r.isUnit 35 && (b.xdisps ++ b.xrecvs).any fun p => p.bound.any fun e => e.2 / 2 ^ 21 == r.pa / 2 ^ 21) ||
    ((b.xdisps ++ b.xrecvs).any fun p => s.awaits p.core p.tag) || b.xrets.any fun x => s.awaits x.core x.tag

/-- The conditions under which a batch closes (R335). -/
def State.batchOver (s : State) (b : Batch) : Bool :=
  b.allocated && !s.batchBusy b && (s.dispCores.all fun n => b.xdisps.any fun p => p.core == n && p.finished) &&
    (s.localExperts.all fun e => (b.xrecvs.any fun p => p.expert == e && p.finished) && b.xrets.any fun x => x.expert == e && x.ok) &&
    b.xdisps.all fun p => p.owed.isEmpty

/-- BATCH_CLOSE. -/
def State.closeBatch (s : State) (g : Nat) : State :=
  match s.batch? g with
  | none => s
  | some b => if s.batchOver b then
      (({ s with batches := s.batches.filter (fun x => x.gen ≠ g) } : State).inc Reg.EXPERT.BATCHES 1).seat else s

/-- BATCH_CLOSE. -/
def execBatchClose (gen : BitVec 16) (s : State) : Out := whenLive s fun s => s.closeBatch gen.toNat

/-- EXPERT_CANCEL: Sill firmware writes EXPERT.CANCEL.GEN (R349, R353). -/
def execExpertCancel (gen : BitVec 16) (s : State) : Out := whenLive s fun s => (s.cancelGen gen.toNat).seat

end Sys2Proof.Machine
end

