-- ==== Sys2Proof/Machine/Form.lean ====
section
/-!
DEFINITION. Machine/Form.lean: entries and completions of Sill firmware's commands, and what the forming of a configuration
sets on a device: its configuration registers, its time, its buddy and its snapshot key (R36, R325, R441, R442, R459,
R460, R480, R515, R517).
-/

namespace Sys2Proof.Machine

/-! ### Status codes (R460, R479) -/

def stSUCCESS : Nat := 0x0000
def stBADPARAM : Nat := 0x0001
def stBUSY : Nat := 0x0002
def stNOJOB : Nat := 0x0003
def stNOCORE : Nat := 0x0004
def stRETIRED : Nat := 0x0005
def stMAPPED : Nat := 0x0006
def stNOTMAPPED : Nat := 0x0007
def stRESERVED : Nat := 0x0008
def stNOTABLES : Nat := 0x0009
def stSNAPOPEN : Nat := 0x000A
def stNOTPARKED : Nat := 0x000B
def stNOSPACE : Nat := 0x000C
def stNOTHALTED : Nat := 0x000D
def stMISMATCH : Nat := 0x000E
def stAUTH : Nat := 0x000F
def stNOROUTE : Nat := 0x0010
def stNOTLEAD : Nat := 0x0011
def stNOTPERMITTED : Nat := 0x0012
def stSTEPPING : Nat := 0x0013
def stROLLBACK : Nat := 0x0014
def stPOISON : Nat := 0x0015
def stTESTFAIL : Nat := 0x0016
def stFORMED : Nat := 0x0017
def stADDRESS : Nat := 0x0018
def stBADENTRY : Nat := 0xFF01
def stUNKNOWN : Nat := 0xFF02
def stWRONGCLASS : Nat := 0xFF03
def stNOTJOB : Nat := 0xFF04
def stNOTARGET : Nat := 0xFF05
def stFESTATE : Nat := 0xFF06
def stLINKLOST : Nat := 0xFF07

/-! ### Entries (R457, R459) -/

/-- Put a number of n bytes at an offset of an entry. -/
def putAt (off n v : Nat) (e : Bytes) : Bytes := e.take off ++ bytesOf n v ++ e.drop (off + n)

/-- A command entry for a target, with its parameters as offset, bytes and value (R457). -/
def mkEntry (op : Nat) (r : Req) (dev : Nat) (params : List (Nat × Nat × Nat)) : Bytes :=
  let head := bytesOf 2 op ++ bytesOf 1 (ofBool r.irq) ++ bytesOf 1 0 ++ bytesOf 4 r.cmdId.toNat ++
    bytesOf 1 (0x80 + dev) ++ bytesOf 1 r.job.toNat ++ List.replicate 54 0
  params.foldl (fun e p => putAt p.1 p.2.1 p.2.2 e) head

/-- The bytes of a completion entry (R459). -/
def completionBytes (cmdId status sqHead ring device result0 result1 : Nat) (phase : Bool) : Bytes :=
  bytesOf 4 cmdId ++ bytesOf 2 status ++ bytesOf 2 sqHead ++ bytesOf 2 ring ++ bytesOf 1 device ++ bytesOf 5 0 ++
    bytesOf 8 result0 ++ bytesOf 4 result1 ++ bytesOf 3 0 ++ bytesOf 1 (if phase then 128 else 0)

/-- A completion becomes due on the device that holds the ring (R460). -/
def State.pushDue (s : State) (r : Req) (status r0 r1 dev : Nat) : State :=
  { s with host := { s.host with due := s.host.due ++
      [⟨r.ring.toNat, r.cmdId.toNat, status, r0 % 2 ^ 64, r1 % 2 ^ 32, dev, r.irq⟩] } }

/-! ### Buddies (R441, R442) -/

/-- The feed identity of a device in a word of 4 bits for each device. -/
def feedOf (feeds d : Nat) : Nat := feeds / 16 ^ d % 16

/-- The candidates for the buddy of an origin, in the order of R441. -/
def buddyOrder (o : Nat) : List Nat :=
  let t := o / 16
  let p := o % 16
  (((List.range 16).filter fun i => i ≠ 8).map fun i => t * 16 + (p + 8 + i) % 16) ++
    [1, 2, 3].map fun j => (t + j) % 4 * 16 + p

/-- The buddy of an origin beside those that are taken: the device, and whether it shares the feed (R441, R442). -/
def pickBuddy (members feeds o : Nat) (taken : List Nat) : Option (Nat × Bool) :=
  let free := (buddyOrder o).filter fun c => bitOf members c && !taken.contains c
  match free.find? (fun c => feedOf feeds c ≠ feedOf feeds o) with
  | some c => some (c, false)
  | none => free.head?.map fun c => (c, true)

/-- The buddies of origins taken in their order. -/
def buddyList (members feeds : Nat) : List Nat → List Nat → List (Nat × Option (Nat × Bool))
  | [], _ => []
  | o :: r, taken =>
    match pickBuddy members feeds o taken with
    | some (c, same) => (o, some (c, same)) :: buddyList members feeds r (c :: taken)
    | none => (o, none) :: buddyList members feeds r taken

/-- The numbers of a 64-bit mask, rising. -/
def devicesOf (mask : Nat) : List Nat := (List.range 64).filter (bitOf mask)

/-- Sill firmware writes this device's buddy (R441, R442). -/
def State.putBuddy (s : State) (members feeds : Nat) : State :=
  match (buddyList members feeds (devicesOf members) []).find? (fun e => e.1 = s.dev) with
  | some (_, some (c, same)) =>
    s.puts [(Reg.SNAP.BUDDY_VALID, 1), (Reg.SNAP.BUDDY_DEVICE, c), (Reg.SNAP.FEED_BUDDY, feedOf feeds c),
      (Reg.SNAP.SAME_FEED, ofBool same), (Reg.SNAP.HOST_ALSO, ofBool same), (Reg.SNAP.BUDDY_TO_HOST, 0)]
  | _ =>
    s.puts [(Reg.SNAP.BUDDY_VALID, 0), (Reg.SNAP.BUDDY_DEVICE, 0), (Reg.SNAP.FEED_BUDDY, 0), (Reg.SNAP.SAME_FEED, 0),
      (Reg.SNAP.HOST_ALSO, 0), (Reg.SNAP.BUDDY_TO_HOST, 1)]

/-! ### The configuration and the snapshot key (R36, R325, R480, R515, R517) -/

/-- What forming sets on one device: CONFIG and MEMBERS, time, roles, buddy (R36, R325, R480). Device time does not go back (R33): a
device whose time is past the common one is not aligned until its master's exchanges have slewed it. -/
def State.setConfig (s : State) (members lead time feeds : Nat) : State :=
  let mine := ofBool (lead == s.dev)
  let s := s.puts [(Reg.DOOR.FORMED 0, 1), (Reg.DOOR.IS_LEAD 0, mine), (Reg.DOOR.LEAD 0, lead), (Reg.DOOR.MEMBERS 0, members),
    (Reg.GEN.LEAD, mine), (Reg.GEN.MEMBER, 1 - mine), (Reg.TIME.MASTER, mine)]
  let s := (s.passTo time).puts [(Reg.TIME.ALIGNED, ofBool (decide (s.now ≤ time))), (Reg.TIME.OFFSET_PS, 0)]
  let s := { s with host := { s.host with formedAt := s.now },
                    doors := { s.doors with lastExchange := s.now, feeds := (devicesOf members).map fun d => (d, feedOf feeds d) } }
  s.putBuddy members feeds

/-- Put a snapshot key in force (R508, R517). -/
def State.installKey (s : State) (key : Bytes) : State :=
  ({ s with sec := { s.sec with csk := some key } } : State).puts
    [(Reg.SEC.CSK_VALID, 1), (Reg.SEC.CSK_ID, natOf (slice 0 8 (Config.crypto 11 0 key)))]

/-- A CONFIG_FORM entry in the model's own form (log entry 33): members, mode, time in bytes 25 to 31 and 10, feeds. -/
def formEntry (r : Req) (dev members mode time feeds : Nat) : Bytes :=
  mkEntry 0x0100 r dev [(16, 8, members), (24, 1, mode), (25, 7, time), (10, 1, time / 2 ^ 56), (32, 32, feeds)]

/-- Send a CONFIG_FORM entry to a device (R325, R505). -/
def State.sendForm (s : State) (r : Req) (dev members mode time feeds : Nat) : State :=
  s.sendPkt 9 (s.hdr 0x400 dev 0 (1 + 16 * r.ring.toNat) 1) (formEntry r dev members mode time feeds)

/-- The forming takes effect: on this device, and on every other through an entry of mode 0xFE (R480, R515). The greatest time of
the other devices has gone on since they gave it (R36). -/
def State.commitForm (s : State) (f : Forming) : State :=
  let time := min (max (f.now + (s.now - f.since)) s.now + 1000000) maxTime
  let s := match s.host.newKey with
    | some k => s.installKey k
    | none => s
  let s := { s with host := { s.host with forming := none, newKey := none, lostMembers := [] } }
  let s := s.setConfig f.members s.dev time f.feeds
  ((devicesOf f.members).filter fun d => d ≠ s.dev).foldl (fun s d => s.sendForm f.r d f.members 0xFE time f.feeds) s

/-- The feed identities of the configuration, 4 bits for each device. -/
def State.feedWord (s : State) : Nat := (s.doors.feeds.map fun e => e.2 % 16 * 16 ^ e.1).sum

/-- A request that no command has made. -/
def noReq : Req := { ring := 0, cmdId := 0, irq := false, job := 0, target := 0 }

/-- The lead selects every member's buddy again, among the members that are not lost, and tells them so by an entry of mode 0xFC
(R441; log entry 33). -/
def State.selectAgain (s : State) : State :=
  let alive := ((s.members.filter fun d => !s.host.lostMembers.contains d).map fun d => 2 ^ d).sum
  let s := s.putBuddy alive s.feedWord
  ((devicesOf alive).filter fun d => d ≠ s.dev).foldl (fun s d => s.sendForm noReq d alive 0xFC 0 s.feedWord) s

/-- The forming fails: no device keeps the new key; the other devices learn it through an entry of mode 0xFF (R515). -/
def State.abortForm (s : State) (f : Forming) : State :=
  let s := { s with host := { s.host with forming := none, newKey := none }, sec := { s.sec with peers := [] } }
  ((devicesOf f.members).filter fun d => d ≠ s.dev).foldl (fun s d => s.sendForm f.r d f.members 0xFF 0 0) s

/-- The command of a forming completes: the forming takes effect, or leaves nothing. -/
def State.endForming (s : State) (r : Req) (ok : Bool) : State :=
  match s.host.forming with
  | some f => if f.r = r then (if ok then s.commitForm f else s.abortForm f) else s
  | none => s

end Sys2Proof.Machine
end

