-- ==== Sys2Proof/Machine/Serve.lean ====
section
/-!
DEFINITION. Machine/Serve.lean: how a Sill firmware command is performed: on which devices, relayed in which packets,
and how its parts make one completion (R326, R460, R468, R472, R477, R505).
-/

namespace Sys2Proof.Machine

/-! ### Completions -/

/-- A relay belongs to a command. -/
def Relay.of (ring cmdId : Nat) (x : Relay) : Bool := x.r.ring.toNat == ring && x.r.cmdId.toNat == cmdId

/-- What one part's outcome makes of a relay (R472). -/
def Relay.part (x : Relay) (dev status r0 r1 : Nat) : Relay :=
  let worse := status != 0 && (x.status == 0 || decide (dev < x.device))
  { x with waiting := setErase dev x.waiting,
           status := if worse then status else x.status, device := if worse then dev else x.device,
           result0 := x.result0 ||| r0, result1 := x.result1 ||| r1 }

/-- The lead gives its own open up where some device has refused the command's; the other devices learn it by SNAP_ABANDON (R431; log
entry 63). -/
def State.cancelFor (s : State) (r : Req) (ok : Bool) : State :=
  if !ok ∧ s.snap.isOpen ∧ s.snap.opener = some r then
    let s := s.snap.blocks.foldl (fun s b => s.releaseHeld b.va) s
    ({ s with snap := s.snap.closed } : State).put Reg.SNAP.STATUS_STATE 0
  else s

/-- The completion of a relay whose parts have all completed (R472); a forming takes effect with it, or leaves nothing
(R515), and so does the open of a snapshot (R431). -/
def State.closeRelay (s : State) (x : Relay) : State :=
  let s := (s.endForming x.r (x.status == 0)).cancelFor x.r (x.status == 0)
  if x.whole then s.pushDue x.r x.status x.result0 (if x.status = 0 then x.result1 else x.device) s.dev
  else s.pushDue x.r x.status x.result0 x.result1 x.device

/-- One part of a relayed command completes. -/
def State.partDone (s : State) (ring cmdId dev status r0 r1 : Nat) : State :=
  match s.host.relayed.find? (fun x => x.of ring cmdId && x.waiting.contains dev) with
  | none => s
  | some x =>
    let y := if x.whole then x.part dev status r0 r1
      else { x with waiting := [], status := status, device := dev, result0 := r0, result1 := r1 }
    let rest := s.host.relayed.filter fun z => !z.of ring cmdId
    if y.waiting.isEmpty then ({ s with host := { s.host with relayed := rest } } : State).closeRelay y
    else { s with host := { s.host with relayed := rest ++ [y] } }

/-- This device's own part of a command completes: a member reports to the lead; the lead counts it among the parts,
or its completion is due (R326, R472, R505). -/
def State.finish (s : State) (r : Req) (status r0 r1 : Nat) : State :=
  if s.isMember then
    s.sendPkt 9 (s.hdr 0x400 s.lead r.job.toNat (2 + 16 * r.ring.toNat) 1)
      (completionBytes r.cmdId.toNat status 0 r.ring.toNat s.dev r0 r1 false ++ bytesOf 32 0)
  else if s.host.relayed.any (fun x => x.of r.ring.toNat r.cmdId.toNat && x.waiting.contains s.dev) then
    s.partDone r.ring.toNat r.cmdId.toNat s.dev status r0 r1
  else s.pushDue r status r0 r1 s.dev

/-! ### Scopes (R472, R477) -/

/-- Where a command is performed (R472). -/
inductive Scope where
  | target | lead | tray (t : Nat) | all
deriving DecidableEq, Repr

/-- What a device's part of a command answers: status and two results, or nothing yet while it waits. -/
abbrev Answer := Option (Nat × Nat × Nat)

/-- An answer with a status alone. -/
def just (status : Nat) : Answer := some (status, 0, 0)

/-- This device's part: refused in the FE state unless it is a query (R477), and not answered at all where Sill firmware is the
cause of that state (R428). -/
def State.ownPart (s : State) (r : Req) (feOk : Bool) (part : State → State × Answer) : State :=
  if s.host.sillDown then s
  else if s.fe ∧ !feOk then s.finish r stFESTATE 0 0
  else match part s with
    | (s, none) => s
    | (s, some (st, r0, r1)) => s.finish r st r0 r1

/-- Send a command's entry to a member (R326, R505). -/
def State.sendCommand (s : State) (dev : Nat) (r : Req) (entry : Bytes) : State :=
  s.sendPkt 9 (s.hdr 0x400 dev r.job.toNat (1 + 16 * r.ring.toNat) 1) entry

/-- Relay a command to devices, this one among them or not, and wait for their parts; a device that no route reaches
fails its part (R309, R460, R472). -/
def State.relayTo (s : State) (r : Req) (entry : Nat → Bytes) (devs : List Nat) (whole : Bool) : State :=
  let x : Relay := ⟨r, devs, 0, 0, 0, 0, whole⟩
  let s := { s with host := { s.host with relayed := s.host.relayed ++ [x] } }
  (devs.filter fun d => d ≠ s.dev).foldl (fun s d =>
    if (s.route d).isSome then s.sendCommand d r (entry d)
    else s.partDone r.ring.toNat r.cmdId.toNat d stNOTARGET 0 0) s

/-- Perform a command (R472, R477): the lead, or a device alone, performs, relays or refuses it as the scope says. A member has
no rings, and takes commands only from SILL packets of the lead (R325, R468). -/
def State.serve (s : State) (r : Req) (scope : Scope) (feOk : Bool) (entry : Nat → Bytes)
    (part : State → State × Answer) : State :=
  if s.isMember then s
  else
    let t := r.target.toNat
    let group := fun (devs : List Nat) (s : State) =>
      if devs.isEmpty then s.finish r stBADPARAM 0 0
      else
        let s := s.relayTo r entry devs true
        if devs.contains s.dev then s.ownPart r feOk part else s
    match scope with
    | .lead => if t = s.dev then s.ownPart r feOk part else s.finish r stBADPARAM 0 0
    | .target =>
      if t = s.dev then s.ownPart r feOk part
      else if s.members.contains t ∧ (s.route t).isSome then s.relayTo r entry [t] false
      else s.finish r stNOTARGET 0 0
    | .tray k => group (s.members.filter fun d => d / 16 == k) s
    | .all => group s.members s

/-- A command in the classes 1 to 3 has been picked up and is in progress, this one apart (R504). -/
def State.otherHandlers (s : State) (r : Req) : Bool :=
  s.host.handlers.any fun h => h.cls != 0 && !h.waits && !(h.ring == r.ring.toNat && h.cmdId == r.cmdId.toNat)

/-- A command waits for other units, and releases Sill firmware while it waits (R462). -/
def State.letWait (s : State) (r : Req) : State :=
  let mine := fun (h : Handler) => h.ring == r.ring.toNat && h.cmdId == r.cmdId.toNat
  let rest := fun (h : Handler) => { h with waits := true }
  { s with host := { s.host with handlers := mapIf mine rest s.host.handlers } }

/-! ### Members that are lost (R440, R480) -/

/-- The lead has lost a member: an event, a restore-class event of the snapshot rate, and buddies are selected again (R441, R443,
R480). -/
def State.memberLost (s : State) (d : Nat) : State :=
  if s.isMember ∨ s.host.lostMembers.contains d ∨ !s.others.contains d then s
  else
    (({ s with host := { s.host with lostMembers := setInsert d s.host.lostMembers,
                                     restoreEvents := s.now :: s.host.restoreEvents } } : State).writeEvent 8 d 0 0xFF s.now 0
      0).selectAgain

/-- A link is gone: commands that were out over it end with LINK_LOST, and members that no route reaches are lost. The
members that the link served are given, as they were before it failed. -/
def State.routesLost (s : State) (served : List Nat) : State :=
  let out := s.host.relayed.flatMap fun x => (x.waiting.filter fun d => served.contains d).map fun d => (x.r.ring.toNat, x.r.cmdId.toNat, d)
  let s := out.foldl (fun s e => s.partDone e.1 e.2.1 e.2.2 stLINKLOST 0 0) s
  (served.filter fun d => (s.route d).isNone).foldl State.memberLost s

end Sys2Proof.Machine
end

