-- ==== Sys2Proof/Machine/Doors.lean ====
section
/-!
DEFINITION. Machine/Doors.lean: the doors (chapter 11): writes from other devices, acknowledgements, latches,
retractions and closes, time, the identity and failure of links, feeds and calibration requests of casements.
-/

namespace Sys2Proof.Machine

/-! ### WRITE and WRITE_ACK (R313, R314) -/

/-- The source number of a door, and its admission queue (R21, R236). -/
def doorSrc (d : Nat) : Nat := 0x200 + d
def doorQueue (d : Nat) : Nat := 18 + d

/-- Return WRITE_ACK with a status to a packet that asks for it (R310, R314). -/
def State.ackWrite (s : State) (d : Nat) (h : Hdr) (status : Nat) : State :=
  if h.ackReq then
    s.sendPkt 2 { s.hdr (doorSrc d) (originOf h) h.job.toNat status 0 with tag := h.tag } []
  else s

/-- A WRITE that fails translation: none of its sectors is performed, a DE record, status 1, and the job is halted on
every device (R313, R491). -/
def State.remoteFault (s : State) (d : Nat) (h : Hdr) (va : Nat) : State :=
  let s := s.addRec (mkRec (doorSrc d) 9 1 h.job.toNat 0x56 (va % 2 ^ 57))
  (s.ackWrite d h 1).killJob h.job.toNat (doorSrc d) 0x56 false

/-- One sector of a WRITE goes to memory: to the host, to a core store, or to a window's queue; a write into a block
that a snapshot has not copied waits (R185, R313). -/
def State.packetSector (s : State) (d n job : Nat) (e : Nat × Nat × Bool × Bool) (data : Bytes) (poison : Bool) : State :=
  let req : MemReq := { queue := doorQueue d, src := doorSrc d, job := job, pa := e.2.1, write := true, data := data.map some,
                        poison := poison, owner := .packet n }
  match (if e.2.2.2 then s.heldBlock job e.1 else none) with
  | some b => s.hold b req
  | none =>
    if inHost e.2.1 then (s.hostPost (s.hostAddr job e.2.1) data).ackPacket n
    else if !s.inMain e.2.1 then (s.performReq req).ackPacket n
    else if s.fe then s.ackPacket n
    else s.enqueue (s.locate e.2.1).1 req

/-- A WRITE is being performed: it holds one place more than its sectors until all of them are on their way. -/
def State.openWrite (s : State) (d : Nat) (h : Hdr) : State :=
  let w : PendingWrite := ⟨s.doors.nextWrite, d, h, h.sectors.toNat + 1, false⟩
  { s with doors := { s.doors with pendingWrites := s.doors.pendingWrites ++ [w], nextWrite := s.doors.nextWrite + 1 } }

/-- Perform a WRITE whose sectors have been translated (R313, R314, R320). -/
def State.performWrite (s : State) (d : Nat) (h : Hdr) (p : Bytes) (l : List (Nat × Nat × Bool × Bool)) : State :=
  let n := s.doors.nextWrite
  let s := (s.openWrite d h).ledgerAdd d h (l.map fun e => e.2.1 + ofBool e.2.2.1)
  let s := l.zipIdx.foldl (fun s e =>
    s.packetSector d n h.job.toNat e.1 (slice (64 * e.2) 64 p) (bitOf h.poison.toNat e.2)) s
  s.ackPacket n

/-- A marked sector of a WRITE meets a POISON_KILL page: the whole packet is not performed (R184). -/
def marksKill (h : Hdr) (l : List (Nat × Nat × Bool × Bool)) : Option Nat :=
  (l.zipIdx.find? fun e => bitOf h.poison.toNat e.2 && e.1.2.2.1).map fun e => e.1.1

/-- A WRITE addressed to this device; one whose walk meets a poisoned table sector, and one that brings a mark to a POISON_KILL
page, kills its job (R184, R186, R313). -/
def State.gotWrite (s : State) (d : Nat) (h : Hdr) (p : Bytes) : State :=
  match s.bindSectors (doorSrc d) h.job.toNat (payloadVas h.addr.toNat h.sectors.toNat) with
  | (s, .inl e) => (if e.2.1 = 8 then s.countKill h.job.toNat else s).remoteFault d h e.1
  | (s, .inr l) =>
    match marksKill h l with
    | some va => ((s.ackWrite d h 1).countKill h.job.toNat).unitConsume h.job.toNat (doorSrc d) 9 va
    | none => s.performWrite d h p l

/-- WRITE. -/
def execWrite (d : DoorIx) (h : Hdr) (p : Bytes) (s : State) : Out :=
  bulkPacket d 1 h p anyKind (fun s => s.gotWrite d.val h p) s

/-- The buddy has acknowledged the last packet of a unit of the image (R439, R448). -/
def State.ackUnit (s : State) (tag : Nat) : State :=
  match s.snap.acks.find? (fun e => e.1 == tag) with
  | none => s
  | some e =>
    let s := { s with snap := { s.snap with acks := s.snap.acks.filter fun x => x.1 != tag } }
    if e.2 then s.put Reg.SNAP.BLOCKS_SENT (s.get Reg.SNAP.BLOCKS_SENT + 1) else s

/-- An acknowledgement of a remote write, of a TOKEN packet, or of a unit of an image (R276, R342, R439). -/
def State.gotAck (s : State) (tag : Nat) : State :=
  let off := fun (r : Run) => { r with ackTags := r.ackTags.filter fun t => t ≠ tag }
  let mine := s.runs.filter fun r => r.ackTags.contains tag
  let s := { s with runs := s.runs.map off }
  ((mine.foldl (fun s r => s.settle r.m r.ch) s).ackToken tag).ackUnit tag

/-- WRITE_ACK. -/
def execWriteAck (d : DoorIx) (h : Hdr) (s : State) : Out :=
  packet d 2 h [] anyKind (fun s => s.gotAck h.tag.toNat) s

/-- LATCH: ADDR [13:0] is the latch, ADDR [16] sets it. -/
def execLatchPacket (d : DoorIx) (h : Hdr) (s : State) : Out :=
  packet d 3 h [] anyKind (fun s => s.sendLatch (doorSrc d.val) (bitsOf h.addr.toNat 13 0) (bitOf h.addr.toNat 16) none) s

/-! ### Epochs from other devices (R317 to R321) -/

/-- RETRACT(e) from a device: every ledger's entries of that origin at or after e are poisoned, and Agate is told
(R321). -/
def State.gotRetract (s : State) (d : Nat) (h : Hdr) : State :=
  let e := h.addr.toNat % 2 ^ 32
  let s := s.poisonLedger fun l => l.origin == originOf h && epochGe l.epoch e
  let s := (s.inc (Reg.DOOR.RETRACT_RX d) 1).ce (doorSrc d) 9 0x55 0
  s.agateRetract (originOf h) e

/-- RETRACT. -/
def execRetract (d : DoorIx) (h : Hdr) (s : State) : Out :=
  packet d 6 h [] anyKind (fun s => s.gotRetract d.val h) s

/-- CLOSE(e) from a device: its ledger entries up to e are final (R320). -/
def State.gotClose (s : State) (h : Hdr) : State :=
  let e := h.addr.toNat % 2 ^ 32
  let s := s.ledgerDrop fun l => l.origin == originOf h && epochGe e l.epoch
  { s with doors := { s.doors with closed := assocPut (originOf h) e s.doors.closed } }

/-- CLOSE. -/
def execClose (d : DoorIx) (h : Hdr) (s : State) : Out := packet d 7 h [] anyKind (fun s => s.gotClose h) s

/-! ### Time (R36 to R38, R323) -/

/-- The device that a device of the configuration takes its time from: the lead's position in its own tray, and there the lead
(R323). -/
def State.masterOf (s : State) (d : Nat) : Nat := if d % 16 = s.lead % 16 then s.lead else d / 16 * 16 + s.lead % 16

/-- The device that this one takes its time from (R323). -/
def State.timeMaster (s : State) : Nat := s.masterOf s.dev

/-- The follower is no longer aligned (R38). -/
def State.loseAlignment (s : State) : State :=
  if s.get Reg.TIME.ALIGNED = 1 then
    ((s.puts [(Reg.TIME.ALIGNED, 0), (Reg.TIME.ALIGN_LOST, 1)]).ce 0x405 0x10 0x2B 0).inc Reg.TIME.ALIGN_LOSS_CNT 1
  else s

/-- The offset that four stamps give, in ps (R323). -/
def offsetOfStamps (t1 t2 t3 t4 : Nat) : Int := (((t2 : Int) - t1) - ((t4 : Int) - t3)) / 2

/-- What slewing removes of an offset in one exchange of 10 µs: at most 50 ppm (R36; log entry 104). -/
def slewOf (off : Int) : Int := max (-500) (min 500 off)

/-- The 10 µs since the last exchange pass on a clock that slews: the offset that is left shrinks, and the whole nanoseconds of
what has been removed move TIME.NOW (R36, R323). -/
def State.slewed (s : State) : State :=
  let moved := s.doors.phasePs + slewOf s.doors.slewPs
  let s' := s.passTo (s.doors.lastExchange + ((10000 : Int) + moved.tdiv 1000).toNat)
  { s' with doors := { s'.doors with lastExchange := s'.now, slewPs := s.doors.slewPs - slewOf s.doors.slewPs,
                                     phasePs := moved.tmod 1000 } }

/-- A member has no path left to the lead, or to the device that it takes its time from (R38, R323). -/
def State.timeless (s : State) : Bool := (s.route s.timeMaster).isNone || (s.route s.lead).isNone

/-- A follower that has no path any more goes on on its own time, and is not aligned (R38). -/
def State.ownTime (s : State) : State :=
  (({ s with doors := { s.doors with slewPs := 0 } } : State).put Reg.TIME.SLEWING 0).loseAlignment

/-- A follower asks its master for the time: a TIME packet, whose stamps the casements take (R323). -/
def State.askTime (s : State) : State := s.sendPkt 8 (s.hdr 0x405 s.timeMaster 0 0 0) []

/-- The 10 µs exchange of a follower with its master: stamps in ps; a follower that has no path to it goes on on its own time
(R38, R323). -/
def State.exchangeTime (s : State) (t1 t2 t3 t4 : Nat) (pathUp : Bool) : State :=
  if !s.isMember then s
  else
    let s := s.slewed
    if !pathUp ∨ s.timeless then s.ownTime
    else
      let off := offsetOfStamps t1 t2 t3 t4
      let s := { s.askTime with doors := { s.askTime.doors with slewPs := off } }
      let s := s.puts [(Reg.TIME.OFFSET_PS, unsigned 32 off), (Reg.TIME.SLEWING, ofBool (off != 0))]
      if 3000 < off.natAbs then s.loseAlignment else s.put Reg.TIME.ALIGNED 1

/-- TIME_EXCHANGE. -/
def execTimeExchange (t1 t2 t3 t4 : BitVec 64) (pathUp : Bool) (s : State) : Out :=
  whenLive s fun s => s.exchangeTime t1.toNat t2.toNat t3.toNat t4.toNat pathUp

/-! ### The identity of links (R306, R307, R322) -/

/-- A HELLO comes on a link that has trained: the peer is right and the link goes up, or the link is excluded (R322). The manual
gives no effect to another link version. -/
def State.gotHello (s : State) (d k peer peerDoor peerPair serial pairs : Nat) : State :=
  let j := doorLink d k
  let full := if d = 15 then 1 else 3
  if (s.get (Reg.DOOR.LINK_STATE d j) ≠ 1 ∧ s.get (Reg.DOOR.LINK_STATE d j) ≠ 2) ∨ !s.lit d then s
  else
    let s := (s.heardDoor d k).inc (Reg.DOOR.RX_BYTES d) 96
    let s := s.puts [(Reg.DOOR.PEER d j, peer), (Reg.DOOR.PEER_DOOR d j, peerDoor),
      (Reg.DOOR.PEER_PAIR d j, if d = 15 then peerPair else 0), (Reg.DOOR.PEER_SERIAL d, serial),
      (Reg.DOOR.PAIRS d j, min pairs full), (Reg.DOOR.DEGRADED d j, ofBool (decide (pairs < full)))]
    let want := s.peerOf d k
    if peer = want.1 ∧ peerDoor = want.2.1 ∧ (d ≠ 15 ∨ peerPair = want.2.2) ∧ peer ≠ s.dev then
      s.put (Reg.DOOR.LINK_STATE d j) 3
    else (s.put (Reg.DOOR.LINK_STATE d j) 5).ce (doorSrc d) 9 0x50 0

/-- HELLO. -/
def execHello (d : DoorIx) (pair : Fin 3) (peer : BitVec 6) (peerDoor : BitVec 4) (peerPair : BitVec 2)
    (serial : BitVec 64) (_version : BitVec 8) (pairs : BitVec 3) (s : State) : Out :=
  whenLive s fun s =>
    s.gotHello d.val pair.val peer.toNat peerDoor.toNat peerPair.toNat serial.toNat pairs.toNat

/-- The TYPE and KIND of a packet are defined (R310, R351, R391, R505). -/
def knownPacket (ty kind : Nat) : Bool :=
  if ty = 4 then decide (1 ≤ kind % 8) && decide (kind % 8 ≤ 3)
  else if ty = 5 then decide (1 ≤ kind) && decide (kind ≤ 3)
  else if ty = 9 then decide (1 ≤ kind) && decide (kind ≤ 6)
  else decide (1 ≤ ty) && decide (ty ≤ 10)

/-- A packet of unknown TYPE or KIND is discarded, counted and recorded (R310). -/
def State.badPacket (s : State) (d k ty kind sectors : Nat) : State :=
  if knownPacket ty kind ∨ !s.linkUsable d k then s
  else ((s.heardDoor d k).inc (Reg.DOOR.RX_BYTES d) (32 + 64 * sectors)).doorProtocol d

/-- BAD_PACKET_TYPE. -/
def execBadPacketType (on : DoorPair) (ty : BitVec 8) (kind : BitVec 4) (sectors : BitVec 6) (s : State) : Out :=
  whenLive s fun s => s.badPacket on.door.val on.pair.val ty.toNat kind.toNat sectors.toNat

/-! ### A link that fails (R318) -/

/-- Three successive retrainings of the link have failed, or none of its pairs is usable (R318). -/
def State.linkFailed (s : State) (d k : Nat) : DownCause → Bool
  | .retrainings => decide (3 ≤ lookupD 0 (d * 4 + doorLink d k) s.doors.failures)
  | .pairs => (linkPairs d k).all fun p => s.doors.lost.contains (d * 4 + p)

/-- A ledger entry came over a link: for a pair of door 15, from its tray (R307, R320). -/
def State.cameOver (s : State) (d k : Nat) (e : Ledger) : Bool :=
  e.door == d && (d != 15 || e.origin / 16 == (s.dev / 16 + k + 1) % 4)

/-- A packet that waits to be sent on a link that has gone DOWN takes the route that is left: it enters that link's transmit queue
(R309). -/
def State.reroute (s : State) (m : TxMsg) : State :=
  match s.route (natOf (slice 8 1 m.bytes) % 64) with
  | some (d, k) =>
    (s.setLink (doorLinkNo d k) ((s.link (doorLinkNo d k)).queuePacket m.bytes (m.tags.headD 0))).pushOut d k
  | none => s

/-- A link goes down for good: its replay buffer is discarded, what came over it and is not final is poisoned, and the jobs with a
packet in the buffer are killed (R318). What has not begun to go out goes another way (R309). -/
def State.linkGoesDown (s : State) (d k : Nat) : State :=
  let served := s.others.filter fun x => s.route x == some (d, if d = 15 then k else 0)
  let l := s.link (doorLinkNo d k)
  let s := s.mapLink (doorLinkNo d k) LinkSt.discard
  let s := s.poisonLedger (s.cameOver d k)
  let s := s.put (Reg.DOOR.LINK_STATE d (doorLink d k)) 6
  let s := s.addRec (mkRec (doorSrc d) 9 1 0 0x54 0)
  let s := (l.txq.filter fun m => !m.begun).foldl State.reroute s
  let s := (l.jobs.foldl (fun s j => s.killJob j (doorSrc d) 0x54 false) s).routesLost served
  if s.isMember ∧ s.timeless then s.ownTime else s

/-- DOOR_DOWN. -/
def execDoorDown (d : DoorIx) (pair : Fin 3) (cause : DownCause) (s : State) : Out :=
  whenLive s fun s =>
    if s.linkUsable d.val pair.val ∧ s.linkFailed d.val pair.val cause then s.linkGoesDown d.val pair.val else s

/-! ### Casements: feeds and calibration requests (R327 to R329) -/

/-- A power of a feed, in 0.01 dBm, reaches the threshold (R327). -/
def State.feedGood (s : State) (c cdbm : Nat) : Bool :=
  decide (signed 16 (s.get (Reg.CASE.THRESH c)) ≤ signed 16 cdbm)

/-- The door links of a casement that carry packets go down with its light (R318, R328). -/
def State.darkDoor (s : State) (d : Nat) : State :=
  [0, 1, 2].foldl (fun s k => if (d = 15 ∨ k = 0) ∧ s.linkUsable d k then s.linkGoesDown d k else s) s

/-- Neither feed is good: an FE record, the windows fail, the door links go down (R328). -/
def State.feedLost (s : State) (c : Nat) : State :=
  let s := ((s.addRec (mkRec (0x300 + c) 0x0A 2 0 0x58 0)).darkDoor c).takeFE (0x300 + c) 0x58
  [2 * c, 2 * c + 1].foldl (fun s w => if s.winOpen w then s.winDown w else s) s

/-- The active feed of a casement is good. -/
def State.activeGood (s : State) (c : Nat) : Bool :=
  s.get (if s.get (Reg.CASE.ACTIVE c) = 1 then Reg.CASE.B_OK c else Reg.CASE.A_OK c) == 1

/-- The check of a casement's feeds, once each µs (R327, R328): the active feed is switched where it has stopped being good and the
other is good; where neither is good any more, the light is lost. -/
def State.checkFeeds (s : State) (c a b : Nat) : State :=
  let was := s
  let s := s.puts [(Reg.CASE.A_CDBM c, a), (Reg.CASE.B_CDBM c, b), (Reg.CASE.A_OK c, ofBool (s.feedGood c a)),
    (Reg.CASE.B_OK c, ofBool (s.feedGood c b))]
  if !s.lit c then (if was.lit c then s.feedLost c else s)
  else if was.activeGood c ∧ !s.activeGood c then
    ((s.put (Reg.CASE.ACTIVE c) (1 - s.get (Reg.CASE.ACTIVE c))).inc (Reg.CASE.FEED_SWITCH_CNT c) 1).ce (0x300 + c) 0x0A 0x57 0
  else s

/-- FEED_SWITCH. -/
def execFeedSwitch (c : CaseIx) (aCdbm bCdbm : BitVec 16) (s : State) : Out :=
  whenLive s fun s => s.checkFeeds c.val aCdbm.toNat bCdbm.toNat

/-- A calibration is asked for: it runs, or waits while the spare pair is in use (R329). -/
def State.askCalibration (s : State) (c : Nat) : State :=
  if s.get (Reg.CASE.SPARE_STATE c) = 1 then s.put (Reg.CASE.CAL_STATE c) 2 else s.put (Reg.CASE.CAL_STATE c) 1

/-- CAL_REQ: Sill firmware writes CAL.REQ; a host write is refused (R329, R330). -/
def execCalReq (c : CaseIx) (sill : Bool) (s : State) : Out :=
  whenBar s sill fun s => if sill then s.askCalibration c.val else s.hostRefused (caseBase c.val + 0x20) 4

/-- Select a feed if it is good (R328, R330). -/
def State.selectFeed (s : State) (c sel : Nat) : State :=
  if sel = 1 ∧ s.get (Reg.CASE.A_OK c) = 1 then s.put (Reg.CASE.ACTIVE c) 0
  else if sel = 2 ∧ s.get (Reg.CASE.B_OK c) = 1 then s.put (Reg.CASE.ACTIVE c) 1
  else s

/-- SEL_REQ: Sill firmware writes FEED_CTL.SEL_REQ; a host write is refused (R328, R330). -/
def execSelReq (c : CaseIx) (sel : BitVec 2) (sill : Bool) (s : State) : Out :=
  whenBar s sill fun s =>
    if sill then s.selectFeed c.val sel.toNat
    else if sel = 0 then s
    else s.hostRefused (caseBase c.val + 8) (sel.toNat * 2 ^ 16)

/-! ### Relaying (R308) -/

/-- A TIME packet for this device: that of a follower of this device is answered with a TIME packet, whose stamps the casements
take (R323). The answer to this device's own is TIME_EXCHANGE's (log entry 117). -/
def State.gotTime (s : State) (h : Hdr) : State :=
  if originOf h ≠ s.dev ∧ s.masterOf (originOf h) = s.dev then s.sendPkt 8 (s.hdr 0x405 (originOf h) 0 0 0) [] else s

/-- RELAY: a packet for another device goes on, in the order in which it came; of those for this device, the packets that have no
row of their own are TIME packets. -/
def execRelay (d : DoorIx) (ty : BitVec 8) (h : Hdr) (p : Bytes) (s : State) : Out :=
  if 1 ≤ ty.toNat ∧ ty.toNat ≤ 9 ∧ p.length = 64 * h.sectors.toNat then
    whenLive s fun s =>
      if h.dst.toNat = s.dev ∧ ty.toNat ≠ 8 then s else s.arrive d.val ty.toNat h p fun s => s.gotTime h
  else .fault .illFormed

end Sys2Proof.Machine
end

