-- ==== Sys2Proof/Machine/Errors.lean ====
section
/-!
DEFINITION. Machine/Errors.lean: what a detection does (chapter 15): failing verdicts, retraction, observation and
retirement of units, core stores, parity, the sill processor's own checks, and the closing of epochs (chapter 11).
-/

namespace Sys2Proof.Machine

/-! ### Retirement (R107, R420, R501) -/

/-- Store a tile's retirement (R420). -/
def State.storeTile (s : State) (n t : Nat) : State :=
  let old := lookupD 0 n s.kept.retiredTiles
  { s with kept := { s.kept with retiredTiles := assocPut n (old ||| 2 ^ t) s.kept.retiredTiles } }

/-- A tile test of a tile is abandoned: its command completes with RETIRED (R420, R500). -/
def State.abandonTest (s : State) (n t : Nat) : State :=
  let hit := fun (x : TestSt) => x.kind == 1 && x.core == n && x.tile == t
  let gone := s.host.tests.filter hit
  let s := { s with host := { s.host with tests := s.host.tests.filter (fun x => !hit x) } }
  gone.foldl (fun s x => match x.r with
    | some r => s.finish r stRETIRED 0 0
    | none => s) s

/-- A syndrome that names an observed unit: the tile, and the events of 24 hours (R419). -/
def obsSynd (tile events : Nat) : Nat := tile + min events 255 * 256

/-- Retire a tile: fenced by retirement, stored, recorded and reported; the last tile in service retires its core instead
(R107, R420). -/
def State.retireTile (s : State) (n t events : Nat) : State :=
  if s.tileState n t < 2 ∧ s.lastTile n then s.retireLast n
  else
    let s := ((s.fenceWrite n .retire (2 ^ t)).storeTile n t).abandonTest n t
    (s.ce n 2 0x27 (obsSynd t events)).event 6 0 n t 0

/-! ### Observation (R419 to R421) -/

/-- 24 hours in ns. -/
def dayNs : Nat := 86400000000000

/-- The events of a unit in the last 24 hours (R419). -/
def State.recentEvents (s : State) (src unit tile : Nat) : Nat :=
  (s.host.obsEvents.filter fun e => e.1 == src && e.2.1 == unit && e.2.2.1 == tile && decide (s.now < e.2.2.2 + dayNs)).length

/-- The unit is under observation. -/
def State.observed (s : State) (src unit tile : Nat) : Bool :=
  if unit = 2 then bitOf (s.get (Reg.ERR.OBS_OBSERVED src)) tile
  else if unit = 3 then s.get (Reg.ERR.OBS_BERYL src) == 1
  else if unit = 4 then s.get (Reg.ERR.OBS_ACT src) == 1
  else s.get Reg.ERR.AGATE_OBSERVED == 1

/-- Put a unit under observation, or end it (R419). -/
def State.setObserved (s : State) (src unit tile : Nat) (on : Bool) : State :=
  if unit = 2 then
    let old := s.get (Reg.ERR.OBS_OBSERVED src)
    let s := s.put (Reg.ERR.OBS_OBSERVED src) (if on then old ||| 2 ^ tile else old - (if bitOf old tile then 2 ^ tile else 0))
    if s.tileState src tile < 2 then s.putTile src tile (ofBool on) else s
  else if unit = 3 then s.put (Reg.ERR.OBS_BERYL src) (ofBool on)
  else if unit = 4 then s.put (Reg.ERR.OBS_ACT src) (ofBool on)
  else s.put Reg.ERR.AGATE_OBSERVED (ofBool on)

/-- Queue a whole-core test that Sill firmware asks for itself (R421). -/
def State.queueCoreTest (s : State) (n : Nat) : State :=
  { s with host := { s.host with tests := s.host.tests ++ [⟨none, 2, n, 0, 0, false⟩] } }

/-- The third event of a unit within 24 hours: a tile is retired; of any other unit the retirement is advised, and a
core's units have their core tested (R420, R421). -/
def State.thirdEvent (s : State) (src unit tile n : Nat) : State :=
  if unit = 2 then s.retireTile src tile n
  else
    let s := (s.addRec (mkRec src unit 1 0 0x29 (obsSynd 0 n))).event 9 0 (if unit = 0x0B then 0xFF else src) unit 0
    if unit = 0x0B then s else s.queueCoreTest src

/-- A residue or parity event of a unit (R419 to R421). -/
def State.obsEvent (s : State) (src unit tile : Nat) : State :=
  let s := { s with host := { s.host with obsEvents := s.host.obsEvents ++ [(src, unit, tile, s.now)] } }
  let n := s.recentEvents src unit tile
  let s := if s.observed src unit tile then s
    else (s.setObserved src unit tile true).ce src unit 0x26 (obsSynd tile n)
  if n = 3 then s.thirdEvent src unit tile n else s

/-- The unit that a number of OBSERVATION_EXPIRY names: 10 n + t for tile t of core n, 10 n + 8 for its Beryl, 10 n + 9
for its activation unit, 80 for Agate; as source, unit code and tile. -/
def obsUnit (u : Nat) : Nat × Nat × Nat :=
  if 80 ≤ u then (agateSrc, 0x0B, 0)
  else if u % 10 < 8 then (u / 10, 2, u % 10) else if u % 10 = 8 then (u / 10, 3, 0) else (u / 10, 4, 0)

/-- A unit has had 24 hours without an event (R419). -/
def State.obsExpire (s : State) (u : Nat) : State :=
  let k := obsUnit u
  if !s.observed k.1 k.2.1 k.2.2 then s
  else
    let last := ((s.host.obsEvents.filter fun e => e.1 == k.1 && e.2.1 == k.2.1 && e.2.2.1 == k.2.2).map fun e => e.2.2.2).foldl max 0
    (s.passTo (last + dayNs)).setObserved k.1 k.2.1 k.2.2 false

/-- OBSERVATION_EXPIRY. -/
def execObservationExpiry (unit : Nat) (s : State) : Out := whenLive s fun s => s.obsExpire unit

/-! ### Failing verdicts (R317, R399, R407, R416) -/

/-- Retract an epoch: ERR.RETRACT_EPOCH, a RETRACT to every other device, LAST_RETRACT, and Agate's own contributions
(R317, R394, R416). -/
def State.retractEpoch (s : State) (src e : Nat) : State :=
  ((s.puts [(Reg.ERR.RETRACT_EPOCH, e), (Reg.ERR.RETRACT_VALID, 1)]).sendRetract src e).agateRetract s.dev e

/-- What a failing verdict reports beside the result it is about. -/
structure Verdict where
  parity : Bool
  path : Nat
  lane : Nat
  tile : Nat
  expected : Nat
  observed : Nat
  /-- the addresses of the first and the last byte of the element -/
  va : Nat
  last : Nat
deriving DecidableEq, Repr

/-- A path that is duplicated and compared, by its row in the coverage table of Beryl or of Garnet and the activation unit
(R115, R153). -/
def comparedPath (unit path : Nat) : Bool := if unit = 3 then path == 5 || path == 7 else path == 4

/-- The syndrome of a RESIDUE or PARITY record (R407). -/
def Verdict.synd (v : Verdict) (unit : Nat) : Nat :=
  v.path + v.lane * 2 ^ 4 + (if unit = 2 then v.tile * 2 ^ 12 else 0) + ofBool v.parity * 2 ^ 15 +
    (if v.parity || comparedPath unit v.path then 0 else v.expected * 2 ^ 16 + v.observed * 2 ^ 19) + v.va * 2 ^ 22

/-- Poison the piece that holds a byte of a checked result, as it stands (R416). -/
def State.poisonElement (s : State) (c : Check) (va : Nat) : State :=
  if c.pages.any fun e => e.1 == va / 2 ^ 21 then s.setPoison (Bound.pa c.pages va) else s

/-- The unit's counter of residue and parity events (R117, R118, R155). -/
def State.countResidue (s : State) (src unit tile : Nat) : State :=
  if unit = 2 then s.inc (Reg.CORE.GARNET_RES_EVT src tile) 1
  else if unit = 3 then s.inc (Reg.CORE.BERYL_RES_EVT src) 1
  else s.inc (Reg.CORE.ACT_RES_EVT src) 1

/-- A failing verdict on a result of a core's unit (R416). -/
def State.coreVerdict (s : State) (c : Check) (v : Verdict) : State :=
  let s := s.addRec { src := c.src, unit := c.unit, cls := 0, job := c.job, code := if v.parity then 0x21 else 0x20,
                      tag := c.tag, cmd := false, epoch := some c.epoch, synd := v.synd c.unit }
  let s := (s.poisonElement c v.va).poisonElement c v.last
  let s := (s.countResidue c.src c.unit v.tile).retractEpoch c.src c.epoch
  s.obsEvent c.src c.unit (if c.unit = 2 then v.tile else 0)

/-- A failing verdict in Agate: its bucket fails with RESIDUE, and the epoch is retracted (R399). -/
def State.agateVerdict (s : State) (c : Check) : State :=
  let st := s.get (Reg.AGATE.BUCKET_STATE c.bucket)
  let s := if s.agateOpen ∧ 1 ≤ st ∧ st ≤ 3 then s.bucketFail c.bucket 7
    else s.addRec (mkRec agateSrc 0x0B 0 s.agateJob 0x77 0)
  ((s.inc Reg.AGATE.RES_EVT 1).retractEpoch agateSrc c.epoch).obsEvent agateSrc 0x0B 0

/-- A verdict fails for the result at place i of those whose verdicts are open. -/
def State.failVerdict (s : State) (i : Nat) (v : Verdict) : State :=
  match s.checks[i]? with
  | none => s
  | some c => if c.unit = 0x0B then s.agateVerdict c else s.coreVerdict c v

/-- RESIDUE_VERDICT_FAIL. -/
def execResidueVerdictFail (i : Nat) (parity : Bool) (path : BitVec 4) (lane : BitVec 8) (tile : Fin 8)
    (expected observed : BitVec 3) (va last : BitVec 57) (s : State) : Out :=
  whenLive s fun s => s.failVerdict i
    ⟨parity, path.toNat, lane.toNat, tile.val, expected.toNat, observed.toNat, va.toNat, last.toNat⟩

/-! ### Epochs (R315 to R317) -/

/-- Close the oldest open epoch: CLOSE goes to every other device, and every verdict of the epoch has been given (R316,
R317). A device in the FE state closes none (R428). -/
def State.closeEpoch (s : State) : State :=
  if s.fe then s
  else
    let e := s.doors.nextClose
    let s := s.passTo ((e + 1) * 1024 + 2048)
    let s := (s.sendAll 7 (doorSrc 0) 0 (e % 2 ^ 32) []).put (Reg.DOOR.CLOSED_EPOCH 0) e
    { s with doors := { s.doors with nextClose := e + 1 }, checks := s.checks.filter fun c => decide (e < c.epoch) }

/-- EPOCH_CLOSE. -/
def execEpochClose (s : State) : Out := whenLive s State.closeEpoch

/-! ### Core stores (R403, R404, R406) -/

/-- The physical address of an offset in core n's store (R176). -/
def storePa (n off : Nat) : Nat := csBase + n * csSize + off

/-- CS_UNCORR: an uncorrectable word poisons its piece (R404). -/
def execCsUncorr (c : CoreIx) (off : BitVec 26) (s : State) : Out :=
  whenLive s fun s =>
    if s.present c.val then
      ((s.setPoison (storePa c.val off.toNat)).inc Reg.ERR.CS_UNCORR 1).ce c.val 6 0x23 0
    else s

/-- CS_CORR: a corrected word is counted and recorded (R406, R429). -/
def execCsCorr (c : CoreIx) (_off : BitVec 26) (s : State) : Out :=
  whenLive s fun s => if s.present c.val then (s.inc Reg.ERR.CS_CORR 1).ce c.val 6 0x22 0 else s

/-- SCRUB_PASS: the patrol scrub has read every word of a core's store once; it changes no result (R403). -/
def execScrubPass (c : CoreIx) (s : State) : Out :=
  whenLive s fun s => if s.present c.val then s.inc Reg.ERR.SCRUB_PASSES 1 else s

/-! ### Consumption and the FE state (R413 to R415, R428) -/

/-- POISON_CONSUMPTION: a unit that is no instruction consumes poisoned data of a job: its record, and the kill. A unit that
the device does not have consumes nothing (R2, R20). -/
def execPoisonConsumption (job : BitVec 6) (src : BitVec 16) (unit : BitVec 8) (va : BitVec 57) (s : State) : Out :=
  whenLive s fun s => if s.isSource src.toNat then s.unitConsume job.toNat src.toNat unit.toNat va.toNat else s

/-- The codes of the events of class FE (R261, R406, and the codes of doors and casements in chapter 11). -/
def feCodes : List Nat := [0x24, 0x2A, 0x2D, 0x30, 0x31, 0x46, 0x58]

/-- FE_STATE: a record of class FE, and on the first one the FE state (R428); of a unit that the device has (R2, R20), and with
the code of an FE event: no unit raises another (R406). -/
def execFeState (src : BitVec 16) (unit code : BitVec 8) (synd : BitVec 128) (s : State) : Out :=
  whenLive s fun s =>
    if s.isSource src.toNat ∧ feCodes.contains code.toNat then s.raiseFE src.toNat unit.toNat code.toNat synd.toNat else s

/-! ### Parity in caches and buffers (R401) -/

/-- XLAT_PARITY: the entry at place i of a source's slices is dropped; its next use walks again (R401). -/
def State.dropCached (s : State) (src i : Nat) : State :=
  match (s.slices.filter fun x => x.src % 65536 == src)[i]? with
  | none => s
  | some x => ({ s with slices := s.slices.erase x } : State).ce src 0x0E 0x32 0

/-- XLAT_PARITY. -/
def execXlatParity (src : BitVec 16) (i : Nat) (s : State) : Out := whenLive s fun s => s.dropCached src.toNat i

/-- Mark the staged sectors of a mover. -/
def State.poisonStaged (s : State) (m : Nat) (secs : List Nat) : State :=
  let piece := fun (x : Piece) => if secs.contains (x.pa / 64) then { x with data := x.data.map fun d => (d.1, true) } else x
  let burst := fun (b : Burst) => { b with reads := b.reads.map piece }
  let run := fun (r : Run) => if r.m = m then { r with bursts := r.bursts.map burst } else r
  { s with runs := s.runs.map run }

/-- Words of a core's issue unit fail parity: descriptor slots, launch slots and loop counters by the numbers of CoreSt.badWords,
and the window entry of tag t by 65,536 + t (R401). -/
def State.coreParity (s : State) (n : Nat) (l : List Nat) : State :=
  let bad := fun (i : Insn) => if l.contains (65536 + i.tag) then { i with bad := true } else i
  let c := s.core n
  s.setCore n { c with badWords := (l.filter fun k => decide (k < 4128) && !c.badWords.contains k) ++ c.badWords,
                       window := c.window.map bad }

/-- BUFFER_PARITY: the 64-byte pieces that an error affects, by physical sector number, are poisoned: in a mover's staging
buffer, or as a door's ledger or the expert router's buffer names them (R401). Errors in the words of a core's issue unit, which
have no row of their own, are numbered under the core's source (log entry 116). -/
def State.poisonBuffer (s : State) (src : Nat) (secs : List Nat) : State :=
  if 0x500 ≤ src ∧ src < 0x50A then s.poisonStaged (src - 0x500) secs
  else if s.present src then s.coreParity src secs
  else if 0x200 ≤ src ∧ src < 0x210 then
    let mine := (s.doors.ledger.filter fun e => e.door == src - 0x200).flatMap Ledger.sectors
    (mine.filter fun pa => secs.contains (pa / 64)).foldl State.markSector s
  else if src = expSrc then
    (secs.filter fun k => s.inMain (64 * k) || (s.storeOf (64 * k)).isSome).foldl (fun s k => s.markSector (64 * k)) s
  else s

/-- BUFFER_PARITY. -/
def execBufferParity (src : BitVec 16) (pieces : List Nat) (s : State) : Out :=
  whenLive s fun s => s.poisonBuffer src.toNat pieces

/-! ### The sill processor and the security block's watch (R425 to R427) -/

/-- Sill firmware itself fails: a SILL_FAULT record, and the FE state, of which it is the cause (R426 to R428). -/
def State.sillFails (s : State) (src unit : Nat) : State :=
  let s := s.raiseFE src unit 0x30 0
  { s with host := { s.host with sillDown := true } }

/-- What follows from a check of the sill processor (R426, R427): a corrected word and a command that is run once more are
recorded; a register write that reads back wrong once is rewritten, and leaves what it was to leave; all else is fatal. -/
def State.sillCheck (s : State) : SillCheck → State
  | .uncorrectable => s.sillFails 0x400 0x12
  | .rewriteFails => s.sillFails 0x400 0x12
  | .signature => s.sillFails 0x400 0x12
  | .corrected => (s.inc Reg.ERR.SILL_CORR 1).ce 0x400 0x12 0x2F 0
  | .rerun => (s.inc Reg.ERR.SILL_CORR 1).ce 0x400 0x12 0x2F 0
  | .rewrite => s

/-- SILL_MEMORY_ECC, with the other checks of the sill processor, which have no row of their own (R426, R427; log entry 116). -/
def execSillMemoryEcc (check : SillCheck) (s : State) : Out := whenLive s fun s => s.sillCheck check

/-- HEARTBEAT (R427, R471). -/
def execHeartbeat (s : State) : Out :=
  whenLive s fun s =>
    ({ s with host := { s.host with heartbeatAt := s.now } } : State).inc Reg.FW.HEARTBEAT 1

/-- HEARTBEAT_TIMEOUT: none for 10 ms, once Sill firmware runs (R427). -/
def execHeartbeatTimeout (s : State) : Out :=
  whenLive s fun s =>
    if s.get Reg.SEC.READY = 1 then (s.passTo (s.host.heartbeatAt + 10000000)).sillFails 0x406 0x13 else s

/-- An hour in ns. -/
def hourNs : Nat := 3600000000000

/-- ROM_CHECK: the hourly check of mask ROM and patch table; a mismatch is fatal (R425). -/
def execRomCheck (ok : Bool) (s : State) : Out :=
  whenLive s fun s =>
    let s := s.passTo (s.host.romCheckedAt + hourNs)
    let s := { s with host := { s.host with romCheckedAt := s.now } }
    if ok then s else s.raiseFE 0x406 0x13 0x30 0

end Sys2Proof.Machine
end

