-- ==== Sys2Proof/Machine/Access.lean ====
section
/-!
DEFINITION. Machine/Access.lean: reads and writes of registers by field (R7 to R11, R453, R550), the registers whose
reads show other state or whose writes do something of their own, invalidation (R187, R188), and the aperture
(R454, R455).
-/

namespace Sys2Proof.Machine

/-! ### Registers that show other state -/

/-- The tags a window holds on a channel, or in all. -/
def State.inflight (s : State) (w : Nat) : Nat := (s.win w).tags.length

/-- The mean round trip of the reads of the last 1 µs; 0 when there was none (R262). -/
def State.meanRtt (s : State) (w : Nat) : Nat :=
  let l := (s.win w).rtts.filter fun e => decide (s.now < e.1 + 1000)
  (l.map Prod.snd).sum / l.length

/-- What stands in a register of core n's block for a field that shows other state, or on a core that is absent (R2,
R230, R281). -/
def State.coreView (s : State) (n r lo stored : Nat) : Nat :=
  if !s.present n then (if r = 0 ∧ lo = 60 then 7 else 0)
  else if r = 0x20 then (s.core n).window.length
  else if r = 0x6000 ∧ lo = 8 then s.outstanding n
  else if 0x6010 ≤ r ∧ r < 0x6050 then s.ctxView n (s.get (Reg.MOVER.CTX_SEL n)) ((r - 0x6010) / 8)
  else stored

/-- The same for a window's block; the address hash key reads as zero (R253, R262). -/
def State.winView (s : State) (w r lo stored : Nat) : Nat :=
  if r = 0x10 ∧ lo = 0 then s.inflight w
  else if r = 0x90 ∧ lo = 0 then s.meanRtt w
  else if 0x200 ≤ r ∧ r < 0x340 then ((s.win w).onChan ((r - 0x200) / 8)).length
  else if r = 0x3F10 then 0
  else stored

/-- The fuses that GEN and SEC show (R1, R470, R525). -/
def State.fuseView (s : State) (off lo stored : Nat) : Nat :=
  if off = 0 ∧ lo = 16 then s.kept.stepping
  else if off = 0 ∧ lo = 8 then (s.coreList.map fun n => 2 ^ n).sum
  else if off = 0 ∧ lo = 4 then s.coreList.length
  else if off = 0 ∧ lo = 0 then s.coreList.length
  else if off = 8 then s.kept.serial
  else if off = 0x40000 ∧ lo = 36 then s.kept.alarmLevels
  else if off = 0x40000 ∧ lo = 4 then ofBool s.kept.identityDead
  else if off = 0x40030 then s.kept.bootCount
  else if off = 0x40038 ∧ lo = 32 then s.kept.minVersion
  else if 0x41000 ≤ off ∧ off < 0x41D00 then s.kept.idCert / 2 ^ (8 * (off - 0x41000))
  else stored

/-- Entries of a class-0 ring that are outstanding: announced and not picked up, or in progress (R464). -/
def State.class0Out (s : State) : Nat :=
  ((s.host.rings.filter fun r => r.cls == 0).map fun r => r.bells.length + r.inProgress).sum

/-- A handler runs: one that is not waiting for other units (R462, R471). -/
def State.running (s : State) : Option Handler := s.host.handlers.find? fun h => !h.waits

/-- What Sill firmware's mailbox and GEN show of the work in progress (R464, R471). -/
def State.workView (s : State) (off lo stored : Nat) : Nat :=
  if off = 0x510 then s.class0Out
  else if off = 0x50020 ∧ lo = 15 then ofBool s.running.isSome
  else if off = 0x50020 ∧ lo = 8 then (s.running.map Handler.cls).getD 0
  else if off = 0x50020 ∧ lo = 0 then min 255 (s.host.tests.filter fun t => !t.running).length
  else if off = 0x8000 ∧ lo = 8 then s.outstanding 8
  else if 0x8010 ≤ off ∧ off < 0x8050 then s.ctxView 8 (s.get (Reg.MOVER.CTX_SEL 8)) ((off - 0x8010) / 8)
  else stored

/-- The phase that a batch's register shows (R353): counting, exchanging, moving tokens, or expert work. -/
def Batch.phaseCode (b : Batch) : Nat :=
  if b.allocated then (if b.xdisps.any fun p => !p.finished && !p.faulted then 2 else 3) else ofBool b.sent

/-- What the expert router's batch registers show (R353). -/
def State.expertView (s : State) (r lo stored : Nat) : Nat :=
  if r = 8 ∧ lo = 0 then s.batches.length
  else if 0x400 ≤ r ∧ r < 0xC00 ∧ !s.placedHere ((r - 0x400) / 32) then 0
  else if 0x1000 ≤ r ∧ r < 0x1200 ∧ !s.present ((r - 0x1000) / 64) then 0
  else if 0x1200 ≤ r ∧ r < 0x1240 then
    match s.batches.find? (fun b => b.slot == (r - 0x1200) / 8) with
    | none => 0
    | some b =>
      if lo = 63 then 1 else if lo = 56 then b.phaseCode
      else if lo = 48 then (b.known.map fun a => a.topk - 1).getD 0
      else if lo = 32 then b.gen
      else if lo = 16 then ((b.demands.filter fun d => d.pos != s.pos).map fun d => 2 ^ d.pos).sum
      else (b.xdisps.map fun p => 2 ^ p.core).sum
  else stored

/-- Residue and parity events of 24 hours that satisfy p, saturating (R429). -/
def State.eventCount (s : State) (p : Nat → Bool) : Nat :=
  min 255 (s.host.obsEvents.filter fun e => p e.1 && decide (s.now < e.2.2.2 + dayNs)).length

/-- The window of RATE in hours; the hours that it has observed, none before a configuration has formed; and the restore-class
events in it (R443, R448). -/
def State.rateWindow (s : State) : Nat := max 1 (s.get Reg.SNAP.WINDOW_H)
def State.observedHours (s : State) : Nat :=
  if s.get (Reg.DOOR.FORMED 0) = 1 then min s.rateWindow ((s.now - s.host.formedAt) / hourNs) else 0
def State.restoreCount (s : State) : Nat :=
  (s.host.restoreEvents.filter fun t => decide (s.now ≤ t + s.rateWindow * hourNs)).length

/-- What ERR, PWR and SNAP show of other state (R2, R429, R443, R448). -/
def State.miscView (s : State) (off lo stored : Nat) : Nat :=
  if 0x30100 ≤ off ∧ off < 0x30140 then
    if !s.present ((off - 0x30100) / 8) then 0
    else if lo = 0 then s.eventCount fun src => src == (off - 0x30100) / 8
    else stored
  else if off = 0x30140 ∧ lo = 0 then s.eventCount fun src => src == agateSrc
  else if 0x20100 ≤ off ∧ off < 0x20140 then
    if !s.present ((off - 0x20100) / 8) then (if lo = 48 then 3 else 0)
    else if lo = 0 then s.coreMv ((off - 0x20100) / 8)
    else stored
  else if off = 0x3A0018 ∧ lo = 0 then s.kept.straps.feedId.toNat
  else if (off = 0x3A0108 ∨ off = 0x3A0110) ∧ s.isMember then 0
  else if off = 0x3A0108 then (if lo = 0 then s.restoreCount else s.observedHours)
  else if off = 0x3A8000 ∧ lo = 8 then s.outstanding 9
  else if 0x3A8010 ≤ off ∧ off < 0x3A8050 then s.ctxView 9 (s.get (Reg.MOVER.CTX_SEL 9)) ((off - 0x3A8010) / 8)
  else stored

/-- Fields that count or measure what no command brings: corrected and uncorrectable codewords of the links, corrected mesh
errors, the flits and waits of routers, the waits of control packets, a casement's power. How much they have taken is a free
value of each read (R262, R285, R304, R330; log entry 106). Nothing counts in a link or a router that carries nothing. -/
def State.measured (s : State) (f : Fld) : Bool :=
  if 0x200000 ≤ f.off ∧ f.off < 0x280000 then
    let st := s.get (Reg.WIN.STATE ((f.off - 0x200000) / 0x4000))
    let r := (f.off - 0x200000) % 0x4000
    (r == 0x50 || r == 0x58) && st != 0 && st != 7
  else if 0x300000 ≤ f.off ∧ f.off < 0x340000 then
    let r := (f.off - 0x300000) % 0x4000
    (r == 0x38 || r == 0x70) && [0, 1, 2].any fun k =>
      let st := s.get (Reg.DOOR.LINK_STATE ((f.off - 0x300000) / 0x4000) k)
      st != 0 && st != 5
  else if 0x340000 ≤ f.off ∧ f.off < 0x380000 then (f.off - 0x340000) % 0x4000 == 0x28 && f.lo == 16
  else f.off == 0x90110 || (decide (0x90200 ≤ f.off) && decide (f.off < 0x90320)) ||
    (decide (0x90400 ≤ f.off) && decide (f.off < 0x90520))

/-- The values between which a field moves while no command tells: the phases of the Beryl instruction in flight (R156), and TRAIN
and HELLO of a door's link that comes up (R322, R330); none where it holds one value (log entries 14 and 117). -/
def State.passing (s : State) (f : Fld) : List Nat :=
  if 0x100000 ≤ f.off ∧ f.off < 0x200000 ∧ f.off % 0x20000 = 0x5000 ∧ f.lo = 0 then
    let n := (f.off - 0x100000) / 0x20000
    match (s.core n).window.find? (fun i => i.dispatched && queueOf i.op == 2 && i.tag == s.get (Reg.CORE.BERYL_TAG n)) with
    | some i => berylPhases i.op
    | none => []
  else if 0x300000 ≤ f.off ∧ f.off < 0x340000 ∧ (f.off - 0x300000) % 0x4000 < 0x18 ∧ f.lo = 0 ∧ s.get f = 1 then [1, 2]
  else []

/-- A read of the field draws a free value. -/
def State.unsteady (s : State) (f : Fld) : Bool := s.measured f || !(s.passing f).isEmpty

/-- The value of a field with what the hardware has counted or measured in it; a counter stays at its maximum (R11). -/
def State.shown (s : State) (f : Fld) : Nat :=
  if !(s.passing f).isEmpty then
    (s.passing f).getD (Config.openValue 117 (f.key + 2 ^ 32 * s.freeCtr) % (s.passing f).length) (s.get f)
  else if s.measured f then min (2 ^ f.w - 1) (s.get f + Config.openValue 106 (f.key + 2 ^ 32 * s.freeCtr)) else s.get f

/-- What a software read finds in a field. -/
def State.view (s : State) (f : Fld) : Nat :=
  let v := s.shown f
  (if 0x100000 ≤ f.off ∧ f.off < 0x200000 then s.coreView ((f.off - 0x100000) / 0x20000) ((f.off - 0x100000) % 0x20000) f.lo v
  else if 0x200000 ≤ f.off ∧ f.off < 0x280000 then s.winView ((f.off - 0x200000) / 0x4000) ((f.off - 0x200000) % 0x4000) f.lo v
  else if 0x300000 ≤ f.off ∧ f.off < 0x340000 then
    if (f.off - 0x300000) % 0x4000 = 0x50 ∧ f.lo = 0 then s.ledgerUsed ((f.off - 0x300000) / 0x4000)
    else if f.off = 0x303F00 ∧ f.lo = 0 then s.dev else v
  else if 0x390000 ≤ f.off ∧ f.off < 0x3A0000 then s.expertView (f.off - 0x390000) f.lo v
  else s.miscView f.off f.lo (s.workView f.off f.lo (s.fuseView f.off f.lo v))) % 2 ^ f.w

/-- Where a register's state is read: LATCH.SET and LATCH.CLR read as STATE (R304). -/
def readOff (r : Nat) : Nat :=
  if 0x80800 ≤ r ∧ r < 0x81000 then r - 0x800 else if 0x81000 ≤ r ∧ r < 0x81800 then r - 0x1000 else r

/-- The 64 bits of the register at an 8-byte-aligned offset; write-only fields read as zero (R8, R9). -/
def State.readWord (s : State) (r : Nat) : Nat :=
  ((Reg.fieldsAt (readOff r)).map fun f => if f.acc = .wo then 0 else s.view f * 2 ^ f.lo).sum

/-- The bits that an access of 4 or 8 bytes at an offset covers in its 64-bit register (R453). -/
def coverMask (off size : Nat) : Nat := if size = 8 then 2 ^ 64 - 1 else (2 ^ 32 - 1) * 2 ^ (8 * (off % 8))

/-- Clear the bits of a read-clear field that a read returns (R10, R453). -/
def State.clearRead (s : State) (m : Nat) (f : Fld) : State :=
  if f.acc = .rc then s.put f (s.get f - (s.get f &&& (m / 2 ^ f.lo % 2 ^ f.w))) else s

/-- What a router has forwarded stands in its ROUTER_FLITS, when that is read (R304). -/
def State.settleFlits (s : State) (r : Nat) : State :=
  let k := (r - 0x90200) / 8
  if 0x90200 ≤ r ∧ r < 0x90320 then
    ({ s with net := { s.net with flits := sparseSet 0 k 0 s.net.flits } } : State).inc (Reg.LATCH.ROUTER_FLITS k)
      (sparseGet 0 k s.net.flits)
  else s

/-- A software read of 4 or 8 bytes, with its read effects: the value, and the state after it. -/
def State.readReg (s : State) (off size : Nat) : State × Nat :=
  let r := off / 8 * 8
  let s := s.settleFlits r
  let m := coverMask off size
  let v := (s.readWord r &&& m) / 2 ^ (8 * (off % 8))
  let t := (Reg.fieldsAt r).foldl (fun s f => s.clearRead m f) s
  (if (Reg.fieldsAt r).any s.unsteady then t.draw else t, v)

/-! ### Invalidation (R187, R188, R485) -/

/-- A cached entry covers part of a range of 2 MiB units of a job (R187). -/
def XEnt.covers (x : XEnt) (job : Nat) (all : Bool) (first units : Nat) : Bool :=
  x.job == job && (all || (units != 0 && decide (x.vpn * 512 ^ x.level < first + units) &&
    decide (first < (x.vpn + 1) * 512 ^ x.level)))

/-- A 2 MiB unit lies in the range of an invalidation. -/
def inUnits (all : Bool) (first units u : Nat) : Bool := all || (decide (first ≤ u) && decide (u < first + units))

/-- The bursts of a job that movers have translated in a range and not completed: mover and channel, and burst number. -/
def State.openBursts (s : State) (job : Nat) (hit : Nat → Bool) : List (Nat × Nat) :=
  (s.runs.filter fun r => r.job == job).flatMap fun r =>
    (r.bursts.filter fun b => b.pages.any fun p => hit p.1).map fun b => (r.m * 4096 + r.ch, b.n)

/-- An instruction of an engine of a core's own has been dispatched, so that its pages are bound, and is not complete (R181). -/
def Insn.bound (i : Insn) (hit : Nat → Bool) : Bool :=
  i.dispatched && decide (queueOf i.op ≤ 2) && (i.reads ++ i.writes).any fun x => (unitsOf x.1 x.2).any hit

/-- A request lies in a page that a cached entry of its job covers in the range, or is a walk of the job's (R187). -/
def State.reqHit (s : State) (job : Nat) (hit : Nat → Bool) (r : MemReq) : Bool :=
  r.job == job && (r.queue == 37 || s.slices.any fun e => e.job == job && bitOf e.entry.toNat 1 &&
    (List.range (512 ^ e.level)).any fun k =>
      hit (e.vpn * 512 ^ e.level + k) && r.pa / 2 ^ 21 == entryAddr e.entry.toNat / 2 ^ 21 + k)

/-- Every instruction and access of a job that has been translated in a range and is not complete (R187): the bursts of its
movers; the instructions of its engines, from 2^20 the core, with the tag; the batches of the expert router, under 2^21, with the
generation; the WRITEs of doors, under 2^22, with the number; and the requests of units, from 2^23 the queue, with the address,
held writes among them. -/
def State.translated (s : State) (job : Nat) (hit : Nat → Bool) : List (Nat × Nat) :=
  s.openBursts job hit ++
    ((s.coresOf job).flatMap fun n => ((s.core n).window.filter fun i => i.bound hit).map fun i => (2 ^ 20 + n, i.tag)) ++
    ((s.batches.filter fun b => (b.xdisps ++ b.xrecvs).any fun p => p.job == job && p.bound.any fun e => hit e.1).map fun b =>
      (2 ^ 21, b.gen)) ++
    ((s.doors.pendingWrites.filter fun w => w.hdr.job.toNat == job &&
      (unitsOf w.hdr.addr.toNat (64 * w.hdr.sectors.toNat)).any hit).map fun w => (2 ^ 22, w.n)) ++
    (s.reqsOut.filter fun r => s.reqHit job hit r).map fun r => (2 ^ 23 + r.queue, r.pa)

/-- Drop the cached entries of a range and note who still works through them. -/
def State.beginInval (s : State) (job : Nat) (all : Bool) (first units : Nat) (req : Option Req) : State :=
  let s := s.put Reg.XLAT.BUSY 1
  let x : Inval := ⟨job, all, first, units, s.translated job (inUnits all first units), 0, req⟩
  { s with slices := s.slices.filter (fun e => !e.covers job all first units), inval := some x }

/-- A write to INVAL_CMD (R187, R188). -/
def State.invalCmd (s : State) (job : Nat) (all : Bool) : State :=
  if s.get Reg.XLAT.BUSY = 1 then s.put Reg.XLAT.OVERRUN 1
  else s.beginInval job all (s.get Reg.XLAT.INVAL_VA) (s.get Reg.XLAT.INVAL_PAGES) none

/-- INVAL_CMD: Sill firmware's; a host's write of a 1 is ignored and recorded (R187, R550). -/
def execInvalCmd (value : BitVec 64) (sill : Bool) (s : State) : Out :=
  whenBar s sill fun s =>
    if sill then s.invalCmd (bitsOf value.toNat 5 0) (bitOf value.toNat 6)
    else if value.toNat % 128 = 0 then s
    else s.hostRefused Reg.XLAT.INVAL_JOB.off value.toNat

/-- Sill firmware invalidates a range for a command, which completes with it; one invalidation runs at a time (R187,
R485). -/
def State.invalFor (s : State) (r : Req) (job first units : Nat) : State :=
  if s.get Reg.XLAT.BUSY = 1 then
    { s with host := { s.host with invals := s.host.invals ++ [(r, job, first, units)] } }
  else
    let s := s.puts [(Reg.XLAT.INVAL_VA, first), (Reg.XLAT.INVAL_PAGES, units)]
    s.beginInval job false first units (some r)

/-- A burst is still on its way: in its mover, or as a request at a window or behind a snapshot (R187). -/
def State.burstOpen (s : State) (u : Nat × Nat) : Bool :=
  let mine := fun (r : MemReq) => r.owner == .burst (u.1 / 4096) (u.1 % 4096) u.2
  (s.runs.any fun r => r.m * 4096 + r.ch == u.1 && r.bursts.any fun b => b.n == u.2) || s.reqOut mine

/-- Who worked through a dropped entry does so still (R187). -/
def State.stillUsed (s : State) (u : Nat × Nat) : Bool :=
  if u.1 < 2 ^ 20 then s.burstOpen u
  else if u.1 < 2 ^ 21 then (s.core (u.1 - 2 ^ 20)).window.any fun i => i.tag == u.2
  else if u.1 = 2 ^ 21 then s.batches.any fun b => b.gen == u.2
  else if u.1 = 2 ^ 22 then s.doors.pendingWrites.any fun w => w.n == u.2
  else s.reqOut fun r => 2 ^ 23 + r.queue == u.1 && r.pa == u.2

/-- The next command that waits for an invalidation starts its own (R473). -/
def State.nextInval (s : State) : State :=
  match s.host.invals with
  | [] => s
  | (r, job, first, units) :: rest =>
    ({ s with host := { s.host with invals := rest } } : State).invalFor r job first units

/-- An invalidation is over (R187). -/
def State.closeInval (s : State) (x : Inval) : State :=
  let s := { s with inval := none }
  let s := s.puts [(Reg.XLAT.BUSY, 0), (Reg.XLAT.DONE_CNT, s.get Reg.XLAT.DONE_CNT + 1 + x.more)]
  let s := match x.req with
    | some r => s.finish r stSUCCESS 0 0
    | none => s
  s.nextInval

/-- The invalidation in progress, once every access through a dropped entry has completed (R187). -/
def State.overInval (s : State) : Option Inval :=
  match s.inval with
  | none => none
  | some x => if x.users.any s.stillUsed then none else some x

/-- An invalidation of a job with ALL. Beside one in progress it is no write to INVAL_CMD, so that it is not ignored: that one ends
when both are done, and is counted twice (R188; log entry 119). -/
def State.invalAll (s : State) (job : Nat) : State :=
  match s.inval with
  | none => s.beginInval job true 0 0 none
  | some x =>
    { s with slices := s.slices.filter fun e => e.job ≠ job,
             inval := some { x with users := x.users ++ s.translated job fun _ => true, more := x.more + 1 } }

/-- A job is not valid any more: everything cached for it goes (R188). -/
def State.dropJob (s : State) (job : Nat) : State := (s.put (Reg.XLAT.JOB_VALID job) 0).invalAll job

/-! ### Generator states (R89) -/

/-- A write to a lane generator's state: Sill firmware's, at once or when the core has no instruction in flight; a host's
is ignored and recorded when it would change the state (R89, R550). The key is the lane, plus 256 or 512 for a write of the low or
the high half alone. -/
def State.writeLane (s : State) (n key v : Nat) (sill : Bool) : State :=
  let f := Reg.CORE.LANE_STATE n (key % 256)
  let new := heldState (s.get f) key v
  if !s.present n then s
  else if !sill then
    if s.get f = new then s else s.hostRefused f.off (if key / 256 = 2 then v * 2 ^ 32 else v)
  else if (s.core n).window.isEmpty then s.put f (genLoad new)
  else s.setCore n { s.core n with heldGen := (s.core n).heldGen ++ [(key, BitVec.ofNat 64 v)] }

/-- The key of a write to a lane of the bits m of its state. -/
def laneKey (l m : Nat) : Nat := if m = 2 ^ 64 - 1 then l else if m % 2 ^ 32 ≠ 0 then l + 256 else l + 512

/-- The value that such a write carries for the bits it covers. -/
def laneValue (x m : Nat) : Nat := if m % 2 ^ 32 ≠ 0 then x else x / 2 ^ 32

/-- GENERATOR_STATE_WRITE. -/
def execGeneratorStateWrite (c : CoreIx) (lane : Fin 256) (value : BitVec 64) (sill : Bool) (s : State) : Out :=
  whenBar s sill fun s => s.writeLane c.val lane.val value.toNat sill

/-! ### RING0 and ALARM_CTL (R457, R525) -/

/-- LOG2_SIZE of ring 0: other values act as 6 (R470). -/
def ring0Log2 (n : Nat) : Nat := if 6 ≤ n ∧ n ≤ 16 then n else 6

/-- The context of ring 0 as its registers give it when it is enabled (R456). -/
def State.ring0 (s : State) : Ring :=
  { id := 0, log2 := ring0Log2 (s.get Reg.GEN.RING0_LOG2_SIZE), cls := 0, job := 0,
    vec := s.get Reg.GEN.RING0_VEC, irq := s.get Reg.GEN.RING0_IRQ,
    sqBase := s.get Reg.GEN.RING0_SQ_BASE * 64, cqBase := s.get Reg.GEN.RING0_CQ_BASE * 32,
    sqHead := 0, sqTail := 0, cqTail := 0, cqHead := 0, cqUsed := 0, phase := true, stopped := false,
    inProgress := 0, bells := [], entry := none, reading := false, destroying := none }

/-- Change the ring of a number. -/
def State.mapRing (s : State) (id : Nat) (f : Ring → Ring) : State :=
  { s with host := { s.host with rings := mapIf (fun r => r.id == id) f s.host.rings } }

/-- A ring picks up no further entries (R457). -/
def Ring.stop (r : Ring) : Ring := { r with stopped := true, bells := [], entry := none, reading := false }

/-- A write to RING0_CTL: it enables ring 0 with indices at 0; while ring 0 is enabled only a write that clears EN acts,
and stops its pickup (R457). -/
def State.ring0Ctl (s : State) (v : Nat) : State :=
  if s.get Reg.GEN.RING0_EN = 1 then
    if bitOf v 63 then s else (s.put Reg.GEN.RING0_EN 0).mapRing 0 Ring.stop
  else
    let s := s.puts [(Reg.GEN.RING0_EN, bitsOf v 63 63), (Reg.GEN.RING0_VEC, bitsOf v 23 16),
      (Reg.GEN.RING0_IRQ, bitsOf v 15 14), (Reg.GEN.RING0_LOG2_SIZE, bitsOf v 4 0)]
    if bitOf v 63 then
      { s with host := { s.host with rings := s.ring0 :: s.host.rings.filter (fun r => r.id ≠ 0) } }
    else s

/-- RING0_CTL_WRITE. -/
def execRing0CtlWrite (value : BitVec 64) (s : State) : Out := whenBar s false fun s => s.ring0Ctl value.toNat

/-- The floor of a tamper sensor's level (R521). -/
def alarmFloor (k : Nat) : Nat := if k ≤ 1 then 3 else if k ≤ 4 then 1 else 2

/-- A level field with every sensor at its floor or above (R521, R525). -/
def clampLevels (v : Nat) : Nat :=
  ((List.range 8).map fun k => max (alarmFloor k) (v / 4 ^ k % 4) * 4 ^ k).sum

/-! ### Register writes (R8, R9, R27, R453, R550) -/

/-- The bits of a 64-bit value and of a mask that fall on a field. -/
def Fld.part (f : Fld) (v : Nat) : Nat := v / 2 ^ f.lo % 2 ^ f.w

/-- The bits of a field that a write covers, replaced. -/
def merged (old v m : Nat) : Nat := (old - (old &&& m)) ||| (v &&& m)

/-- A host write would change a field that Sill firmware alone writes (R550). -/
def State.wouldChange (s : State) (v m : Nat) (f : Fld) : Bool :=
  let x := f.part v
  let k := f.part m
  f.sill && (match f.acc with
    | .rw => merged (s.view f) x k != s.view f
    | .w1c => (x &&& k) != 0
    | .w1s => (x &&& k) != 0
    | .wo => (x &&& k) != 0
    | .ro => false
    | .rc => false)

/-- One field takes a write under its access code (R9, R550). -/
def State.writeField (s : State) (v m : Nat) (sill : Bool) (f : Fld) : State :=
  let x := f.part v
  let k := f.part m
  if f.sill ∧ !sill then s
  else match f.acc with
    | .rw => s.put f (merged (s.get f) x k)
    | .w1c => s.put f (s.get f - (s.get f &&& (x &&& k)))
    | .w1s => s.put f (s.get f ||| (x &&& k))
    | .wo => s
    | .ro => s
    | .rc => s

/-- The set point that a value of PWR.UNCORE.SET_MV stands for (R30). -/
def uncoreMv (v : Nat) : Nat := max 680 (min 750 v) / 5 * 5

/-- The uncore rail sets out at 25 mV/µs for the set point that SET_MV now holds (R56, R498); in the FE state it is held (R428). -/
def State.moveUncore (s : State) : State :=
  let ramps := assocPut 8 (s.railNow 8 s.pwr.uncoreMv, s.now) s.pwr.ramps
  if s.fe then s else
  { s with pwr := { s.pwr with uncoreMv := uncoreMv (s.get Reg.PWR.SET_MV), ramps := ramps } }

/-- The effects of a write by Sill firmware to the fields that do something when written. The requests of one GARNET_FENCE write
act as FENCE, then UNFENCE, then RETIRE, on which the manual is silent (R105; log entry 108). -/
def State.sillAct (s : State) (r v m : Nat) : State :=
  let x := v &&& m
  if 0x100000 ≤ r ∧ r < 0x200000 ∧ (r - 0x100000) % 0x20000 = 0x4008 then
    let n := (r - 0x100000) / 0x20000
    ((s.fenceWrite n .test (bitsOf x 7 0)).fenceWrite n .unfence (bitsOf x 15 8)).fenceWrite n .retire (bitsOf x 23 16)
  else if r = Reg.XLAT.INVAL_JOB.off then s.invalCmd (bitsOf x 5 0) (bitOf x 6)
  else if 0x3B1000 ≤ r ∧ r < 0x3B1400 ∧ r % 16 = 0 ∧ s.get (Reg.XLAT.JOB_VALID ((r - 0x3B1000) / 16)) = 0 then
    s.dropJob ((r - 0x3B1000) / 16)
  else if r = Reg.EXPERT.CANCEL_GEN.off then (s.cancelGen (bitsOf x 15 0)).seat
  else if 0x340000 ≤ r ∧ r < 0x380000 ∧ (r - 0x340000) % 0x4000 = 0x20 then
    if bitOf x 2 then s.askCalibration ((r - 0x340000) / 0x4000) else s
  else if 0x340000 ≤ r ∧ r < 0x380000 ∧ (r - 0x340000) % 0x4000 = 8 then
    s.selectFeed ((r - 0x340000) / 0x4000) (bitsOf x 17 16)
  else if r = Reg.PWR.SET_MV.off then s.moveUncore
  else s

/-- The mover whose block holds an offset, and the offset in the block (R281). -/
def moverAt (r : Nat) : Option (Nat × Nat) :=
  if 0x8000 ≤ r ∧ r < 0x8800 then some (8, r - 0x8000)
  else if 0x3A8000 ≤ r ∧ r < 0x3A8800 then some (9, r - 0x3A8000)
  else if 0x100000 ≤ r ∧ r < 0x200000 ∧ 0x6000 ≤ (r - 0x100000) % 0x20000 ∧ (r - 0x100000) % 0x20000 < 0x6800 then
    some ((r - 0x100000) / 0x20000, (r - 0x100000) % 0x20000 - 0x6000)
  else none

/-- A write to a register whose write is an operation of its own; none for a register that has none. -/
def State.writeSpecial (s : State) (r v m : Nat) (sill : Bool) : Option State :=
  let x := v &&& m
  let full := merged (s.readWord r) v m
  if 0x80800 ≤ r ∧ r < 0x81000 then some (s.hostLatches ((r - 0x80800) / 8) x true)
  else if 0x81000 ≤ r ∧ r < 0x81800 then some (s.hostLatches ((r - 0x81000) / 8) x false)
  else if 0xA0000 ≤ r ∧ r < 0xA8000 ∧ r % 16 = 0 then some (s.barrierCfg ((r - 0xA0000) / 16) full)
  else if r = Reg.BARRIER.ARRIVE_COUNTER.off then some (s.sendArrival 8 (bitsOf x 10 0) 0)
  else if 0x90000 ≤ r ∧ r < 0x90100 then some (s.mcastWrite ((r - 0x90000) / 8) full sill)
  else if r = Reg.GEN.RING0_EN.off then some (s.ring0Ctl full)
  else if (r = Reg.GEN.RING0_SQ_BASE.off ∨ r = Reg.GEN.RING0_CQ_BASE.off) ∧ s.get Reg.GEN.RING0_EN = 1 then some s
  else if r = Reg.SEC.ALARM_CTL_LEVEL.off then
    if s.get Reg.SEC.ALARM_CTL_LOCK = 1 then some s
    else some (s.puts [(Reg.SEC.ALARM_CTL_LEVEL, clampLevels (bitsOf full 15 0)),
      (Reg.SEC.ALARM_CTL_LOCK, s.get Reg.SEC.ALARM_CTL_LOCK ||| bitsOf x 63 63)])
  else if 0x100000 ≤ r ∧ r < 0x200000 ∧ 0x1E000 ≤ (r - 0x100000) % 0x20000 ∧ (r - 0x100000) % 0x20000 < 0x1E800 then
    some (s.writeLane ((r - 0x100000) / 0x20000) (laneKey (((r - 0x100000) % 0x20000 - 0x1E000) / 8) m) (laneValue x m) sill)
  else match moverAt r with
    | some (k, o) =>
      if o = 0x50 then some (s.reqRaise k x)
      else if 0x10 ≤ o ∧ o < 0x50 then some (s.ctxDataWrite k ((o - 0x10) / 8) full sill)
      else none
    | none => none

/-- The register stands in a block of a core that is absent, where writes do nothing (R2). -/
def State.absentAt (s : State) (r : Nat) : Bool :=
  decide (0x100000 ≤ r) && decide (r < 0x200000) && !s.present ((r - 0x100000) / 0x20000)

/-- An MSI-X vector that is pending is sent when its entry is unmasked (R465). -/
def State.unmasked (s : State) (r : Nat) : State :=
  let v := (r - 0x2000) / 16
  if 0x2000 ≤ r ∧ r < 0x3000 ∧ r % 16 = 8 ∧ s.get (Reg.GEN.MSIX_MASK v) = 0 ∧ s.get (Reg.GEN.MSIX_PENDING v) = 1 then
    (s.put (Reg.GEN.MSIX_PENDING v) 0).sendVec v
  else s

/-- A write to a window's cap or to its hot-channel control may make a channel hot, or end that (R256, R262). -/
def State.capWritten (s : State) (r : Nat) : State :=
  let w := (r - 0x200000) / 0x4000
  if 0x200000 ≤ r ∧ r < 0x280000 ∧ (r = (Reg.WIN.CHAN_CAP w).off ∨ r = (Reg.WIN.HOT_THRESH w).off) then s.noteHot w else s

/-- A write of the bits m of a 64-bit register, field by field: recorded once when a host's would have changed a field
reserved to Sill firmware (R550). -/
def State.writeWord (s : State) (r v m : Nat) (sill : Bool) : State :=
  if s.absentAt r then s
  else match s.writeSpecial r v m sill with
    | some s => s
    | none =>
      let fs := Reg.fieldsAt r
      let s' := if !sill ∧ fs.any (s.wouldChange v m) then s.hostRefused r (v &&& m) else s
      let s' := ((fs.foldl (fun s f => s.writeField v m sill f) s').unmasked r).capWritten r
      if sill then s'.sillAct r v m else s'

/-- An access of software is aligned and of 4 or 8 bytes (R453). -/
def goodAccess (off size : Nat) : Bool := (size == 4 || size == 8) && off % size == 0

/-- A register write by software: BAR0 refuses other sizes (R453). -/
def State.regWrite (s : State) (off size v : Nat) (sill : Bool) : State :=
  if !goodAccess off size then s.inc Reg.GEN.BAR_ERR 1
  else s.writeWord (off / 8 * 8) (v % 2 ^ (8 * size) * 2 ^ (8 * (off % 8))) (coverMask off size) sill

end Sys2Proof.Machine
end

