-- ==== Sys2Proof/Machine/HostIf.lean ====
section
/-!
DEFINITION. Machine/HostIf.lean: the port (chapter 17): rings, doorbells, the pickup of entries, completions, host memory
reads, BAR accesses, resets of the host interface, and the packets by which a member reports to its lead (R411, R467,
R505).
-/

namespace Sys2Proof.Machine

/-! ### The table of commands (R478) -/

/-- A command as the table gives it: opcode, class, and the bytes of the entry that its parameters name, as offset, number
of bytes, and mask of the bits that are used. -/
structure CmdRow where
  op : Nat
  cls : Nat
  params : List (Nat × Nat × Nat)
deriving DecidableEq, Repr

/-- n whole bytes at an offset. -/
def pb (off n : Nat) : Nat × Nat × Nat := (off, n, 2 ^ (8 * n) - 1)

/-- One bit at an offset. -/
def pbit (off : Nat) : Nat × Nat × Nat := (off, 1, 1)

/-- The commands of class 0. -/
def cmdRows0 : List CmdRow :=
  [⟨0x0001, 0, []⟩, ⟨0x0002, 0, [pb 16 8, pb 24 8, pb 32 2]⟩, ⟨0x0003, 0, [pb 16 4]⟩,
   ⟨0x0004, 0, [pb 16 1, pb 18 2, pb 20 2]⟩, ⟨0x0005, 0, [pb 16 1, pbit 17]⟩, ⟨0x0006, 0, []⟩,
   ⟨0x0007, 0, [pb 16 2, pb 18 1]⟩, ⟨0x0008, 0, []⟩]

/-- The commands of class 1, up to those of channels. -/
def cmdRows1 : List CmdRow :=
  [⟨0x0100, 1, [pb 16 8, pb 24 1]⟩,
   ⟨0x0101, 1, [pb 16 2, pb 18 1, pb 19 1, pb 20 1, pb 21 1, pb 24 8, pb 32 8]⟩, ⟨0x0102, 1, [pb 16 2]⟩,
   ⟨0x0103, 1, [pb 16 8, pb 24 1, pb 25 1, pbit 26]⟩, ⟨0x0104, 1, [pb 16 8, pb 24 8, pb 32 8]⟩,
   ⟨0x0110, 1, [pb 16 8]⟩, ⟨0x0111, 1, []⟩, ⟨0x0112, 1, [pb 16 8, pb 24 6, pb 30 1, pb 32 4]⟩,
   ⟨0x0113, 1, [pb 16 8, pb 32 4]⟩, ⟨0x0114, 1, [pb 16 8, pb 30 1, pb 32 4]⟩, ⟨0x0115, 1, [pb 16 8, pb 24 4]⟩,
   ⟨0x0116, 1, [pb 16 1, pb 18 2, pb 24 8, pbit 32]⟩]

/-- The other commands of class 1. -/
def cmdRows1b : List CmdRow :=
  [⟨0x0117, 1, [pb 16 8, pb 24 1]⟩, ⟨0x0118, 1, [pb 16 8]⟩, ⟨0x0119, 1, [pb 16 2]⟩, ⟨0x011A, 1, []⟩,
   ⟨0x011B, 1, [pb 16 2, pb 18 1, pb 19 1, pb 20 2, pbit 22, pb 24 2]⟩, ⟨0x011C, 1, [pb 16 1, pbit 17, pb 24 8]⟩,
   ⟨0x011D, 1, [pb 16 4, pb 24 8, pb 32 8]⟩, ⟨0x011E, 1, [pb 16 1, pb 24 8]⟩, ⟨0x011F, 1, [pb 16 1, pb 24 8]⟩]

/-- The commands of classes 2 and 3. -/
def cmdRows23 : List CmdRow :=
  [⟨0x0200, 2, [pb 16 1, pb 18 2, pb 20 2, pb 24 8]⟩, ⟨0x0201, 2, [pb 16 1, pb 24 8, pb 32 8, pb 40 8]⟩,
   ⟨0x0202, 2, [pb 16 4, pb 24 8, pb 32 8, pb 40 8]⟩, ⟨0x0203, 2, [pb 16 4, pb 20 1, pb 24 8, pb 32 8]⟩,
   ⟨0x0204, 2, [pb 16 2]⟩, ⟨0x0300, 3, [pb 16 1, pb 17 1, pb 18 1, pb 20 4]⟩, ⟨0x0301, 3, [pb 16 2]⟩,
   ⟨0x0302, 3, [pb 16 1, pb 17 1, pb 18 1]⟩, ⟨0x0303, 3, [pb 16 32, pb 48 8]⟩, ⟨0x0304, 3, [pb 16 8, pb 24 4]⟩]

/-- The commands of the table, and no others. -/
def cmdRows : List CmdRow := cmdRows0 ++ cmdRows1 ++ cmdRows1b ++ cmdRows23

/-- The row of an opcode. -/
def cmdRow (op : Nat) : Option CmdRow := cmdRows.find? fun r => r.op == op

/-- A field of an entry. -/
def field (e : Bytes) (off n : Nat) : Nat := natOf (slice off n e)

/-- The header of an entry keeps its reserved bits zero (R457). -/
def headerOk (e : Bytes) : Bool :=
  decide (field e 2 1 < 4) && field e 3 1 == 0 && !bitOf (field e 8 1) 6 && decide (field e 9 1 < 64) && field e 10 6 == 0

/-- The parameter bytes that a command does not name are zero (R478). -/
def paramsOk (r : CmdRow) (e : Bytes) : Bool :=
  let used := (r.params.map fun p => p.2.2 * 2 ^ (8 * (p.1 - 16))).sum
  let v := field e 16 48
  v &&& used == v

/-- The transport status of an entry on a ring, 0 where its command starts (R456, R460). Ring 0 carries the commands of
every class. -/
def entryStatus (x : Ring) (e : Bytes) : Nat :=
  if !headerOk e then stBADENTRY
  else match cmdRow (field e 0 2) with
    | none => stUNKNOWN
    | some r =>
      if !paramsOk r e then stBADENTRY
      else if x.id ≠ 0 ∧ r.cls ≠ x.cls then stWRONGCLASS
      else if x.job ≠ 0 ∧ field e 9 1 % 64 ≠ x.job then stNOTJOB
      else stSUCCESS

/-! ### Rings and doorbells (R456 to R458, R461) -/

/-- The entries of a ring's queues. -/
def Ring.size (x : Ring) : Nat := 2 ^ x.log2

/-- The ring of a number. -/
def State.ring? (s : State) (id : Nat) : Option Ring := s.host.rings.find? fun r => r.id == id

/-- Issue one read of host memory (R461, R497). -/
def State.hostRead (s : State) (addr len : Nat) (use : HostUse) : State :=
  { s with host := { s.host with reads := s.host.reads ++ [⟨s.host.nextRead, addr, len, use⟩],
                                 nextRead := s.host.nextRead + 1 } }

/-- Read the entry at a ring's head when one is new and none is read (R458, R459). -/
def State.wantEntry (s : State) (id : Nat) : State :=
  match s.ring? id with
  | none => s
  | some x =>
    if x.stopped ∨ x.reading ∨ x.entry.isSome ∨ x.sqHead = x.sqTail then s
    else
      let mark := fun (y : Ring) => { y with reading := true }
      (s.mapRing id mark).hostRead (x.sqBase + 64 * x.sqHead) 64 (.entry id false)

/-- A ring that takes doorbells: an enabled one, or a stopped one with completions to come (R451, R457, R458). -/
def Ring.rings (x : Ring) : Bool := !x.stopped || x.inProgress != 0

/-- A doorbell that is ignored is counted (R458). -/
def State.badBell (s : State) (id : Nat) : State := (s.inc Reg.GEN.DB_ERR 1).put Reg.GEN.DB_ERR_LAST id

/-- A doorbell write whose index is good acts on its ring; a member ignores and counts it (R458, R468). -/
def State.bell (s : State) (id v : Nat) (act : State → Ring → State) : State :=
  if s.host.d3hot then s
  else if s.isMember then s.inc Reg.GEN.DB_IGNORED 1
  else match s.ring? id with
    | none => s.badBell id
    | some x => if x.rings ∧ v < x.size then act s x else s.badBell id

/-- SQ_TAIL: the entries from the head up to the tail are new (R458, R463). -/
def State.newTail (s : State) (x : Ring) (v : Nat) : State :=
  let n := (v + x.size - x.sqTail) % x.size
  let grow := fun (y : Ring) => if y.stopped then y else { y with sqTail := v, bells := y.bells ++ List.replicate n s.now }
  (s.mapRing x.id grow).wantEntry x.id

/-- DOORBELL_SQ_TAIL. -/
def execDoorbellSqTail (ring : BitVec 16) (value : BitVec 64) (s : State) : Out :=
  whenLive s fun s => s.bell ring.toNat value.toNat fun s x => s.newTail x value.toNat

/-- CQ_HEAD: the completion entries before the new head are free; the head of a full queue, written again, frees all of
it (R458, R460). -/
def State.newHead (s : State) (x : Ring) (v : Nat) : State :=
  let adv := (v + x.size - x.cqHead) % x.size
  let n := if adv = 0 ∧ x.cqUsed = x.size then x.size else adv
  s.mapRing x.id fun y => { y with cqHead := v, cqUsed := y.cqUsed - n }

/-- DOORBELL_CQ_HEAD. -/
def execDoorbellCqHead (ring : BitVec 16) (value : BitVec 64) (s : State) : Out :=
  whenLive s fun s => s.bell ring.toNat value.toNat fun s x => s.newHead x value.toNat

/-! ### The pickup of entries (R459, R462, R463) -/

/-- The entry at a ring's head can be picked up: an entry with FENCE waits for every earlier one. -/
def Ring.ready (x : Ring) : Bool :=
  !x.stopped && match x.entry with
    | none => false
    | some e => !(bitOf (field e 2 1) 1) || x.inProgress == 0

/-- The lowest ring above the one served last, or the lowest. -/
def nextRing (last : Nat) (ids : List Nat) : Option Nat :=
  match (ids.filter fun i => decide (last < i)).min? with
  | some i => some i
  | none => ids.min?

/-- The ring of one class whose entry is next (R462). -/
def State.classRing (s : State) (c : Nat) : Option Nat :=
  let ids := (s.host.rings.filter fun r => r.cls == c && r.ready).map Ring.id
  match s.host.lastRing.find? (fun e => e.1 == c) with
  | some e => nextRing e.2 ids
  | none => ids.min?

/-- The class and ring to serve: class 0 first, classes 1 to 3 in rotation (R462). -/
def State.serveNext (s : State) : Option (Nat × Nat) :=
  [0, s.host.lastClass % 3 + 1, (s.host.lastClass + 1) % 3 + 1, (s.host.lastClass + 2) % 3 + 1].findSome? fun c =>
    (s.classRing c).map fun r => (c, r)

/-- The bound from doorbell to pickup on the lead (R463). -/
def pickupBound : Nat := 20000

/-- The bound from doorbell to completion (R463). -/
def class0Bound : Nat := 1000000

/-- Count a class-0 pickup's time (R463). -/
def State.notePickup (s : State) (since : Nat) : State :=
  let s := s.peak Reg.GEN.CLASS0_MAX_NS (s.now - since)
  if since + pickupBound < s.now then s.inc Reg.GEN.CLASS0_OVER 1 else s

/-- Sill firmware picks up the entry at a ring's head: a command in progress, or a completion at once (R459, R460). -/
def State.pickUp (s : State) (x : Ring) (e : Bytes) : State :=
  let head := (x.sqHead + 1) % x.size
  let since := x.bells.headD s.now
  let cls := ((cmdRow (field e 0 2)).map CmdRow.cls).getD x.cls
  let h : Handler := ⟨x.id, field e 4 4, field e 0 2, cls, bitOf (field e 2 1) 0, head, since,
    cls == 0 && decide (since + pickupBound < s.now), false⟩
  let s := if cls = 0 then s.notePickup since else s
  let take := fun (y : Ring) => { y with sqHead := head, bells := y.bells.drop 1, entry := none, inProgress := y.inProgress + 1 }
  let s := s.mapRing x.id take
  let c := if x.cls = 0 then s.host.lastClass else x.cls
  let s := { s with host := { s.host with handlers := s.host.handlers ++ [h], lastClass := c,
                                          lastRing := assocPut x.cls x.id s.host.lastRing } }
  let st := entryStatus x e
  let s := if st = stSUCCESS then s
    else { s with host := { s.host with due := s.host.due ++ [⟨x.id, field e 4 4, st, 0, 0, s.dev, bitOf (field e 2 1) 0⟩] } }
  s.wantEntry x.id

/-- The next entry by class priority, once Sill firmware accepts rings, unless it has failed (R428, R462, R470). -/
def State.entryPickup (s : State) : State :=
  if s.get Reg.GEN.READY = 0 ∨ s.host.sillDown then s
  else match s.serveNext with
    | none => s
    | some (_, id) => match s.ring? id with
      | none => s
      | some x => match x.entry with
        | none => s
        | some e => s.pickUp x e

/-- ENTRY_PICKUP. -/
def execEntryPickup (s : State) : Out := whenLive s State.entryPickup

/-! ### Completions (R451, R459, R460, R463, R481) -/

/-- The ring is destroyed once nothing of it is in progress, and the command that destroys it completes (R481). -/
def State.endRing (s : State) (id : Nat) : State :=
  match s.ring? id with
  | none => s
  | some x => match x.destroying with
    | none => s
    | some r =>
      if x.inProgress = 0 then
        ({ s with host := { s.host with rings := s.host.rings.filter fun y => y.id ≠ id } } : State).finish r stSUCCESS 0 0
      else s

/-- A command has completed: its handler goes, and a class-0 command beyond its bound is counted (R463). -/
def State.endHandler (s : State) (c : Completion) : State :=
  let mine := fun (h : Handler) => h.ring == c.ring && h.cmdId == c.cmdId
  match splitFirst mine s.host.handlers with
  | none => s
  | some (a, h, b) =>
    let s := { s with host := { s.host with handlers := a ++ b } }
    if h.cls = 0 ∧ !h.late ∧ h.bellAt + class0Bound < s.now then s.inc Reg.GEN.CLASS0_OVER 1 else s

/-- The submission head after the pickup of a completion's entry. -/
def State.headOf (s : State) (c : Completion) (x : Ring) : Nat :=
  match s.host.handlers.find? (fun h => h.ring == c.ring && h.cmdId == c.cmdId) with
  | some h => h.sqHead
  | none => x.sqHead

/-- Write one completion entry and send the ring's vector (R459, R460, R465). -/
def State.writeCpl (s : State) (x : Ring) (c : Completion) : State :=
  let s' := s.hostPost (x.cqBase + 32 * x.cqTail)
    (completionBytes c.cmdId c.status (s.headOf c x) c.ring c.device c.result0 c.result1 x.phase)
  let wraps := x.cqTail + 1 = x.size
  let step := fun (y : Ring) => { y with cqTail := if wraps then 0 else y.cqTail + 1,
                                         phase := if wraps then !y.phase else y.phase, cqUsed := y.cqUsed + 1 }
  let s' := s'.mapRing x.id step
  if x.irq = 1 ∨ (x.irq = 2 ∧ c.irq) then s'.sendVec x.vec else s'

/-- The next completion of a ring is written, held while the queue is full, or dropped while the link is down. -/
def State.completeOn (s : State) (id : Nat) : State :=
  match splitFirst (fun (c : Completion) => c.ring == id) s.host.due with
  | none => s
  | some (a, c, b) =>
    match s.ring? id with
    | none => { s with host := { s.host with due := a ++ b } }
    | some x =>
      let down := s.get Reg.GEN.LINK_UP = 0
      if !down ∧ x.size ≤ x.cqUsed then s
      else
        let s := { s with host := { s.host with due := a ++ b } }
        let s := if down then s.inc Reg.GEN.CPL_DROP 1 else s.writeCpl x c
        let one := fun (y : Ring) => { y with inProgress := y.inProgress - 1 }
        ((s.endHandler c).mapRing id one).endRing id

/-- COMPLETION_WRITE. -/
def execCompletionWrite (ring : BitVec 16) (s : State) : Out := whenLive s fun s => s.completeOn ring.toNat

/-! ### Reads of host memory that come back (R276, R279, R461, R475, R497) -/

/-- The codes that a DE record of the host interface can bear: the fault codes of instructions, and HOST_WRITE (R225, R406). -/
def hostCodes : List Nat := (List.range 14).map (· + 1) ++ [0x2E]

/-- The read of an entry failed twice: its ring stops, and a record is written; which of the codes it bears the manual does not
say (R461; log entry 46). -/
def State.entryFailed (s : State) (id : Nat) : State :=
  ((s.mapRing id Ring.stop).addRec (mkRec 0x401 0x14 1 0 (hostCodes.getD (Config.openValue 46 s.freeCtr % 15) 0x2E) 0)).draw

/-- An entry's read comes back: it waits for its pickup, is read once more, or stops the ring. -/
def State.gotEntry (s : State) (r : HostRead) (id : Nat) (retried : Bool) (data : Bytes) (good : Bool) : State :=
  match s.ring? id with
  | none => s
  | some x =>
    if !x.reading then s
    else if good then
      s.mapRing id fun y => { y with reading := false, entry := some (slice 0 64 data) }
    else if retried then s.entryFailed id
    else s.hostRead r.addr r.len (.entry id true)

/-- Mover data comes back: with poison where the completion is poisoned, or failed (R279). -/
def State.gotBurst (s : State) (m ch n pa : Nat) (data : Bytes) (poison : Bool) : State :=
  match s.run? m ch with
  | none => s
  | some r =>
    (if r.burstNo = n ∧ r.flushed then s.ackRun m ch else s.deliverPiece m ch n pa (slice 0 64 data) poison).settleMover m

/-- The reads of HOST_COPYs go out while mover 8 has fewer than 65,536 sector reads outstanding (R264): k of them at most. -/
def State.feedCopies : Nat → State → State
  | 0, s => s
  | k + 1, s =>
    match s.host.copies.find? (fun c => !c.todo.isEmpty) with
    | none => s
    | some c =>
      match c.todo with
      | [] => s
      | (addr, va, len) :: rest =>
        if 65536 < s.outstanding 8 + ceilDiv len 64 then s
        else
          let next := fun (x : HostCopy) => { x with todo := rest }
          let s := { s with host := { s.host with copies := mapIf (fun x => x.n == c.n) next s.host.copies } }
          State.feedCopies k (((s.inc (Reg.MOVER.READ_BYTES 8) len).inc (Reg.MOVER.WRITE_BYTES 8) len).hostRead addr len
            (.copy c.n va false))

/-- A HOST_COPY has one read less to wait for; units are those that the read's data has reached. -/
def State.copyPart (s : State) (n status : Nat) (units : List Nat) : State :=
  match s.host.copies.find? (fun c => c.n == n) with
  | none => s
  | some c =>
    let st := if c.status = 0 then status else c.status
    if c.left ≤ 1 then
      ({ s with host := { s.host with copies := s.host.copies.filter fun x => x.n ≠ n } } : State).finish c.r st 0 0
    else
      let one := fun (x : HostCopy) =>
        { x with left := x.left - 1, status := st, pages := units.foldl (fun l u => setInsert u l) x.pages }
      { s with host := { s.host with copies := mapIf (fun x => x.n == n) one s.host.copies } }


/-- A HOST_COPY that goes on finds that its job is not valid any more: it stops with BUSY, its reads that are out are discarded,
and RESULT1 [31:8] counts the pages that it has written in (R474; log entry 109). -/
def State.copyStops (s : State) (c : HostCopy) : State :=
  let mine := fun (h : HostRead) => match h.use with
    | .copy n _ _ => n == c.n
    | _ => false
  ({ s with host := { s.host with
      copies := s.host.copies.filter (fun x => x.n ≠ c.n),
      reads := mapIf mine (fun h => { h with use := .dropped 8 }) s.host.reads } } : State).finish c.r stBUSY 0
    (c.pages.length * 256)

/-- Data of a HOST_COPY comes back and is written; poisoned data is written with its mark. The handler goes on with it, and so
checks its preconditions again (R279, R474, R475, R497). -/
def State.gotCopy (s : State) (r : HostRead) (n va : Nat) (retried : Bool) (data : Bytes) (res : CplResult) : State :=
  match s.host.copies.find? (fun c => c.n == n) with
  | none => s
  | some c =>
    if s.get (Reg.XLAT.JOB_VALID c.r.job.toNat) = 0 then s.copyStops c
    else if res = .error then
      if retried then s.copyPart n 0x19 [] else s.hostRead r.addr r.len (.copy n va true)
    else
      let job := c.r.job.toNat
      let s := if res = .poisoned then s.inc (Reg.MOVER.MOVER_POISON 8) (ceilDiv r.len 64) else s
      match s.writeVa 0x401 job va (slice 0 r.len data) (res = .poisoned) with
      | (s, .done) => s.copyPart n stSUCCESS (unitsOf va r.len)
      | (s, .bad _ re _) => (s.walkKill job 0x401 re).copyPart n stADDRESS []
      | (s, .poison v) => ((s.countKill job).unitConsume job 0x401 0x14 v).copyPart n stPOISON []

/-- What the unit behind a read of host memory makes of its end. -/
def State.readBack (s : State) (r : HostRead) (data : Bytes) (res : CplResult) : State :=
  match r.use with
  | .entry ring retried => s.gotEntry r ring retried data (res = .good)
  | .burst m ch n pa => s.gotBurst m ch n pa data (res != .good)
  | .copy n va retried => State.feedCopies (ceilDiv r.len 64) (s.gotCopy r n va retried data res)
  | .dropped m => State.feedCopies (ceilDiv r.len 64) (s.settleMover m)

/-- A read of host memory ends; of those that the device has asked for, the first 1,024 are on the link, and the others wait for
their tags (R449). -/
def State.readEnds (s : State) (id : Nat) (data : Bytes) (res : CplResult) : State :=
  match splitFirst (fun (r : HostRead) => r.id == id) s.host.reads with
  | none => s
  | some (a, r, b) =>
    if 1024 ≤ a.length then s
    else
      let s := { s with host := { s.host with reads := a ++ b } }
      s.readBack r data res

/-- PCIE_READ_COMPLETION. -/
def execPcieReadCompletion (id : Nat) (data : Bytes) (result : CplResult) (s : State) : Out :=
  whenLive s fun s => (if result = .poisoned then s.noteAer 12 else s).readEnds id data result

/-- COMPLETION_TIMEOUT: no completion came in time. -/
def execCompletionTimeout (id : Nat) (s : State) : Out := whenLive s fun s => (s.noteAer 14).readEnds id [] .error

/-! ### BAR0 (R452, R453) -/

/-- A completion for a host read: data, and 0 successful, 1 poisoned, 2 completer abort, 3 unsupported. -/
def State.sendCpl (s : State) (data : Bytes) (st : Nat) : State :=
  let s := if st = 2 then s.noteAer 15 else if st = 3 then s.noteAer 20 else s
  { s with host := { s.host with cpl := s.host.cpl ++ [(data, st)] } }

/-- A BAR0 read by the host, which in D3hot the port refuses (R451, R453). -/
def State.barRead (s : State) (off size : Nat) : State :=
  if s.host.d3hot then s.sendCpl [] 3
  else if !goodAccess off size then (s.inc Reg.GEN.BAR_ERR 1).sendCpl [] 3
  else match s.seat.readReg off size with
    | (s, v) => s.sendCpl (bytesOf size v) 0

/-- REGISTER_READ_CLEAR. -/
def execRegisterReadClear (off : BitVec 26) (size : BitVec 4) (s : State) : Out :=
  whenLive s fun s => s.barRead off.toNat size.toNat

/-- REGISTER_WRITE: by the host, or by Sill firmware. -/
def execRegisterWrite (off : BitVec 26) (size : BitVec 4) (value : BitVec 64) (sill : Bool) (s : State) : Out :=
  whenBar s sill fun s => s.regWrite off.toNat size.toNat value.toNat sill

/-! ### BAR4 (R413, R454, R455) -/

/-- The aperture is on. -/
def State.apertureOn (s : State) : Bool := s.get Reg.GEN.BAR4_EN == 1 && s.get Reg.GEN.BAR4_JOB != 0

/-- The virtual address behind an offset. -/
def State.apertureVa (s : State) (off : Nat) : Nat := (s.get Reg.GEN.BAR4_BASE * 2 ^ 21 + off) % 2 ^ 57

/-- Bytes that BAR4 writes have left waiting behind a snapshot show in a later BAR4 read (R435, R455). -/
def State.overHeld (s : State) (pa : Nat) (data : Bytes) : Bytes :=
  let mine := s.snap.heldWrites.filter fun h => h.req.src == 0x401
  mine.foldl (fun d h => d.zipIdx.map fun e =>
    let a := pa + e.2
    if h.req.pa ≤ a then ((h.req.data.getD (a - h.req.pa) none).getD e.1) else e.1) data

/-- Read chunks through the aperture: bytes and poison; or the reason for which one fails translation. -/
def State.readAperture (s : State) (job : Nat) : List (Nat × Nat) → State × (Nat ⊕ (Bytes × Bool))
  | [] => (s, .inr ([], false))
  | (va, n) :: r =>
    match s.xlat 0x401 job va true false with
    | (s, .bad re _) => (s, .inl re)
    | (s, .ok pa _ _) =>
      match s.readPa 0x401 job pa n with
      | (s, b, p) => match State.readAperture s job r with
        | (s, .inr (b', p')) => (s, .inr (s.overHeld pa b ++ b', p || p'))
        | (s, .inl re) => (s, .inl re)

/-- A host read through the aperture; one whose walk meets a poisoned table sector kills its job (R186, R413, R454). -/
def State.bar4Read (s : State) (off len : Nat) : State :=
  if s.host.d3hot then s.sendCpl [] 3
  else if 2 ^ 32 < off + len then s
  else if !s.apertureOn then s.sendCpl [] 2
  else
    let job := s.get Reg.GEN.BAR4_JOB
    match s.readAperture job (sectorsOf (s.apertureVa off) len) with
    | (s, .inl re) => (s.walkKill job 0x401 re).sendCpl [] 2
    | (s, .inr (b, p)) =>
      if p then (s.addRec (mkRec 0x401 0x14 1 job cPOISON (s.apertureVa off))).sendCpl (List.replicate len 0xFF) 1
      else s.sendCpl b 0

/-- BAR4_READ. -/
def execBar4Read (off : BitVec 35) (len : BitVec 13) (s : State) : Out :=
  whenLive s fun s => s.bar4Read off.toNat len.toNat

/-- A host write through the aperture: translated and performed, or dropped. -/
def State.bar4Write (s : State) (off : Nat) (data : Bytes) : State :=
  if 2 ^ 32 < off + data.length ∨ !s.apertureOn then s
  else
    let job := s.get Reg.GEN.BAR4_JOB
    match s.writeVa 0x401 job (s.apertureVa off) data false with
    | (s, .bad _ re _) => s.walkKill job 0x401 re
    | (s, _) => s

/-- BAR4_WRITE. -/
def execBar4Write (off : BitVec 35) (data : Bytes) (s : State) : Out :=
  whenBar s false fun s => s.bar4Write off.toNat data

/-! ### The link and the host interface's resets (R451, R535) -/

/-- PCIE_LINK_UP: speeds 1 to 7 stand for 2.5 to 128 GT/s, widths are 1, 2 or 4 (R470, R471, R535). -/
def execPcieLinkUp (speed width : BitVec 4) (s : State) : Out :=
  whenLive s fun s =>
    if 1 ≤ speed.toNat ∧ speed.toNat ≤ 7 ∧ (width = 1 ∨ width = 2 ∨ width = 4) then
      s.puts [(Reg.GEN.LINK_UP, 1), (Reg.GEN.LINK_SPEED, speed.toNat), (Reg.GEN.LINK_WIDTH, width.toNat),
        (Reg.FW.LINK_REDUCED, ofBool (decide (speed.toNat < 7 ∨ width.toNat < 4)))]
    else s

/-- The MSI-X table and pending bits return to their reset values (R451). -/
def State.resetMsix (s : State) : State :=
  (List.range 256).foldl (fun s v => s.puts [(Reg.GEN.MSIX_ADDR v, 0), (Reg.GEN.MSIX_DATA v, 0),
    (Reg.GEN.MSIX_MASK v, 1), (Reg.GEN.MSIX_PENDING v, 0)]) s

/-- What a reset of the host interface resets (R451): nothing of a ring's entries in progress. -/
def State.resetPort (s : State) (down : Bool) : State :=
  let mine := fun (r : HostRead) => match r.use with
    | .entry _ _ => true
    | _ => false
  let s := { s with host := { s.host with rings := s.host.rings.map Ring.stop,
                                          reads := s.host.reads.filter fun r => !mine r, d3hot := false } }
  let s := s.resetMsix.puts [(Reg.GEN.BAR4_EN, 0), (Reg.GEN.BAR4_BASE, 0), (Reg.GEN.BAR4_JOB, 0),
    (Reg.GEN.MEMBER_VEC_EN, 0), (Reg.GEN.MEMBER_VEC_VEC, 0)]
  let s := (List.range 8).foldl (fun s j => s.puts [(Reg.GEN.HLATCH_EN j, 0), (Reg.GEN.HLATCH_VEC j, 0)]) s
  if down then s.put Reg.GEN.LINK_UP 0 else s

/-- PCIE_RESET. -/
def execPcieReset (kind : PcieResetKind) (s : State) : Out :=
  whenLive s fun s => s.resetPort (kind = .linkDown)

/-- D3HOT (R451). -/
def execD3hot (enter : Bool) (s : State) : Out :=
  whenLive s fun s => { s with host := { s.host with d3hot := enter } }

/-! ### A member's packets to its lead (R411, R467, R505) -/

/-- COMPLETION: a member's part of a command, or its command, has completed (R472, R505). -/
def State.gotCompletion (s : State) (h : Hdr) (p : Bytes) : State :=
  if s.isMember then s
  else s.partDone (bitsOf h.addr.toNat 19 4) (field p 0 4) (originOf h) (field p 4 2) (field p 16 8) (field p 24 4)

/-- COMPLETION. -/
def execCompletion (d : DoorIx) (h : Hdr) (p : Bytes) (s : State) : Out :=
  packet d 9 h p (kind4 2) (fun s => s.gotCompletion h p) s

/-- A member's record enters the lead's log, marked as forwarded and sealed again (R405, R411); the first FE record is kept in
FIRST_FE, a member's as the lead's own (R409; log entry 118). -/
def State.gotRecord (s : State) (p : Bytes) : State :=
  if s.isMember then s
  else
    let b := sealRec (slice 0 60 (putAt 15 1 (field p 15 1 ||| 4) (slice 0 64 p)))
    let cls := field p 13 1 / 64
    let s := s.enterLog cls 0x400 b
    if cls = 2 then s.keepFE (field p 0 8) (field p 8 4 % 2 ^ 22) b else s

/-- RECORD. -/
def execRecord (d : DoorIx) (h : Hdr) (p : Bytes) (s : State) : Out :=
  packet d 9 h p (kind4 3) (fun s => s.gotRecord p) s

/-- A job has been killed on another device: it is halted here, and the lead tells every member (R25, R414). -/
def State.gotKill (s : State) (job code : Nat) : State :=
  if job = 0 ∨ s.host.killed.contains job then s
  else
    let s := ({ s with host := { s.host with killed := setInsert job s.host.killed } } : State).stopJob job
    if s.isMember then s else s.sendAll 9 0x400 job 4 (killBytes job code s.now)

/-- KILL. -/
def execKill (d : DoorIx) (h : Hdr) (p : Bytes) (s : State) : Out :=
  packet d 9 h p (kind4 4) (fun s => s.gotKill (field p 0 1 % 64) (field p 1 1)) s

/-- HOST_EDGE: the lead notes the member, and sends MEMBER_VEC's vector when it is enabled (R467). -/
def State.gotEdge (s : State) (d : Nat) : State :=
  if s.isMember then s
  else
    let s := s.put Reg.GEN.MEMBER_EDGE (s.get Reg.GEN.MEMBER_EDGE ||| 2 ^ d)
    if s.get Reg.GEN.MEMBER_VEC_EN = 1 then s.sendVec (s.get Reg.GEN.MEMBER_VEC_VEC) else s

/-- HOST_EDGE. -/
def execHostEdge (d : DoorIx) (h : Hdr) (p : Bytes) (s : State) : Out :=
  packet d 9 h p (kind4 5) (fun s => s.gotEdge (originOf h % 64)) s

/-- EVENT: the lead numbers a member's event and writes it into its ring (R482, R505). -/
def State.gotEvent (s : State) (p : Bytes) : State :=
  if s.isMember then s
  else s.writeEvent (field p 4 1) (field p 5 1) (field p 6 1) (field p 7 1) (field p 8 8) (field p 16 8) (field p 24 4)

/-- EVENT. -/
def execEvent (d : DoorIx) (h : Hdr) (p : Bytes) (s : State) : Out :=
  packet d 9 h p (kind4 6) (fun s => s.gotEvent p) s

end Sys2Proof.Machine
end

