-- ==== Sys2Proof/Machine/Jobs.lean ====
section
/-!
DEFINITION. Machine/Jobs.lean: the job-0 area, jobs, mappings, the owner table and channels (R174, R483 to R486), and the
other commands of Sill firmware that set up the device (R480 to R482, R493, R498).
-/

namespace Sys2Proof.Machine

/-- The source number of Sill firmware, and of the host interface, whose accesses a command's VA makes (R21, R475). -/
def sillSrc : Nat := 0x400
def hostSrc : Nat := 0x401

/-- A job that a command may act on (R475). -/
def jobNamed (r : Req) : Bool := r.job != 0

/-- The job is valid (R175). -/
def State.jobValid (s : State) (job : Nat) : Bool := s.get (Reg.XLAT.JOB_VALID job) == 1

/-- The job-number and validity checks that most commands share (R475, R479). -/
def State.jobFails (s : State) (r : Req) : Option Nat :=
  if !jobNamed r then some stBADPARAM else if !s.jobValid r.job.toNat then some stNOJOB else none

/-- Read a parameter block at a VA of the entry's job (R475): its bytes, or the failing status. -/
def State.readParam (s : State) (r : Req) (va n : Nat) : State × (Nat ⊕ Bytes) :=
  let job := r.job.toNat
  match s.readVa hostSrc job va n with
  | (s, _, _, .bad _ re _) => (s.walkKill job hostSrc re, .inl stADDRESS)
  | (s, b, p, _) => if p then (s.unitConsume job hostSrc 0x14 va, .inl stPOISON) else (s, .inr b)

/-! ### The job-0 area (R483) -/

/-- Lay out the job-0 area at the top of main memory: table pool, snapshot reserve, buddy area. -/
def State.setLayout (s : State) (pool reserve buddy : Nat) : State :=
  let base := s.memTop - (pool + reserve + buddy)
  let s := { s with host := { s.host with poolBase := base, poolSize := pool, reserveSize := reserve, buddySize := buddy,
                                          tables := [] } }
  s.puts [(Reg.SNAP.RESERVE_BASE, base + pool), (Reg.SNAP.RESERVE_SIZE, reserve),
    (Reg.SNAP.BUDDY_BASE, base + pool + reserve), (Reg.SNAP.BUDDY_SIZE, buddy)]

/-- A physical range meets the job-0 area. -/
def State.meetsArea (s : State) (pa n : Nat) : Bool :=
  s.host.poolSize + s.host.reserveSize + s.host.buddySize != 0 && decide (pa < s.memTop) && decide (s.host.poolBase < pa + n)

/-- MEM_LAYOUT. -/
def State.doMemLayout (pool reserve buddy : Nat) (s : State) : State × Answer :=
  if pool % 2 ^ 21 ≠ 0 ∨ reserve % 2 ^ 21 ≠ 0 ∨ buddy % 2 ^ 21 ≠ 0 ∨ s.memTop / 2 < pool + reserve + buddy then
    (s, just stBADPARAM)
  else if ((List.range 64).drop 1).any s.jobValid then (s, just stBUSY)
  else (s.setLayout pool reserve buddy, just stSUCCESS)

/-- MEM_LAYOUT. -/
def execMemLayout (r : Req) (pool reserve buddy : BitVec 64) (s : State) : Out :=
  whenLive s fun s => s.serve r .target false
    (fun d => mkEntry 0x0104 r d [(16, 8, pool.toNat), (24, 8, reserve.toNat), (32, 8, buddy.toNat)])
    (State.doMemLayout pool.toNat reserve.toNat buddy.toNat)

/-! ### Page tables (R177, R178, R483, R484) -/

/-- A write of Sill firmware to main memory, through the host mover's queue (log entry 90). -/
def State.sillWrite (s : State) (pa : Nat) (data : Bytes) : State :=
  s.unitWrite { queue := queueOfSrc sillSrc, src := sillSrc, job := 0, pa := pa, write := true, data := data.map some,
                poison := false, owner := .unit }

/-- Write an entry of a table. -/
def State.putEntry (s : State) (table vpn e : Nat) : State := s.sillWrite (table + 8 * (vpn % 512)) (bytesOf 8 e)

/-- The entry of a table that covers a page number of its level. -/
def State.entryOf (s : State) (table vpn : Nat) : Nat := natOf (s.bytes (table + 8 * (vpn % 512)) 8)

/-- Sill firmware reads the sector of main memory that an address lies in (R14, R17). -/
def State.sillRead (s : State) (pa : Nat) : State :=
  if s.inMain pa ∧ !s.fe then s.unitRead (queueOfSrc sillSrc) sillSrc 0 pa else s

/-- The addresses of the entries on the way from a table to a unit's leaf; n levels are left. -/
def State.pathOf (s : State) (unit : Nat) : Nat → Nat → List Nat
  | 0, _ => []
  | n + 1, table =>
    let vpn := unit / 512 ^ n
    let e := s.entryOf table vpn
    (table + 8 * (vpn % 512)) :: (if bitOf e 0 && !bitOf e 1 then State.pathOf s unit n (entryAddr e) else [])

/-- Sill firmware reads the entries on the ways to some units of a job (R14, R17). -/
def State.readPaths (s : State) (job : Nat) (units : List Nat) : State :=
  units.foldl (fun s u => (s.pathOf u 4 (s.get (Reg.XLAT.JOB_ROOT job) * 4096)).foldl State.sillRead s) s

/-- Sill firmware reads a whole table (R14, R17). -/
def State.readTable (s : State) (pa : Nat) : State := (List.range 64).foldl (fun s i => s.sillRead (pa + 64 * i)) s

/-- Zero a 4 KiB table. -/
def State.zeroTable (s : State) (pa : Nat) : State :=
  (List.range 64).foldl (fun s i => s.sillWrite (pa + 64 * i) (List.replicate 64 0)) s

/-- The lowest free table of the pool; its top 512 KiB hold the exchange slots (chapter 19). -/
def State.freeTable (s : State) : Option Nat :=
  let last := s.host.poolBase + s.host.poolSize - 0x80000
  (((List.range (s.host.tables.length + 1)).map fun k => s.host.poolBase + 4096 * k).filter fun p =>
    decide (p + 4096 ≤ last) && decide (0x80000 ≤ s.host.poolSize)).find? fun p => !(s.host.tables.any fun t => t.1 == p)

/-- Take a table for a job: it holds zeros. -/
def State.takeTable (s : State) (job : Nat) : Option (State × Nat) :=
  s.freeTable.map fun p =>
    (({ s with host := { s.host with tables := s.host.tables ++ [(p, job)] } } : State).zeroTable p, p)

/-- Return a table to the pool. -/
def State.giveTable (s : State) (p : Nat) : State :=
  { s with host := { s.host with tables := s.host.tables.filter fun t => t.1 ≠ p } }

/-- A table entry that points to the next table. -/
def tableLink (p : Nat) : Nat := p + 1

/-- A leaf entry: page address and FLAGS [4:1] (R177, R485). -/
def leafEntry (pa flags : Nat) : Nat := pa + bitsOf flags 4 1 * 4 + 3

/-- An entry is valid, and a leaf. -/
def isValid (e : Nat) : Bool := bitOf e 0
def isLeaf (e : Nat) : Bool := bitOf e 0 && bitOf e 1

/-- Put a leaf for a unit of 2 MiB at a level, making the tables on the way; none where the pool is exhausted. A table that
the leaf replaces returns to the pool. n + 1 levels are left, from the table given down to level 0. -/
def State.putLeaf (s : State) (job unit level e : Nat) : Nat → Nat → Option State
  | 0, _ => some s
  | n + 1, table =>
    let vpn := unit / 512 ^ n
    let old := s.entryOf table vpn
    if n = level then
      let s := if isValid old && !isLeaf old then s.giveTable (entryAddr old) else s
      some (s.putEntry table vpn e)
    else if isValid old then State.putLeaf s job unit level e n (entryAddr old)
    else
      match s.takeTable job with
      | none => none
      | some (s, p) => State.putLeaf (s.putEntry table vpn (tableLink p)) job unit level e n p

/-- Map leaves one after another. -/
def State.putLeaves (s : State) (job : Nat) : List (Nat × Nat × Nat) → Option State
  | [] => some s
  | (unit, level, e) :: r =>
    match s.putLeaf job unit level e 4 (s.get (Reg.XLAT.JOB_ROOT job) * 4096) with
    | none => none
    | some s => State.putLeaves s job r

/-- The leaf that maps a unit: its level, its table, and the entry; none where the unit is unmapped. -/
def State.findLeaf (s : State) (unit : Nat) : Nat → Nat → Option (Nat × Nat × Nat)
  | 0, _ => none
  | n + 1, table =>
    let e := s.entryOf table (unit / 512 ^ n)
    if !isValid e then none
    else if isLeaf e then some (n, table, e)
    else State.findLeaf s unit n (entryAddr e)

/-- The leaf of a job's unit. -/
def State.leafOf (s : State) (job unit : Nat) : Option (Nat × Nat × Nat) :=
  s.findLeaf unit 4 (s.get (Reg.XLAT.JOB_ROOT job) * 4096)

/-- The valid leaves below a table, as unit, level and entry, rising; n + 1 levels are left. -/
def State.leavesBelow (s : State) : Nat → Nat → Nat → List (Nat × Nat × Nat)
  | 0, _, _ => []
  | n + 1, table, base =>
    (List.range 512).flatMap fun i =>
      let e := s.entryOf table i
      let vpn := base * 512 + i
      if !isValid e then []
      else if isLeaf e then [(vpn * 512 ^ n, n, e)]
      else State.leavesBelow s n (entryAddr e) vpn

/-- The leaves of a job. -/
def State.leaves (s : State) (job : Nat) : List (Nat × Nat × Nat) :=
  s.leavesBelow 4 (s.get (Reg.XLAT.JOB_ROOT job) * 4096) 0

/-- The level-0 table that stands where a 1 GiB page of a unit would, if one does (R485). -/
def State.tableUnder (s : State) (unit : Nat) : Nat → Nat → Option Nat
  | 0, _ => none
  | n + 1, table =>
    let e := s.entryOf table (unit / 512 ^ n)
    if !isValid e ∨ isLeaf e then none
    else if n = 1 then some (entryAddr e)
    else State.tableUnder s unit n (entryAddr e)

/-- A table holds a valid entry. -/
def State.tableUsed (s : State) (table : Nat) : Bool := (List.range 512).any fun i => isValid (s.entryOf table i)

/-! ### JOB_CREATE and JOB_DESTROY (R484) -/

/-- JOB_CREATE. -/
def State.doJobCreate (r : Req) (hostAt : Nat) (s : State) : State × Answer :=
  let job := r.job.toNat
  if !jobNamed r ∨ hostAt % 4096 ≠ 0 then (s, just stBADPARAM)
  else if s.jobValid job then (s, just stNOJOB)
  else if s.memTop = 0 then (s, just stNOTABLES)
  else match s.takeTable job with
    | none => (s, just stNOTABLES)
    | some (s, p) =>
      let s := s.puts [(Reg.XLAT.JOB_ROOT job, p / 4096), (Reg.XLAT.JOB_HOST_BASE job, hostAt / 4096),
        (Reg.XLAT.JOB_VALID job, 1)]
      ({ s with host := { s.host with killed := setErase job s.host.killed } }, just stSUCCESS)

/-- JOB_CREATE. -/
def execJobCreate (r : Req) (hostAt : BitVec 64) (s : State) : Out :=
  whenLive s fun s => s.serve r .target false (fun d => mkEntry 0x0110 r d [(16, 8, hostAt.toNat)])
    (State.doJobCreate r hostAt.toNat)

/-- What keeps a job from being destroyed (R484). -/
def State.jobInUse (s : State) (job : Nat) : Bool :=
  ((s.coresOf job).any fun n => s.streamState n == 1 || !(s.core n).window.isEmpty) ||
    (s.runs.any fun x => x.job == job) || (s.get Reg.AGATE.STEP_STATE != 0 && s.agateJob == job) ||
    (s.batches.any fun b => b.ofJob job) || (s.snap.isOpen && s.get Reg.SNAP.STATUS_JOB == job) ||
    (s.host.rings.any fun x => x.job == job) || (s.get Reg.GEN.BAR4_EN == 1 && s.get Reg.GEN.BAR4_JOB == job)

/-- Clear VALID in a job's channel contexts. -/
def State.clearChannels (s : State) (job : Nat) : State :=
  (s.contexts.filter fun e => e.1 % 8 == 0 && e.2.toNat % 64 == job && bitOf e.2.toNat 63).foldl (fun s e =>
    s.setCtx (e.1 / 32768) (e.1 % 32768 / 8) 0 (e.2.toNat % 2 ^ 63)) s

/-- JOB_DESTROY. -/
def State.doJobDestroy (r : Req) (s : State) : State × Answer :=
  let job := r.job.toNat
  match s.jobFails r with
  | some st => (s, just st)
  | none =>
    if s.jobInUse job then (s, just stBUSY)
    else
      let s := { s with host := { s.host with tables := s.host.tables.filter fun t => t.2 ≠ job } }
      ((s.clearChannels job).dropJob job, just stSUCCESS)

/-- JOB_DESTROY. -/
def execJobDestroy (r : Req) (s : State) : Out :=
  whenLive s fun s => s.serve r .target false (fun d => mkEntry 0x0111 r d []) (State.doJobDestroy r)

/-! ### MAP, UNMAP and PROTECT (R433, R485) -/

/-- A snapshot of a job is open (R433). -/
def State.snapOf (s : State) (job : Nat) : Bool := s.snap.isOpen && s.get Reg.SNAP.STATUS_JOB == job

/-- The physical range stays in one region whose store, if it is one, is present and not retired (R176, R178, R485). -/
def State.goodRange (s : State) (pa n : Nat) (giant : Bool) : Bool :=
  if pa < csBase then decide (pa + n ≤ s.memTop)
  else if giant then false
  else if pa < hostBase then
    match s.storeOf pa with
    | none => false
    | some c => !(s.core c).retired && decide (pa + n ≤ csBase + (c + 1) * csSize)
  else decide (pa + n ≤ 2 ^ 48)

/-- Sill firmware reads what MAP looks at: the ways to the units, and the tables that 1 GiB pages would replace (R14, R485). -/
def State.readPlaces (s : State) (job : Nat) (giant : Bool) (units : List Nat) : State :=
  let under := if giant then units.filterMap fun u => s.tableUnder u 4 (s.get (Reg.XLAT.JOB_ROOT job) * 4096) else []
  under.foldl State.readTable (s.readPaths job units)

/-- What MAP finds at a page: refused, free, or a page or table that is replaced. -/
inductive Slot where
  | bad | free | taken
deriving DecidableEq, Repr

/-- The place of one page of MAP (R485). -/
def State.mapSlot (s : State) (job unit : Nat) (giant : Bool) : Slot :=
  match s.leafOf job unit with
  | some (l, _, _) => if l = 1 then (if giant then .taken else .bad) else .taken
  | none =>
    if giant then
      match s.tableUnder unit 4 (s.get (Reg.XLAT.JOB_ROOT job) * 4096) with
      | some t => if s.tableUsed t then .taken else .free
      | none => .free
    else .free

/-- A command that must wait for an invalidation releases Sill firmware and starts it (R462, R485). -/
def State.afterInval (s : State) (r : Req) (job first units : Nat) : State × Answer :=
  ((s.letWait r).invalFor r job first units, none)

/-- The pages of a MAP: unit, level and entry. -/
def mapPages (va pa flags count : Nat) : List (Nat × Nat × Nat) :=
  let level := flags % 2
  let size := 2 ^ (21 + 9 * level)
  (List.range count).map fun i => ((va + i * size) / 2 ^ 21, level, leafEntry (pa + i * size) flags)

/-- MAP once its operands and job are good: the whole range and the pool are checked before any entry is written. -/
def State.mapRange (s : State) (r : Req) (va pa flags count : Nat) : State × Answer :=
  let job := r.job.toNat
  let giant := flags % 2 = 1
  let size := 2 ^ (21 + 9 * (flags % 2))
  let pages := mapPages va pa flags count
  let found := pages.map fun p => s.mapSlot job p.1 giant
  let s := s.readPlaces job giant (pages.map fun p => p.1)
  if found.contains .bad then (s, just stBADPARAM)
  else if s.meetsArea pa (count * size) then (s, just stRESERVED)
  else if !(bitOf flags 5) ∧ found.contains .taken then (s, just stMAPPED)
  else match s.putLeaves job pages with
    | none => (s, just stNOTABLES)
    | some s' => if found.contains .taken then s'.afterInval r job (va / 2 ^ 21) (count * size / 2 ^ 21) else (s', just stSUCCESS)

/-- MAP. -/
def State.doMap (r : Req) (va pa flags count : Nat) (s : State) : State × Answer :=
  let size := 2 ^ (21 + 9 * (flags % 2))
  if 64 ≤ flags then (s, just stBADENTRY)
  else match s.jobFails r with
    | some st => (s, just st)
    | none =>
      if s.snapOf r.job.toNat then (s, just stSNAPOPEN)
      else if count = 0 ∨ va % size ≠ 0 ∨ pa % size ≠ 0 ∨ 2 ^ 57 < va + count * size ∨
          !s.goodRange pa (count * size) (flags % 2 = 1) then (s, just stBADPARAM)
      else s.mapRange r va pa flags count

/-- MAP. -/
def execMap (r : Req) (va : BitVec 64) (pa : BitVec 48) (flags : BitVec 8) (count : BitVec 32) (s : State) : Out :=
  whenLive s fun s => s.serve r .target false
    (fun d => mkEntry 0x0112 r d [(16, 8, va.toNat), (24, 6, pa.toNat), (30, 1, flags.toNat), (32, 4, count.toNat)])
    (State.doMap r va.toNat pa.toNat flags.toNat count.toNat)

/-- A range of units covers the whole of the leaf that maps one of its units. -/
def leafInside (first count unit level : Nat) : Bool :=
  decide (first ≤ unit / 512 ^ level * 512 ^ level) && decide ((unit / 512 ^ level + 1) * 512 ^ level ≤ first + count)

/-- Change the leaves of a range, each once: at its first unit. -/
def State.changeLeaves (s : State) (job : Nat) (units : List Nat) (f : Nat → Nat) : State :=
  units.foldl (fun s u =>
    match s.leafOf job u with
    | some (l, t, e) => if u % 512 ^ l = 0 then s.putEntry t (u / 512 ^ l) (f e) else s
    | none => s) s

/-- What UNMAP and PROTECT share (R485): f gives the new entry. -/
def State.changeRange (s : State) (r : Req) (va count : Nat) (f : Nat → Nat) : State × Answer :=
  let job := r.job.toNat
  let first := va / 2 ^ 21
  match s.jobFails r with
  | some st => (s, just st)
  | none =>
    if s.snapOf job then (s, just stSNAPOPEN)
    else if count = 0 ∨ va % 2 ^ 21 ≠ 0 ∨ 2 ^ 57 < va + count * 2 ^ 21 then (s, just stBADPARAM)
    else
      let units := (List.range count).map (first + ·)
      let found := units.map fun u => (u, s.leafOf job u)
      let s := s.readPaths job units
      if found.any fun x => x.2.isNone then (s, just stNOTMAPPED)
      else if found.any fun x => match x.2 with
          | some (l, _, _) => !leafInside first count x.1 l
          | none => false then (s, just stBADPARAM)
      else (s.changeLeaves job units f).afterInval r job first count

/-- UNMAP. -/
def State.doUnmap (r : Req) (va count : Nat) (s : State) : State × Answer := s.changeRange r va count fun _ => 0

/-- UNMAP. -/
def execUnmap (r : Req) (va : BitVec 64) (count : BitVec 32) (s : State) : Out :=
  whenLive s fun s => s.serve r .target false (fun d => mkEntry 0x0113 r d [(16, 8, va.toNat), (32, 4, count.toNat)])
    (State.doUnmap r va.toNat count.toNat)

/-- A leaf with the bits of FLAGS [4:1] in place of its own. -/
def protectEntry (flags e : Nat) : Nat := e - bitsOf e 5 2 * 4 + bitsOf flags 4 1 * 4

/-- PROTECT. -/
def State.doProtect (r : Req) (va flags count : Nat) (s : State) : State × Answer :=
  if flags % 2 = 1 ∨ 32 ≤ flags then (s, just stBADENTRY) else s.changeRange r va count (protectEntry flags)

/-- PROTECT. -/
def execProtect (r : Req) (va : BitVec 64) (flags : BitVec 8) (count : BitVec 32) (s : State) : Out :=
  whenLive s fun s => s.serve r .target false
    (fun d => mkEntry 0x0114 r d [(16, 8, va.toNat), (30, 1, flags.toNat), (32, 4, count.toNat)])
    (State.doProtect r va.toNat flags.toNat count.toNat)

/-! ### OWNER_TABLE (R174, R486) -/

/-- An owner-table entry is good: tensor, rank, block sizes, count, length and owners (R174). Of the block sizes it looks at those
of the dimensions below RANK alone, and the grid's product runs over these (DESIGN CHOICE, log entry 122: the rule says only that
no block size is 0). -/
def State.ownerOk (s : State) (b : Bytes) (length : Nat) : Bool :=
  let rank := field b 2 1
  let grid := fun (d : Nat) => ceilDiv (field b (4 + 4 * d) 4) (field b (28 + 4 * d) 4)
  let count := field b 52 4
  field b 0 2 != 0 && decide (1 ≤ rank) && decide (rank ≤ 6) && field b 3 1 == 0 &&
    ((List.range rank).all fun d => field b (28 + 4 * d) 4 != 0) &&
    count == ((List.range rank).map grid).foldl (· * ·) 1 && length == 56 + count &&
    ((b.drop 56).take count).all fun o => s.members.contains o.toNat

/-- OWNER_TABLE. -/
def State.doOwnerTable (r : Req) (va length : Nat) (s : State) : State × Answer :=
  if length < 56 then (s, just stBADPARAM)
  else match s.readParam r va length with
    | (s, .inl st) => (s, just st)
    | (s, .inr b) =>
      if s.ownerOk b length then
        ({ s with host := { s.host with owners := assocPut (field b 0 2) b s.host.owners } }, just stSUCCESS)
      else (s, just stBADPARAM)

/-- OWNER_TABLE. -/
def execOwnerTable (r : Req) (va : BitVec 64) (length : BitVec 32) (s : State) : Out :=
  whenLive s fun s => s.serve r .lead false (fun d => mkEntry 0x0115 r d [(16, 8, va.toNat), (24, 4, length.toNat)])
    (State.doOwnerTable r va.toNat length.toNat)

/-! ### CHANNEL_SET (R265, R486) -/

/-- CHANNEL_SET. -/
def State.doChannelSet (mover channel word0 : Nat) (clear : Bool) (s : State) : State × Answer :=
  if 7 < mover ∨ 4095 < channel then (s, just stBADPARAM)
  else if !s.present mover then (s, just stNOCORE)
  else if !s.chanIdle mover channel then (s, just stBUSY)
  else if bitOf word0 63 ∧ !s.jobValid (word0 % 64) then (s, just stNOJOB)
  else
    let s := s.setCtx mover channel 0 (ctxMask word0)
    (if clear then [2, 3, 4, 5, 6].foldl (fun s k => s.setCtx mover channel k 0) s else s, just stSUCCESS)

/-- CHANNEL_SET. -/
def execChannelSet (r : Req) (mover : BitVec 8) (channel : BitVec 16) (word0 : BitVec 64) (clear : Bool) (s : State) : Out :=
  whenLive s fun s => s.serve r .target false
    (fun d => mkEntry 0x0116 r d [(16, 1, mover.toNat), (18, 2, channel.toNat), (24, 8, word0.toNat), (32, 1, ofBool clear)])
    (State.doChannelSet mover.toNat channel.toNat word0.toNat clear)

end Sys2Proof.Machine
end

