-- ==== Sys2Proof/Machine/Sill.lean ====
section
/-!
DEFINITION. Machine/Sill.lean: Sill firmware's commands on state, streams, rings, reduction, experts, budgets and
registers (R480 to R482, R487 to R494, R496 to R498).
-/

namespace Sys2Proof.Machine

/-! ### Queries (R492) -/

/-- STATUS: what its two results hold. -/
def State.statusWords (s : State) : Nat × Nat :=
  let st := fun (n : Nat) => (if s.present n then s.streamState n else 7) * 16 ^ n
  let waiting := (s.host.tests.filter fun t => !t.running).length
  (((List.range 8).map st).sum + min 255 waiting * 2 ^ 32 + ofBool s.fe * 2 ^ 40 +
    s.get (Reg.DOOR.FORMED 0) * 2 ^ 41 + s.get (Reg.DOOR.IS_LEAD 0) * 2 ^ 42 +
    s.get Reg.SEC.VERSION % 2 ^ 16 * 2 ^ 48,
   s.get Reg.ERR.LOG_SEQ % 2 ^ 32)

/-- STATUS. -/
def State.doStatus (s : State) : State × Answer := (s, some (0, s.statusWords.1, s.statusWords.2))

/-- STATUS. -/
def execStatus (r : Req) (s : State) : Out :=
  whenLive s fun s => s.serve r .target true (fun d => mkEntry 0x0001 r d []) State.doStatus

/-- The 64 bytes of the record at a place of the log. -/
def State.logBytes (s : State) (q : Nat) : Bytes :=
  ((List.range 8).map fun k => bytesOf 8 (s.get (Reg.ERR.LOG (q % 512) k))).flatten

/-- ERRLOG_READ: the records from a sequence number upward that are still in the ring. -/
def State.doErrlogRead (hostAt first max : Nat) (s : State) : State × Answer :=
  if hostAt % 64 ≠ 0 ∨ max = 0 ∨ 512 < max then (s, just stBADPARAM)
  else
    let next := s.get Reg.ERR.LOG_SEQ
    let lo := Nat.max first (Nat.max 1 (next - 512))
    let n := min max (next - lo)
    ((List.range n).foldl (fun s i => s.hostPost (hostAt + 64 * i) (s.logBytes (lo + i))) s, some (0, lo, n))

/-- ERRLOG_READ. -/
def execErrlogRead (r : Req) (hostAt firstSeq : BitVec 64) (max : BitVec 16) (s : State) : Out :=
  whenLive s fun s => s.serve r .target true
    (fun d => mkEntry 0x0002 r d [(16, 8, hostAt.toNat), (24, 8, firstSeq.toNat), (32, 2, max.toNat)])
    (State.doErrlogRead hostAt.toNat firstSeq.toNat max.toNat)

/-- REG_READ: a register with the read effects of a host read. -/
def State.doRegRead (off : Nat) (s : State) : State × Answer :=
  if off % 8 ≠ 0 ∨ 2 ^ 26 ≤ off then (s, just stBADPARAM)
  else match s.seat.readReg off 8 with
    | (s, v) => (s, some (0, v, 0))

/-- REG_READ. -/
def execRegRead (r : Req) (off : BitVec 32) (s : State) : Out :=
  whenLive s fun s => s.serve r .target true (fun d => mkEntry 0x0003 r d [(16, 4, off.toNat)]) (State.doRegRead off.toNat)

/-- LATCH_OP: one latch message for each latch of the range, as the host interface sends them (R303). -/
def State.doLatchOp (op first countM1 : Nat) (s : State) : State × Answer :=
  if 1 < op ∨ 0x3FFF < first + countM1 then (s, just stBADPARAM)
  else ((List.range (countM1 + 1)).foldl (fun s i => s.sendLatch hostSrc (first + i) (op = 0) none) s, just stSUCCESS)

/-- LATCH_OP. -/
def execLatchOp (r : Req) (op : BitVec 8) (first countM1 : BitVec 16) (s : State) : Out :=
  whenLive s fun s => s.serve r .target false
    (fun d => mkEntry 0x0004 r d [(16, 1, op.toNat), (18, 2, first.toNat), (20, 2, countM1.toNat)])
    (State.doLatchOp op.toNat first.toNat countM1.toNat)

/-- LINK_STATUS: the links of windows, doors and casements. -/
def State.linkWords (s : State) : Nat × Nat :=
  let win := fun (w : Nat) => ofBool (s.get (Reg.WIN.STATE w) == 4) * 2 ^ w
  let up := fun (d : Nat) => if d = 15 then [0, 1, 2].any fun k => s.get (Reg.DOOR.LINK_STATE 15 k) == 3
    else s.get (Reg.DOOR.LINK_STATE d 0) == 3
  let door := fun (d : Nat) => ofBool (up d) * 2 ^ (32 + d)
  let feed := fun (c : Nat) => s.get (Reg.CASE.ACTIVE c) * 2 ^ c +
    ofBool (s.get (Reg.CASE.A_OK c) == 0 || s.get (Reg.CASE.B_OK c) == 0) * 2 ^ (16 + c)
  (((List.range 32).map win).sum + ((List.range 16).map door).sum, ((List.range 16).map feed).sum)

/-- LINK_STATUS. -/
def State.doLinkStatus (s : State) : State × Answer := (s, some (0, s.linkWords.1, s.linkWords.2))

/-- LINK_STATUS. -/
def execLinkStatus (r : Req) (s : State) : Out :=
  whenLive s fun s => s.serve r .target true (fun d => mkEntry 0x0008 r d []) State.doLinkStatus

/-! ### Halts and kills (R490, R491, R494) -/


/-- STREAM_HALT. -/
def State.doStreamHalt (r : Req) (mask : Nat) (s : State) : State × Answer :=
  if !jobNamed r then (s, just stBADPARAM)
  else
    let cores := s.runningOf mask r.job.toNat
    let s := cores.foldl State.haltStream s
    let s := (if cores.isEmpty then s else s.jobHalted r.job.toNat).seat
    (s, some (0, (cores.map fun n => 2 ^ n).sum, 0))

/-- STREAM_HALT. -/
def execStreamHalt (r : Req) (cores : BitVec 8) (all : Bool) (s : State) : Out :=
  whenLive s fun s => s.serve r (if all then .all else .target) false
    (fun d => mkEntry 0x0005 r d [(16, 1, cores.toNat), (17, 1, ofBool all)]) (State.doStreamHalt r cores.toNat)

/-- JOB_KILL: the lead kills the job; a member is halted for it without a record and an event of its own (R414,
R491). -/
def State.doJobKill (r : Req) (s : State) : State × Answer :=
  let job := r.job.toNat
  if !jobNamed r then (s, just stBADPARAM)
  else if s.isMember then ((s.gotKill job 0).seat, just stSUCCESS)
  else ((s.killJob job hostSrc 0 true).seat, just stSUCCESS)

/-- JOB_KILL. -/
def execJobKill (r : Req) (s : State) : Out :=
  whenLive s fun s => s.serve r .all false (fun d => mkEntry 0x0006 r d []) (State.doJobKill r)

/-- BATCH_CANCEL; the closed batch may leave room for a packet held at a door (R334). -/
def State.doBatchCancel (gen : Nat) (s : State) : State × Answer :=
  ((s.cancelGen gen).seat, some (0, ofBool (s.batch? gen).isSome, 0))

/-- BATCH_CANCEL. -/
def execBatchCancel (r : Req) (gen : BitVec 16) (tray : BitVec 8) (s : State) : Out :=
  whenLive s fun s => s.serve r (.tray tray.toNat) false
    (fun d => mkEntry 0x0007 r d [(16, 2, gen.toNat), (18, 1, tray.toNat)]) (State.doBatchCancel gen.toNat)

/-! ### Rings and events (R456, R481, R482) -/

/-- A ring context breaks R456. -/
def badRing (log2 cls vec irq sq cq : Nat) : Bool :=
  decide (log2 < 6) || decide (16 < log2) || decide (3 < cls) || decide (255 < vec) || decide (2 < irq) ||
    sq % 64 != 0 || cq % 32 != 0

/-- RING_CREATE. -/
def State.doRingCreate (r : Req) (ring log2 cls vec irq sq cq : Nat) (s : State) : State × Answer :=
  if ring = 0 ∨ badRing log2 cls vec irq sq cq then (s, just stBADPARAM)
  else if (s.ring? ring).isSome then (s, just stBUSY)
  else
    let x : Ring :=
      { id := ring, log2 := log2, cls := cls, job := r.job.toNat, vec := vec, irq := irq, sqBase := sq,
        cqBase := cq, sqHead := 0, sqTail := 0, cqTail := 0, cqHead := 0, cqUsed := 0, phase := true, stopped := false,
        inProgress := 0, bells := [], entry := none, reading := false, destroying := none }
    ({ s with host := { s.host with rings := s.host.rings ++ [x] } }, just stSUCCESS)

/-- RING_CREATE. -/
def execRingCreate (r : Req) (ring : BitVec 16) (log2 cls vec irq : BitVec 8) (sqBase cqBase : BitVec 64) (s : State) :
    Out :=
  whenLive s fun s => s.serve r .lead false
    (fun d => mkEntry 0x0101 r d [(16, 2, ring.toNat), (18, 1, log2.toNat), (19, 1, cls.toNat), (20, 1, vec.toNat),
      (21, 1, irq.toNat), (24, 8, sqBase.toNat), (32, 8, cqBase.toNat)])
    (State.doRingCreate r ring.toNat log2.toNat cls.toNat vec.toNat irq.toNat sqBase.toNat cqBase.toNat)

/-- RING_DESTROY: pickup stops at once; the command completes after the entries in progress. -/
def State.doRingDestroy (r : Req) (ring : Nat) (s : State) : State × Answer :=
  match s.ring? ring with
  | none => (s, just stBADPARAM)
  | some x =>
    if ring = 0 ∨ ring = r.ring.toNat then (s, just stBADPARAM)
    else if x.destroying.isSome then (s, just stBUSY)
    else
      let out := fun (y : Ring) => { y.stop with sqHead := y.sqTail, destroying := some r }
      ((s.letWait r).mapRing ring out |>.endRing ring, none)

/-- RING_DESTROY. -/
def execRingDestroy (r : Req) (ring : BitVec 16) (s : State) : Out :=
  whenLive s fun s => s.serve r .lead false (fun d => mkEntry 0x0102 r d [(16, 2, ring.toNat)])
    (State.doRingDestroy r ring.toNat)

/-- EVENT_RING. -/
def State.doEventRing (hostAt log2 vec : Nat) (en : Bool) (s : State) : State × Answer :=
  if hostAt % 64 ≠ 0 ∨ log2 < 6 ∨ 16 < log2 then (s, just stBADPARAM)
  else
    ({ s with host := { s.host with evAddr := hostAt, evLog2 := log2, evVec := vec, evEn := en } }, just stSUCCESS)

/-- EVENT_RING. -/
def execEventRing (r : Req) (hostAt : BitVec 64) (log2 vec : BitVec 8) (en : Bool) (s : State) : Out :=
  whenLive s fun s => s.serve r .lead false
    (fun d => mkEntry 0x0103 r d [(16, 8, hostAt.toNat), (24, 1, log2.toNat), (25, 1, vec.toNat), (26, 1, ofBool en)])
    (State.doEventRing hostAt.toNat log2.toNat vec.toNat en)

/-! ### Streams (R194, R294, R487 to R489) -/

/-- The cores of a mask. -/
def maskCores (mask : Nat) : List Nat := (List.range 8).filter (bitOf mask)

/-- A whole-core test runs on core n (R500). -/
def State.coreTested (s : State) (n : Nat) : Bool := s.host.tests.any fun x => x.kind == 2 && x.core == n && x.running

/-- The first check of STREAM_START that some named core fails (R488). -/
def State.startFails (s : State) (r : Req) (cores : List Nat) (va : Nat) : Option Nat :=
  if cores.any fun n => !s.present n then some stNOCORE
  else if cores.any fun n => (s.core n).retired then some stRETIRED
  else if cores.any fun n => s.streamState n == 1 || !(s.core n).window.isEmpty || s.coreTested n then some stBUSY
  else if !s.jobValid r.job.toNat then some stNOJOB
  else if va % 16 ≠ 0 ∨ 2 ^ 57 ≤ va then some stBADPARAM
  else none

/-- A stream runs from an address with an empty window. -/
def State.runFrom (s : State) (n va : Nat) : State :=
  (s.setCore n { s.core n with window := [], fetched := [], fetchPc := va, endSeen := false, watching := [],
                               idleSince := none }).puts
    [(Reg.CORE.PC n, va), (Reg.CORE.STREAM_FAULT n, 0), (Reg.CORE.STREAM_STATE n, 1)]

/-- Clear the latches of core n (R294). -/
def State.clearCoreLatches (s : State) (n : Nat) : State :=
  (List.range 64).foldl (fun s k => s.put (Reg.LATCH.latch (64 * n + k)) 0) s

/-- Start one stream (R194, R488). -/
def State.startStream (job va : Nat) (s : State) (n : Nat) : State :=
  let c := s.core n
  let s := s.setCore n { c with slots := c.slots.filter fun e => c.marks.contains e.1, marks := [],
                                badWords := c.badWords.filter fun k => c.marks.contains k || (decide (4096 ≤ k) && decide (k < 4112)) }
  let s := (s.clearCoreLatches n).puts [(Reg.CORE.LSLOT_VALID n, 0), (Reg.CORE.TAG_NEXT n, 1), (Reg.CORE.STREAM_JOB n, job)]
  let s := (List.range 16).foldl (fun s k => s.put (Reg.CORE.LOOP_COUNT n k) 0) s
  let s := { s with runs := mapIf (fun r => r.core == n && r.m == n) (fun r => { r with old := true }) s.runs }
  s.runFrom n va

/-- STREAM_START: every check covers every named core before any core starts. -/
def State.doStreamStart (r : Req) (mask va : Nat) (s : State) : State × Answer :=
  if !jobNamed r then (s, just stBADPARAM)
  else match s.startFails r (maskCores mask) va with
    | some st => (s, just st)
    | none =>
      let s := { s with host := { s.host with killed := setErase r.job.toNat s.host.killed } }
      ((maskCores mask).foldl (State.startStream r.job.toNat va) s, just stSUCCESS)

/-- STREAM_START. -/
def execStreamStart (r : Req) (cores : BitVec 8) (va : BitVec 64) (s : State) : Out :=
  whenLive s fun s => s.serve r .target false (fun d => mkEntry 0x011E r d [(16, 1, cores.toNat), (24, 8, va.toNat)])
    (State.doStreamStart r cores.toNat va.toNat)

/-- The first check of STREAM_RESUME that some named core fails (R489). -/
def State.resumeFails (s : State) (cores : List Nat) (va : Nat) : Option Nat :=
  if cores.any fun n => !s.present n then some stNOCORE
  else if cores.any fun n => (s.core n).retired then some stRETIRED
  else if cores.any fun n => !(s.streamState n == 2 || s.streamState n == 4) || !(s.core n).window.isEmpty then some stBUSY
  else if va % 16 ≠ 0 ∨ 2 ^ 57 ≤ va ∨ (va = 0 ∧ cores.any fun n => s.streamState n == 2) then some stBADPARAM
  else none

/-- STREAM_RESUME. -/
def State.doStreamResume (mask va : Nat) (s : State) : State × Answer :=
  match s.resumeFails (maskCores mask) va with
  | some st => (s, just st)
  | none =>
    ((maskCores mask).foldl (fun s n => s.runFrom n (if va = 0 then s.get (Reg.CORE.PC n) else va)) s, just stSUCCESS)

/-- STREAM_RESUME. -/
def execStreamResume (r : Req) (cores : BitVec 8) (va : BitVec 64) (s : State) : Out :=
  whenLive s fun s => s.serve r .target false (fun d => mkEntry 0x011F r d [(16, 1, cores.toNat), (24, 8, va.toNat)])
    (State.doStreamResume cores.toNat va.toNat)

/-- PROGRAM_LOAD: descriptors from memory into slots, which are marked (R487). -/
def State.doProgramLoad (r : Req) (n first count va : Nat) (s : State) : State × Answer :=
  if !jobNamed r ∨ 7 < n ∨ count = 0 ∨ 4096 < first + count then (s, just stBADPARAM)
  else if !s.present n then (s, just stNOCORE)
  else match s.readParam r va (128 * count) with
    | (s, .inl st) => (s, just st)
    | (s, .inr b) =>
      let s := s.loadSlots n first count b
      let marks := (List.range count).foldl (fun l k => setInsert (first + k) l) (s.core n).marks
      (s.setCore n { s.core n with marks := marks }, just stSUCCESS)

/-- PROGRAM_LOAD. -/
def execProgramLoad (r : Req) (core : BitVec 8) (firstSlot count : BitVec 16) (va : BitVec 64) (s : State) : Out :=
  whenLive s fun s => s.serve r .target false
    (fun d => mkEntry 0x0200 r d [(16, 1, core.toNat), (18, 2, firstSlot.toNat), (20, 2, count.toNat), (24, 8, va.toNat)])
    (State.doProgramLoad r core.toNat firstSlot.toNat count.toNat va.toNat)

/-! ### HOST_COPY (R279, R469, R497) -/

/-- Translate every sector of a range; the failing status, or none. -/
def State.reachable (s : State) (job : Nat) (rd wr : Bool) : List (Nat × Nat) → State × Option Nat
  | [] => (s, none)
  | (va, _) :: l =>
    match s.xlat hostSrc job va rd wr with
    | (s, .bad re _) => (s.walkKill job hostSrc re, some stADDRESS)
    | (s, .ok _ _ _) => State.reachable s job rd wr l

/-- Send sectors to host memory, up to the first marked one, which is consumed (R279). -/
def State.copyOut (s : State) (job base va0 : Nat) : List (Nat × Nat) → State × Nat
  | [] => (s, stSUCCESS)
  | (va, n) :: l =>
    match s.readVa hostSrc job va n with
    | (s, _, _, .bad _ re _) => (s.walkKill job hostSrc re, stADDRESS)
    | (s, b, p, _) =>
      if p then (s.unitConsume job 0x508 5 va, stPOISON)
      else
        let s := (s.inc (Reg.MOVER.READ_BYTES 8) n).inc (Reg.MOVER.WRITE_BYTES 8) n
        State.copyOut (s.hostPost (base + (va - va0)) b) job base va0 l

/-- The bytes of a read request: what the host has set, from 128 to 4,096 (R449). -/
def State.readSize (s : State) : Nat := max 128 (min 4096 s.host.maxRead)

/-- Begin a HOST_COPY toward the device: its reads go out as mover 8 may have them outstanding (R264, R449). -/
def State.copyIn (s : State) (r : Req) (hostAt va length : Nat) : State :=
  let n := s.host.nextRead
  let size := s.readSize
  let pieces := (List.range (ceilDiv length size)).map fun i => (hostAt + size * i, va + size * i, min size (length - size * i))
  let c : HostCopy := ⟨n, r, pieces.length, 0, [], pieces⟩
  State.feedCopies pieces.length { s with host := { s.host with copies := s.host.copies ++ [c], nextRead := n + 1 } }

/-- HOST_COPY. -/
def State.doHostCopy (r : Req) (dir hostAt va length : Nat) (s : State) : State × Answer :=
  let job := r.job.toNat
  match s.jobFails r with
  | some st => (s, just st)
  | none =>
    if 1 < dir ∨ hostAt % 64 ≠ 0 ∨ 2 ^ 57 < va + length then (s, just stBADPARAM)
    else match s.reachable job (dir = 1) (dir = 0) (sectorsOf va length) with
      | (s, some st) => (s, just st)
      | (s, none) =>
        if length = 0 then (s, just stSUCCESS)
        else if dir = 1 then
          match s.copyOut job hostAt va (sectorsOf va length) with
          | (s, st) => (s, just st)
        else ((s.letWait r).copyIn r hostAt va length, none)

/-- HOST_COPY. -/
def execHostCopy (r : Req) (dir : BitVec 8) (hostAt va length : BitVec 64) (s : State) : Out :=
  whenLive s fun s => s.serve r .target false
    (fun d => mkEntry 0x0201 r d [(16, 1, dir.toNat), (24, 8, hostAt.toNat), (32, 8, va.toNat), (40, 8, length.toNat)])
    (State.doHostCopy r dir.toNat hostAt.toNat va.toNat length.toNat)

/-! ### Placement and reduction (R332, R375, R376, R397, R398, R493, R496) -/

/-- Write every field of a register that software may write, from a 64-bit word. -/
def State.setReg (s : State) (off v : Nat) : State :=
  (Reg.fieldsAt off).foldl (fun s f => if f.acc = .rw then s.put f (v / 2 ^ f.lo) else s) s

/-- Word k of an image. -/
def word (b : Bytes) (k : Nat) : Nat := field b (8 * k) 8

/-- A placement is good (R332): 64 words, of which the one of CFG, which follows them, is free of limits. -/
def State.placementOk (s : State) (b : Bytes) : Bool :=
  (List.range 64).all fun e =>
    decide (bitsOf (word b e) 16 0 + bitsOf (word b e) 33 17 ≤ 65536) &&
      (!bitOf (word b e) 63 || s.trayPositions.contains (bitsOf (word b e) 59 56))

/-- A batch is open on some device of the tray: here, or on another one, which no packet tells: free (R332; log entry 111). -/
def State.trayBatch (s : State) : Bool :=
  !s.batches.isEmpty || (decide (1 < s.trayPositions.length) && Config.openValue 111 s.freeCtr % 2 == 1)

/-- PLACEMENT. -/
def State.doPlacement (r : Req) (va : Nat) (s : State) : State × Answer :=
  match s.readParam r va 520 with
  | (s, .inl st) => (s, just st)
  | (s, .inr b) =>
    if !s.placementOk b then (s, just stBADPARAM)
    else if s.trayBatch then (s.draw, just stBUSY)
    else
      let s := (List.range 64).foldl (fun s e => s.setReg (0x390100 + 8 * e) (word b e)) s.draw
      (s.setReg 0x390000 (word b 64), just stSUCCESS)

/-- PLACEMENT. -/
def execPlacement (r : Req) (va : BitVec 64) (tray : BitVec 8) (s : State) : Out :=
  whenLive s fun s => s.serve r (.tray tray.toNat) false
    (fun d => mkEntry 0x0117 r d [(16, 8, va.toNat), (24, 1, tray.toNat)]) (State.doPlacement r va.toNat)

/-- A bucket of an image lies in its ranges (R375): words 0 to 3 of the bucket. -/
def bucketOk (w : Nat) : Bool :=
  !bitOf w 63 || (decide (2 ^ 20 ≤ bitsOf w 24 0) && decide (bitsOf w 24 0 ≤ 2 ^ 24) &&
    (bitsOf w 47 40 == 1 || bitsOf w 47 40 == 2))

/-- REDUCE_CONFIG. -/
def State.doReduceConfig (r : Req) (va : Nat) (s : State) : State × Answer :=
  match s.readParam r va 32776 with
  | (s, .inl st) => (s, just st)
  | (s, .inr b) =>
    if s.get Reg.AGATE.STEP_STATE ≠ 0 then (s, just stBUSY)
    else if (List.range 1024).any fun k => !bucketOk (word b (1 + 4 * k)) then (s, just stBADPARAM)
    else
      let s := s.setReg 0x380000 (word b 0)
      ((List.range 4096).foldl (fun s k => s.setReg (0x388000 + 8 * k) (word b (1 + k))) s, just stSUCCESS)

/-- REDUCE_CONFIG. -/
def execReduceConfig (r : Req) (va : BitVec 64) (s : State) : Out :=
  whenLive s fun s => s.serve r .all false (fun d => mkEntry 0x0118 r d [(16, 8, va.toNat)])
    (State.doReduceConfig r va.toNat)

/-- REDUCE_START: it opens (STEP, 0). -/
def State.doReduceStart (step : Nat) (s : State) : State × Answer :=
  if s.get Reg.AGATE.STEP_STATE ≠ 0 ∨ s.get Reg.AGATE.CTL_EN = 0 then (s, just stBUSY)
  else (s.openRun step 0 false, just stSUCCESS)

/-- REDUCE_START. -/
def execReduceStart (r : Req) (step : BitVec 16) (s : State) : Out :=
  whenLive s fun s => s.serve r .all false (fun d => mkEntry 0x0119 r d [(16, 2, step.toNat)])
    (State.doReduceStart step.toNat)

/-- REDUCE_STOP. -/
def State.doReduceStop (s : State) : State × Answer := (s.agateStop, just stSUCCESS)

/-- REDUCE_STOP. -/
def execReduceStop (r : Req) (s : State) : Out :=
  whenLive s fun s => s.serve r .all false (fun d => mkEntry 0x011A r d []) State.doReduceStop

/-- STEP_REPLAY: every stream of the job is halted or ended with an empty window, and Agate is not OPEN; the replay run is
(STEP, RUN + 1). -/
def State.doStepReplay (r : Req) (step : Nat) (s : State) : State × Answer :=
  if !jobNamed r then (s, just stBADPARAM)
  else if ((s.coresOf r.job.toNat).any fun n => s.streamState n == 1 || !(s.core n).window.isEmpty) ||
      s.agateOpen then (s, just stBUSY)
  else (s.openRun step (s.runNow + 1) true, just stSUCCESS)

/-- STEP_REPLAY. -/
def execStepReplay (r : Req) (step : BitVec 16) (s : State) : Out :=
  whenLive s fun s => s.serve r .all false (fun d => mkEntry 0x0204 r d [(16, 2, step.toNat)])
    (State.doStepReplay r step.toNat)

/-! ### Budgets, multicast groups and registers (R30, R304, R498) -/

/-- The uncore rail sets out for a new set point at 25 mV/µs (R56, R498). -/
def State.setUncore (s : State) (v : Nat) : State := (s.put Reg.PWR.SET_MV v).moveUncore

/-- BUDGET: what a new budget makes of the core rails is LENDING_ADJUST's. -/
def State.doBudget (dieW tj hyst dwell : Nat) (lend : Bool) (uncore : Nat) (s : State) : State × Answer :=
  let s := s.puts [(Reg.PWR.DIE_W, dieW), (Reg.PWR.TJ_CEIL, tj), (Reg.PWR.HYST, hyst), (Reg.PWR.HOLD_DWELL, dwell),
    (Reg.PWR.LEND_EN, ofBool lend)]
  (if uncore = 0 then s else s.setUncore uncore, just stSUCCESS)

/-- BUDGET. -/
def execBudget (r : Req) (dieW : BitVec 16) (tjCeil hyst : BitVec 8) (dwell : BitVec 16) (lend : Bool)
    (uncore : BitVec 16) (s : State) : Out :=
  whenLive s fun s => s.serve r .target false
    (fun d => mkEntry 0x011B r d [(16, 2, dieW.toNat), (18, 1, tjCeil.toNat), (19, 1, hyst.toNat), (20, 2, dwell.toNat),
      (22, 1, ofBool lend), (24, 2, uncore.toNat)])
    (State.doBudget dieW.toNat tjCeil.toNat hyst.toNat dwell.toNat lend uncore.toNat)

/-- MCAST_SET: it waits while packets of the group are in flight. -/
def State.doMcastSet (r : Req) (group : Nat) (valid : Bool) (targets : Nat) (s : State) : State × Answer :=
  if 31 < group ∨ 2 ^ 36 ≤ targets then (s, just stBADPARAM)
  else
    let v := ofBool valid * 2 ^ 63 + targets
    if s.get (Reg.LATCH.MCAST_INFLIGHT group) = 0 then (s.mcastWrite group v true, just stSUCCESS)
    else
      let s := s.letWait r
      ({ s with host := { s.host with mcasts := s.host.mcasts ++ [(r, group, v)] } }, none)

/-- MCAST_SET. -/
def execMcastSet (r : Req) (group : BitVec 8) (valid : Bool) (targets : BitVec 64) (s : State) : Out :=
  whenLive s fun s => s.serve r .target false
    (fun d => mkEntry 0x011C r d [(16, 1, group.toNat), (17, 1, ofBool valid), (24, 8, targets.toNat)])
    (State.doMcastSet r group.toNat valid targets.toNat)

/-- The MCAST_SET commands of a group whose count has come to 0 are performed, in order (R498). -/
def State.waitingMcasts (s : State) (g : Nat) : State :=
  if s.get (Reg.LATCH.MCAST_INFLIGHT g) ≠ 0 then s
  else
    let mine := s.host.mcasts.filter fun e => e.2.1 == g
    let s := { s with host := { s.host with mcasts := s.host.mcasts.filter fun e => e.2.1 ≠ g } }
    mine.foldl (fun s e => (s.mcastWrite g e.2.2 true).finish e.1 stSUCCESS 0 0) s

/-- MCAST_HOLD_RELEASE: the targets of a mask have freed space (R290). -/
def execMcastHoldRelease (g : Fin 32) (targets : BitVec 36) (s : State) : Out :=
  whenLive s fun s =>
    (((List.range 36).filter (bitOf targets.toNat)).foldl (fun s r => s.releaseCopy g.val r) s).waitingMcasts g.val

/-- The registers beyond the host's own that REG_WRITE accepts: WIN CHAN_CAP, TIMEOUT_US and LINK_CTL, DOOR LINK_CTL, CASE
FEED_CTL and SPARE (R498). -/
def extraReg (off : Nat) : Bool :=
  (decide (0x200000 ≤ off) && decide (off < 0x280000) && [0x18, 0x20, 0x28].contains ((off - 0x200000) % 0x4000)) ||
    (decide (0x300000 ≤ off) && decide (off < 0x340000) && (off - 0x300000) % 0x4000 == 0x20) ||
    (decide (0x340000 ≤ off) && decide (off < 0x380000) && [0x08, 0x18].contains ((off - 0x340000) % 0x4000))

/-- A field that software may write: RW, W1C, W1S or WO. -/
def Access.writable : Access → Bool
  | .rw => true | .w1c => true | .w1s => true | .wo => true | .ro => false | .rc => false

/-- The bits of a register that REG_WRITE may write. -/
def permittedBits (off : Nat) : Nat :=
  if 0x80800 ≤ off ∧ off < 0x81800 then 2 ^ 64 - 1
  else (((Reg.fieldsAt off).filter fun f => f.acc.writable && (!f.sill || extraReg off)).map fun f => (2 ^ f.w - 1) * 2 ^ f.lo).sum

/-- REG_WRITE: a masked 64-bit write. -/
def State.doRegWrite (off value mask : Nat) (s : State) : State × Answer :=
  if off % 8 ≠ 0 ∨ 2 ^ 26 ≤ off then (s, just stBADPARAM)
  else if permittedBits off = 0 then (s, just stNOTPERMITTED)
  else (s.writeWord off value (mask &&& permittedBits off) (extraReg off), just stSUCCESS)

/-- REG_WRITE. -/
def execRegWrite (r : Req) (off : BitVec 32) (value mask : BitVec 64) (s : State) : Out :=
  whenLive s fun s => s.serve r .target false
    (fun d => mkEntry 0x011D r d [(16, 4, off.toNat), (24, 8, value.toNat), (32, 8, mask.toNat)])
    (State.doRegWrite off.toNat value.toNat mask.toNat)

end Sys2Proof.Machine
end

