-- ==== Sys2Proof/Machine/Snap.lean ====
section
/-!
DEFINITION. Machine/Snap.lean: step-consistent snapshots (chapter 16): the open, the state record, the copies, the
image, its completion and the rate advice, the end of an open snapshot, and the restore.
-/

/-- The image that stands at the place that a restore names, where this device knows of none: at the buddy of a device that this one
replaces, or in the host's area (R444; log entry 63): by access number. -/
opaque Sys2Proof.Config.foundImage : Nat → Option Sys2Proof.Machine.Image

namespace Sys2Proof.Machine

/-- The snapshot unit's source (R21). -/
def snapSrc : Nat := 0x404

/-! ### The set, the ranges and the sizes (R432, R433, R438, R495) -/

/-- The 2 MiB blocks of a leaf: unit and physical address (R433). -/
def leafBlocks (l : Nat × Nat × Nat) : List (Nat × Nat) :=
  (List.range (512 ^ l.2.1)).map fun i => (l.1 + i, entryAddr l.2.2 + i * 2 ^ 21)

/-- The snapshot set of a job: the blocks of its leaves that have SNAP at 1, rising (R433). -/
def State.snapSet (s : State) (job : Nat) : List (Nat × Nat) :=
  ((s.leaves job).filter fun l => bitOf l.2.2 4).flatMap leafBlocks

/-- The latches, or the barrier counters, that valid entries of a range list name: entries from a place, field width w
(R495). -/
def rangeOf (ranges : List Nat) (from_ w : Nat) : List Nat :=
  (((ranges.drop from_).take 8).filter fun e => bitOf e 31).flatMap fun e =>
    (List.range (bitsOf e (15 + w) 16 + 1)).map (e % 2 ^ w + ·)

/-- The latches and the barrier counters of a range list. -/
def rangeLatches (ranges : List Nat) : List Nat := rangeOf ranges 0 14
def rangeBarriers (ranges : List Nat) : List Nat := rangeOf ranges 8 11

/-- Every valid entry of a range list ends in its space. -/
def rangesOk (ranges : List Nat) : Bool :=
  (rangeLatches ranges).all (fun l => decide (l < 16384)) && (rangeBarriers ranges).all fun c => decide (c < 2048)

/-- The registers of a core that the record holds beside slots and tables, by their offset in the core's block: STATE and JOB,
TAG_NEXT, launch slots, loop counters, generator states, the audit, late and numeric controls and counters, the request
routes, and the marks of the tables (R432). -/
def recordOffs : List Nat :=
  [0x0, 0x18, 0x1F080, 0x5068, 0x5060, 0x1F088, 0x1F128, 0x6800, 0x1F100, 0x1F108, 0x1F110, 0x5070, 0x5078, 0x5080,
    0x4080, 0x4088] ++
  (List.range 16).map (0x1F000 + 8 * ·) ++ (List.range 16).map (0x100 + 8 * ·) ++ (List.range 256).map (0x1E000 + 8 * ·)

/-- The registers of Agate and of the expert router that the record holds (R432). -/
def recordUnits : List Nat :=
  0x380000 :: (List.range 4096).map (0x388000 + 8 * ·) ++ 0x390000 :: (List.range 64).map (0x390100 + 8 * ·) ++
    (List.range 64).map (0x391000 + 8 * ·)

/-- The channels whose contexts carry a job, as mover * 4096 + channel. -/
def State.jobChannels (s : State) (job : Nat) : List Nat :=
  (s.contexts.filter fun e => e.1 % 8 == 0 && e.2.toNat % 64 == job).map fun e => e.1 / 8

/-- The latches that the record of a job holds: those of its cores and of the named ranges. -/
def State.recordLatches (s : State) (job : Nat) (ranges : List Nat) : List Nat :=
  (((s.coresOf job).flatMap fun n => (List.range 64).map (64 * n + ·)) ++ rangeLatches ranges).foldl (fun a l => setInsert l a) []

/-- The bytes of the state record (R432). -/
def State.recordSize (s : State) (job : Nat) (ranges : List Nat) : Nat :=
  s.coreList.length * (32 + 524288 + 136 + 64 + 2048 + 6272 + 40 + 48) +
    8 * (((s.recordLatches job ranges).map (· / 64)).foldl (fun a w => setInsert w a) []).length +
    16 * (rangeBarriers ranges).length + 56 * (s.jobChannels job).length + 32776 + 1032

/-- A job's tables. -/
def State.jobTables (s : State) (job : Nat) : List Nat := (s.host.tables.filter fun t => t.2 == job).map fun t => t.1

/-- The bytes of a job's tables: 4 KiB each (R177). -/
def State.tableBytes (s : State) (job : Nat) : Nat := 4096 * (s.jobTables job).length

/-- The snapshot unit reads a job's tables (R14, R17). -/
def State.readTables (s : State) (job : Nat) : State :=
  ((s.jobTables job).flatMap fun t => (List.range 64).map fun i => t + 64 * i).foldl (fun s pa =>
    if s.inMain pa then s.unitRead (queueOfSrc snapSrc) snapSrc 0 pa else s) s

/-- The bytes of a block in an image: header, data, poison map, tag (R438). -/
def blockBytes (poison : Nat) : Nat := 64 + 2 ^ 21 + (if poison = 0 then 0 else 4096) + 16

/-- The bytes of an image before its blocks: header, record and tree with their tags (R438). -/
def headBytes (record tree : Nat) : Nat := 4096 + (record + 16) + (tree + 16)

/-- The bytes of an image of a job's set, without poison maps. -/
def State.imageSize (s : State) (job : Nat) (ranges : List Nat) : Nat :=
  headBytes (s.recordSize job ranges) (s.tableBytes job) + (s.snapSet job).length * blockBytes 0

/-- The image goes to the buddy, and to the host (R442). -/
def State.toBuddy (s : State) : Bool := s.get Reg.SNAP.BUDDY_VALID == 1
def State.toHost (s : State) : Bool := !s.toBuddy || s.get Reg.SNAP.HOST_ALSO == 1

/-- The blocks that lie in core stores. -/
def inStore (b : Nat × Nat) : Bool := decide (csBase ≤ b.2) && decide (b.2 < hostBase)

/-- BUDDY_SIZE on the buddy, which MEM_LAYOUT sets there and no packet tells this device: free (R439, R483; log entry 121). -/
def State.buddyRoom (s : State) : Nat := Config.openValue 121 (3 * s.freeCtr + 2)

/-- Two images fit the buddy's area, and the core-store blocks fit the reserve (R432, R439). -/
def State.snapRoom (s : State) (job : Nat) (ranges : List Nat) : Bool :=
  (!s.toBuddy || decide (2 * s.imageSize job ranges ≤ s.buddyRoom)) &&
    decide (((s.snapSet job).filter inStore).length * 2 ^ 21 ≤ s.get Reg.SNAP.RESERVE_SIZE)

/-! ### The open (R431, R432, R495) -/

/-- RESULT0 of an open: SAME_FEED, HOST_ALSO, TO_HOST (R495). -/
def State.feedBits (s : State) : Nat :=
  s.get Reg.SNAP.SAME_FEED + 2 * s.get Reg.SNAP.HOST_ALSO + 4 * ofBool (!s.toBuddy)

/-- A snapshot is asked for, or open, or a restore is under way. -/
def State.snapBusy (s : State) : Bool := s.snap.isOpen || s.snap.asked.isSome || s.snap.restoring.isSome

/-- SNAP_OPEN: the device accepts the open and waits for the job to be parked. -/
def State.doSnapOpen (r : Req) (snapId va hostAt hostSize tCut : Nat) (s : State) : State × Answer :=
  if hostAt % 64 ≠ 0 then (s, just stBADPARAM)
  else match s.jobFails r with
  | some st => (s, just st)
  | none =>
    if s.snapBusy then (s, just stBUSY)
    else match s.readParam r va 64 with
      | (s, .inl st) => (s, just st)
      | (s, .inr b) =>
        let ranges := (List.range 16).map fun k => field b (4 * k) 4
        let job := r.job.toNat
        let s := s.readTables job
        if !rangesOk ranges then (s, just stBADPARAM)
        else if !s.snapRoom job ranges then (s, just stNOSPACE)
        else
          let ask : SnapAsk := ⟨r, snapId, ranges, hostAt, hostSize, tCut, s.now⟩
          let s := { s.letWait r with snap := { s.snap with asked := some ask } }
          (s.puts [(Reg.SNAP.STATUS_STATE, 1), (Reg.SNAP.STATUS_JOB, job), (Reg.SNAP.STATUS_SNAP_ID, snapId)], none)

/-- SNAP_OPEN: the lead chooses T_CUT, its device time at relay, and sends it with the entry (log entry 33). -/
def execSnapOpen (r : Req) (snapId : BitVec 32) (va hostAt hostSize : BitVec 64) (s : State) : Out :=
  whenLive s fun s => s.serve r .all false
    (fun d => mkEntry 0x0202 r d [(16, 4, snapId.toNat), (24, 8, va.toNat), (32, 8, hostAt.toNat), (40, 8, hostSize.toNat),
      (48, 8, s.now)])
    (State.doSnapOpen r snapId.toNat va.toNat hostAt.toNat hostSize.toNat s.now)

/-- An instruction that a parked stream may hold: undispatched, of the ISSUE queue, waiting on a latch (R431). -/
def Insn.parked (i : Insn) : Bool := !i.dispatched && queueOf i.op == 7 && i.waitV && !i.waitOk

/-- The job is parked (R431). -/
def State.isParked (s : State) (job : Nat) : Bool :=
  ((s.coresOf job).all fun n => (s.streamState n == 1 || s.streamState n == 3) && (s.core n).window.all Insn.parked) &&
    !(s.runs.any fun x => x.job == job) &&
    !(s.agate.waiting.any fun c => s.jobOf c.core == job) &&
    !(s.batches.any fun b => b.ofJob job) &&
    !(s.net.monTags.any fun e => s.jobOf (s.get (Reg.BARRIER.MON_CORE e.1)) == job)

/-- Where a core's stream resumes: at the oldest undispatched instruction, or at PC (R432). -/
def State.resumePc (s : State) (n : Nat) : Nat :=
  match (s.core n).window.find? (fun i => !i.dispatched) with
  | some i => i.pc
  | none => s.get (Reg.CORE.PC n)

/-- What the record keeps of a core beside registers (R432). -/
def State.coreRec (s : State) (n : Nat) : CoreRec :=
  ⟨n, s.jobOf n, s.resumePc n, (s.core n).slots, (s.core n).tabF, (s.core n).tabD⟩

/-- The fields that the record of a job holds. -/
def State.recordFields (s : State) (job : Nat) (ranges : List Nat) : List Fld :=
  (s.coreList.flatMap fun n => recordOffs.flatMap fun o => Reg.fieldsAt (coreBase n + o)) ++
    (s.recordLatches job ranges).map Reg.LATCH.latch ++
    ((rangeBarriers ranges).flatMap fun c => Reg.fieldsAt (0xA0000 + 16 * c) ++ Reg.fieldsAt (0xA0008 + 16 * c)) ++
    recordUnits.flatMap Reg.fieldsAt

/-- Capture the state record, without clearing a counter (R432). -/
def State.captureRecord (s : State) (job : Nat) (ranges : List Nat) : StateRec :=
  let words := fun (x : Nat) => (List.range 7).map fun k => (x * 8 + k, BitVec.ofNat 64 (s.ctx (x / 4096) (x % 4096) k))
  { cores := s.coreList.map s.coreRec,
    fields := (s.recordFields job ranges).map fun f => (f, s.get f),
    contexts := (s.jobChannels job).flatMap words,
    size := s.recordSize job ranges }

/-! ### The image (R438, R442, R517) -/

/-- The words of a core at register offsets. -/
def State.regWords (s : State) (n : Nat) (offs : List Nat) : Bytes :=
  offs.flatMap fun o => bytesOf 8 ((Reg.fieldsAt (coreBase n + o)).map fun f => s.get f * 2 ^ f.lo).sum

/-- The image of a table of a core (R109). -/
def tableBytesOf (t : List (Nat × BitVec 64)) : Bytes := (List.range 392).flatMap fun k => bytesOf 8 (lookupD 0 k t).toNat

/-- The bytes of the record for one core, in the order of the table (R432). -/
def State.coreBytes (s : State) (n : Nat) : Bytes :=
  let c := s.core n
  bytesOf 8 (s.streamState n) ++ bytesOf 8 (s.jobOf n) ++ bytesOf 8 (s.resumePc n) ++ bytesOf 8 (s.get (Reg.CORE.TAG_NEXT n)) ++
    ((List.range 4096).flatMap fun k => bytesOf 128 (lookupD 0 k c.slots).toNat) ++
    s.regWords n ((List.range 17).map (0x1F000 + 8 * ·)) ++
    ((List.range 16).flatMap fun k => bytesOf 4 (s.get (Reg.CORE.LOOP_COUNT n k))) ++
    s.regWords n ((List.range 256).map (0x1E000 + 8 * ·)) ++ tableBytesOf c.tabF ++ tableBytesOf c.tabD ++
    s.regWords n [0x5068, 0x5060, 0x1F088, 0x1F128, 0x6800, 0x1F100, 0x1F108, 0x1F110, 0x5070, 0x5078, 0x5080]

/-- The latches of a record in 8-byte words, rising, a bit for each of them (R432). -/
def State.latchBytes (s : State) (job : Nat) (ranges : List Nat) : Bytes :=
  let l := s.recordLatches job ranges
  ((l.map (· / 64)).foldl (fun a w => setInsert w a) []).flatMap fun w =>
    bytesOf 8 ((l.filter fun x => x / 64 == w).map fun x => s.get (Reg.LATCH.latch x) * 2 ^ (x % 64)).sum

/-- A register as a word. -/
def State.wordAt (s : State) (off : Nat) : Bytes := bytesOf 8 ((Reg.fieldsAt off).map fun f => s.get f * 2 ^ f.lo).sum

/-- The bytes of the state record, in the order of the table, core by core (R432; log entry 121). -/
def State.recordBytes (s : State) (job : Nat) (ranges : List Nat) : Bytes :=
  s.coreList.flatMap s.coreBytes ++ s.latchBytes job ranges ++
    ((rangeBarriers ranges).flatMap fun c => s.wordAt (0xA0000 + 16 * c) ++ s.wordAt (0xA0008 + 16 * c)) ++
    ((s.jobChannels job).flatMap fun x => (List.range 7).flatMap fun k => bytesOf 8 (s.ctx (x / 4096) (x % 4096) k)) ++
    recordUnits.flatMap s.wordAt

/-- What AES-256-GCM works on: the key, the 96-bit nonce, the associated data and the plain text (R438, R506). -/
def gcmInput (x : Image) (unit : Nat) (aad plain : Bytes) : Bytes :=
  x.key.getD [] ++ bytesOf 12 (unit % 2 ^ 32 + x.nonceBase * 2 ^ 32) ++ bytesOf 8 aad.length ++ aad ++ plain

/-- A unit of an image as it travels: the associated data in the clear, the cipher text, the tag (R438). -/
def sealUnit (x : Image) (unit : Nat) (aad plain : Bytes) : Bytes :=
  let g := gcmInput x unit aad plain
  aad ++ slice 0 plain.length (Config.crypto 116 0 g) ++ slice 0 16 (Config.crypto 117 0 g)

/-- The bytes 0 to 4,079 of an image's header (R438). -/
def Image.header (x : Image) (serial blocks : Nat) : Bytes :=
  bytesOf 4 x.snapId ++ bytesOf 2 x.cutStep ++ bytesOf 1 x.cutRun ++ bytesOf 1 x.origin ++ bytesOf 8 serial ++ bytesOf 8 x.tCut ++
    bytesOf 1 x.job ++ bytesOf 1 x.slot ++ bytesOf 2 0 ++ bytesOf 4 blocks ++ bytesOf 8 x.record.size ++ bytesOf 8 x.treeBytes ++
    bytesOf 8 x.memTop ++ bytesOf 8 x.nonceBase ++ List.replicate 4016 0

/-- The bytes of a block before they are encrypted: its header, and its data with the poison map (R438). -/
def ImageBlock.head (b : ImageBlock) : Bytes := bytesOf 8 (b.va * 2 ^ 21) ++ bytesOf 4 b.poison.length ++ List.replicate 52 0
def ImageBlock.body (b : ImageBlock) : Bytes :=
  b.data ++ (if b.poison.isEmpty then [] else bytesOf 4096 (b.poison.map fun i => 2 ^ i).sum)

/-- Whole sectors that hold bytes. -/
def padSectors (b : Bytes) : Bytes := slice 0 (64 * ceilDiv b.length 64) b

/-- Count image bytes that leave (R438). -/
def State.sendBytes (s : State) (n : Nat) : State :=
  (({ s with snap := { s.snap with bytes := s.snap.bytes + n } } : State).inc Reg.SNAP.BYTES_SENT n).inc
    (Reg.MOVER.WRITE_BYTES 9) n

/-- The sectors of a unit go out as WRITEs of at most 2,048 bytes; the last one asks for its acknowledgement (R312, R439; log entry
121). -/
def State.imageWrites (s : State) (dst va : Nat) (data : Bytes) (blk : Bool) : State :=
  let n := ceilDiv data.length 2048
  let tag := s.doors.nextTag
  let s := (List.range n).foldl (fun s i =>
    let p := (data.drop (2048 * i)).take 2048
    s.sendReq 5 1 { s.hdr copySrc dst 0 (va + 2048 * i) (p.length / 64) with
      ackReq := i + 1 == n, tag := BitVec.ofNat 16 tag } p) s
  { s with doors := { s.doors with nextTag := (tag + 1) % 65536 }, snap := { s.snap with acks := s.snap.acks ++ [(tag, blk)] } }

/-- A block has been sent to a host that acknowledges nothing (R442, R448; log entry 121). -/
def State.postedBlock (s : State) : State := s.put Reg.SNAP.BLOCKS_SENT (s.get Reg.SNAP.BLOCKS_SENT + 1)

/-- The bytes of a unit go to the host's area: over the own link when it is trained, else through the lead, at an address that is
free (R442; log entry 121). -/
def State.toHostArea (s : State) (x : Image) (b : Bytes) (blk : Bool) : State :=
  if s.get Reg.GEN.LINK_UP = 1 then
    let s := s.hostPost (x.hostAddr + x.offset) b
    if blk ∧ !x.toBuddy then s.postedBlock else s
  else s.imageWrites s.lead (imageVa (2 + s.dev) + x.offset / 64 * 64) (padSectors (x.tail ++ b)) (blk && !x.toBuddy)

/-- A unit leaves for the image's destinations, behind what has been written before; it begins in the sector in which the unit
before it ends, which is sent again with it (R438, R442; log entry 121). -/
def State.imageUnit (s : State) (b : Bytes) (blk : Bool) : State :=
  match s.snap.image with
  | none => s
  | some x =>
    let s := if x.toBuddy then
        s.imageWrites (s.get Reg.SNAP.BUDDY_DEVICE) (imageVa x.slot + x.offset / 64 * 64) (padSectors (x.tail ++ b)) blk
      else s
    let s := if x.toHost then s.toHostArea x b blk else s
    let rest := fun (x : Image) =>
      { x with offset := x.offset + b.length, tail := (x.tail ++ b).drop ((x.tail ++ b).length / 64 * 64) }
    ({ s with snap := { s.snap with image := s.snap.image.map rest } } : State).sendBytes b.length

/-- The header, the record and the table tree leave (R438); which unit index the header's tag takes is free (log entry 121). -/
def State.writeHead (s : State) (x : Image) (ranges : List Nat) (blocks : Nat) : State :=
  let h := x.header s.kept.serial blocks
  let tag := slice 0 16 (Config.crypto 117 0 (gcmInput x (Config.openValue 121 (3 * s.freeCtr + 1)) h []))
  let tree := (s.jobTables x.job).flatMap fun t => s.bytes t 4096
  let record := s.recordBytes x.job ranges
  (((s.draw.readTables x.job).imageUnit (h ++ tag) false).imageUnit (sealUnit x 0 [] record) false).imageUnit
    (sealUnit x 1 [] tree) false

/-- A block leaves for the destination (R438). -/
def State.sendBlock (s : State) (b : ImageBlock) : State :=
  match s.snap.image with
  | none => s
  | some x =>
    let add := fun (x : Image) => { x with blocks := x.blocks ++ [b], unit := x.unit + 1 }
    let s := { s with snap := { s.snap with image := s.snap.image.map add } }
    s.imageUnit (sealUnit x x.unit b.head b.body) true

/-! ### The copies of blocks (R432, R434, R436, R437) -/

/-- Mover 9 may issue the reads of a block: at most 65,536 are outstanding (R264). -/
def State.readRoom (s : State) : Bool := decide (s.outstanding 9 + 32768 ≤ 65536)

/-- The reads of a block of main memory go out through mover 9 (R434). -/
def State.issueReads (s : State) (job pa : Nat) : State :=
  if s.inMain pa then (List.range 32768).foldl (fun s i => s.unitRead 17 copySrc job (pa + 64 * i)) s else s

/-- Some read of a block has not returned. -/
def State.readsOut (s : State) (pa : Nat) : Bool :=
  s.reqOut fun r => r.src == copySrc && !r.write && r.pa / 2 ^ 21 == pa / 2 ^ 21

/-- What the read of a sector has brought. -/
def State.sectorRead (s : State) (job pa : Nat) : State × Bytes × Bool :=
  if inHost pa then (s.draw, s.hostBytes (s.hostAddr job pa) 64, false) else (s, s.bytes pa 64, s.poisonedIn pa 64)

/-- The sectors of a block from sector i on, n of them: the data, with zeros for poisoned sectors, and the poisoned sectors,
those among them whose reads came back so (R437). -/
def State.readBlock (s : State) (job pa : Nat) (bad : List Nat) : Nat → Nat → State × List Bytes × List Nat
  | 0, _ => (s, [], [])
  | n + 1, i =>
    match s.sectorRead job (pa + 64 * i) with
    | (s, b, p) =>
      let p := p || bad.contains i
      let s := if p then s.inc Reg.SNAP.POISONED_SECT 1 else s
      match State.readBlock s job pa bad n (i + 1) with
      | (s, l, q) => (s, (if p then List.replicate 64 0 else b) :: l, if p then i :: q else q)

/-- What the copy of a block holds (R434, R437). -/
def State.captureBlock (s : State) (job va pa : Nat) (bad : List Nat) : State × ImageBlock :=
  match s.readBlock job pa bad 32768 0 with
  | (s, l, q) => (s.inc (Reg.MOVER.READ_BYTES 9) (2 ^ 21), ⟨va, pa, l.flatten, q⟩)

/-- The lowest place of 2 MiB of the reserve that is free; where a place begins (R436, R483; log entry 121). -/
def State.freePlace (s : State) : Nat :=
  ((List.range (s.snap.reserve.length + 1)).find? fun k => !(s.snap.reserve.any fun e => e.1 == k)).getD 0
def State.placeAt (s : State) (k : Nat) : Nat := s.get Reg.SNAP.RESERVE_BASE + k * 2 ^ 21

/-- Mover 9 writes one sector of the reserve (R14, R17). -/
def State.reserveWrite (s : State) (pa : Nat) (data : Bytes) : State :=
  s.unitWrite { queue := 17, src := copySrc, job := 0, pa := pa, write := true, data := data.map some, poison := false,
                owner := .unit }

/-- A copied block goes into a place of the reserve (R432, R434). -/
def State.toReserve (s : State) (x : ImageBlock) : State :=
  let k := s.freePlace
  let base := s.placeAt k
  let s := (List.range 32768).foldl (fun s i => s.reserveWrite (base + 64 * i) (slice (64 * i) 64 x.data)) s
  ({ s with snap := { s.snap with reserve := s.snap.reserve ++ [(k, x)] } } : State).inc (Reg.MOVER.WRITE_BYTES 9) (2 ^ 21)

/-- What a block of the reserve holds when it is read back: a sector that has been marked there is poisoned too (R437). -/
def State.fromReserve (s : State) (base : Nat) (x : ImageBlock) : ImageBlock :=
  let bad := (List.range 32768).filter fun i => x.poison.contains i || s.poisonedIn (base + 64 * i) 64
  { x with poison := bad, data := (List.range 32768).flatMap fun i =>
    if bad.contains i then List.replicate 64 0 else s.bytes (base + 64 * i) 64 }

/-- The reserve has room for one more block, those on their way there counted (R436). -/
def State.reserveRoom (s : State) : Bool :=
  decide ((s.snap.reserve.length + (s.snap.blocks.filter fun b => b.state == 3).length + 1) * 2 ^ 21 ≤
    s.get Reg.SNAP.RESERVE_SIZE)

/-- Note since when the reserve is full (R436). -/
def State.noteReserve (s : State) : State :=
  let since := if !s.snap.isOpen || s.reserveRoom then none
    else match s.snap.reserveFullSince with
      | some t => some t
      | none => some s.now
  { s with snap := { s.snap with reserveFullSince := since } }


/-- Copy the core-store blocks of the set into the reserve, DONE at once (R432, R434). -/
def State.copyStores (s : State) (job : Nat) : List (Nat × Nat) → State
  | [] => s
  | b :: l =>
    match s.captureBlock job b.1 b.2 [] with
    | (s, x) => State.copyStores ((s.toReserve x).inc Reg.SNAP.BLOCKS_COPIED 1) job l

/-- Open the snapshot: record, tree, core-store blocks, registers (R431, R432, R434, R438). -/
def State.openSnap (s : State) (a : SnapAsk) : State :=
  let job := a.r.job.toNat
  let set := s.snapSet job
  let slot := if s.get Reg.SNAP.LAST_VALID = 1 then 1 - s.get Reg.SNAP.LAST_SLOT else 0
  let record := s.captureRecord job a.ranges
  let image : Image :=
    { snapId := a.snapId, slot := slot, job := job, origin := s.dev, memTop := s.memTop, tCut := a.tCut,
      cutStep := s.stepNow, cutRun := s.runNow, nonceBase := s.dev * 2 ^ 58 + Config.random s.freeCtr % 2 ^ 58,
      key := s.sec.csk, record := record, tree := s.leaves job, treeBytes := s.tableBytes job, blocks := [],
      toHost := s.toHost, toBuddy := s.toBuddy, hostAddr := a.hostAddr, unit := 2 }
  let block := fun (b : Nat × Nat) => (⟨b.1, b.2, if inStore b then 2 else 0, false, 0, []⟩ : Block)
  let s := { s.draw with snap := { s.snap with
    isOpen := true, asked := none, blocks := set.map block, heldWrites := [], reserve := [], ready := [],
    reserveFullSince := none, image := some image, acks := [], opener := some a.r, bytes := 0, heldNs := 0 } }
  let s := s.puts [(Reg.SNAP.STATUS_STATE, 2), (Reg.SNAP.STATUS_SLOT, slot), (Reg.SNAP.T_CUT, a.tCut),
    (Reg.SNAP.CUT_STEP, image.cutStep), (Reg.SNAP.CUT_RUN, image.cutRun), (Reg.SNAP.BLOCKS_TOTAL, set.length),
    (Reg.SNAP.BLOCKS_COPIED, 0), (Reg.SNAP.BLOCKS_SENT, 0), (Reg.SNAP.PARK_NS, s.now - a.at_)]
  let s := s.copyStores job (set.filter inStore)
  ((s.writeHead image a.ranges set.length).noteReserve).finish a.r stSUCCESS s.feedBits 0

/-- The open is given up: the status that its command completes with (R431, R439). -/
def State.refuseOpen (s : State) (a : SnapAsk) (status : Nat) : State :=
  (({ s with snap := { s.snap with asked := none } } : State).put Reg.SNAP.STATUS_STATE 0).finish a.r status 0 0

/-- Once the job is parked, the snapshot opens, or is refused for want of space; when 1 ms is over, it is too late (R431). -/
def State.park (s : State) : State :=
  match s.snap.asked with
  | none => s
  | some a =>
    if a.at_ + 1000000 < s.now then s.refuseOpen a stNOTPARKED
    else if !s.isParked a.r.job.toNat then s
    else if s.snapRoom a.r.job.toNat a.ranges then s.openSnap a
    else s.refuseOpen a stNOSPACE

/-- SNAP_PARK. -/
def execSnapPark (s : State) : Out := whenLive s State.park

/-- SNAP_PARK_TIMEOUT: the job is not parked within 1 ms (R431). -/
def State.parkLate (s : State) : State :=
  match s.snap.asked with
  | none => s
  | some a =>
    let s := s.passTo (a.at_ + 1000000)
    if s.isParked a.r.job.toNat then s else s.refuseOpen a stNOTPARKED

/-- SNAP_PARK_TIMEOUT. -/
def execSnapParkTimeout (s : State) : Out := whenLive s State.parkLate

/-! ### The copies (R434 to R437) -/

/-- A touched PENDING block, which goes ahead of the sweep. -/
def Block.urgent (b : Block) : Bool := b.touched && b.state == 0

/-- Replace the state of block i. -/
def State.setBlock (s : State) (i st : Nat) : State :=
  let f := fun (b : Block) => { b with state := st }
  { s with snap := { s.snap with blocks := s.snap.blocks.modify i f } }

/-- Block i is COPYING: on its way to the destination (1) or into the reserve (3), from the issue of its first read on
(R434). -/
def State.startCopy (s : State) (i st pa : Nat) : State := (s.setBlock i st).issueReads (s.get Reg.SNAP.STATUS_JOB) pa

/-- The block of the sweep's turn: the first PENDING one that no write waits for (R434). -/
def State.sweepNext (s : State) : Option Nat := s.snap.blocks.findIdx? fun b => b.state == 0 && !b.touched

/-- SNAP_SWEEP_COPY: the next PENDING block in ascending order, behind the reserve and the touched blocks that the reserve
has room for (R434, R436). -/
def State.sweepCopy (s : State) : State :=
  if !s.snap.isOpen ∨ !s.snap.reserve.isEmpty ∨ (s.reserveRoom ∧ s.snap.blocks.any Block.urgent) ∨ !s.readRoom then s
  else match s.sweepNext with
    | some i => s.startCopy i 1 (s.snap.blocks[i]?.elim 0 Block.pa)
    | none => s

/-- SNAP_SWEEP_COPY. -/
def execSnapSweepCopy (s : State) : Out := whenLive s State.sweepCopy

/-- The touched block whose turn it is: the one of the first held write (R434). -/
def State.touchNext (s : State) : Option Nat :=
  (s.snap.heldWrites.find? fun h => s.snap.blocks.any fun b => b.urgent && b.va == h.unit).map Held.unit

/-- SNAP_TOUCH_COPY: block i, the touched one whose write has been held longest, goes into the reserve once that has 2 MiB
free (R434 to R436). -/
def State.touchCopy (s : State) (i : Nat) : State :=
  match s.snap.blocks[i]? with
  | none => s
  | some b =>
    if !s.snap.isOpen ∨ !b.urgent ∨ s.touchNext ≠ some b.va ∨ !s.reserveRoom ∨ !s.readRoom then s
    else ((s.startCopy i 3 b.pa).inc Reg.SNAP.TOUCH_COPIES 1).noteReserve

/-- SNAP_TOUCH_COPY. -/
def execSnapTouchCopy (i : Nat) (s : State) : Out := whenLive s fun s => s.touchCopy i

/-- A swept block is sent, or waits behind the blocks of the reserve (R436). -/
def State.sendSwept (s : State) (x : ImageBlock) : State :=
  if s.snap.reserve.isEmpty then s.sendBlock x else { s with snap := { s.snap with ready := s.snap.ready ++ [x] } }

/-- Once the reserve is empty, the swept blocks that waited are sent (R436). -/
def State.sendReady (s : State) : State :=
  if s.snap.reserve.isEmpty then s.snap.ready.foldl State.sendBlock { s with snap := { s.snap with ready := [] } } else s

/-- SNAP_BLOCK_DONE: the last read of block i has returned; its held writes are released together (R434, R435). -/
def State.blockDone (s : State) (i : Nat) : State :=
  match s.snap.blocks[i]? with
  | none => s
  | some b =>
    if !s.snap.isOpen ∨ (b.state ≠ 1 ∧ b.state ≠ 3) ∨ s.readsOut b.pa then s
    else match s.captureBlock (s.get Reg.SNAP.STATUS_JOB) b.va b.pa b.bad with
      | (s, x) =>
        let s := (s.setBlock i 2).put Reg.SNAP.BLOCKS_COPIED (s.get Reg.SNAP.BLOCKS_COPIED + 1)
        let s := if b.state = 3 then s.toReserve x else s.sendSwept x
        ((s.releaseHeld b.va).settleAll).noteReserve

/-- SNAP_BLOCK_DONE. -/
def execSnapBlockDone (i : Nat) (s : State) : Out := whenLive s fun s => s.blockDone i

/-- RESERVE_DRAIN: the oldest block of the reserve goes to the destination and frees its space (R436). -/
def State.drain (s : State) : State :=
  match s.snap.reserve with
  | [] => s
  | (k, b) :: rest =>
    if !s.snap.isOpen ∨ !s.readRoom then s
    else
      let x := s.fromReserve (s.placeAt k) b
      let s := ((s.issueReads 0 (s.placeAt k)).inc (Reg.MOVER.READ_BYTES 9) (2 ^ 21)).inc Reg.SNAP.POISONED_SECT
        (x.poison.length - b.poison.length)
      ((({ s with snap := { s.snap with reserve := rest } } : State).sendBlock x).sendReady).noteReserve

/-- RESERVE_DRAIN. -/
def execReserveDrain (s : State) : Out := whenLive s State.drain

/-! ### Completion and advice (R439, R443) -/

/-- The rounded square root of num / den. -/
def roundSqrt (num den : Nat) : Nat := (Nat.sqrt (4 * num / den) + 1) / 2

/-- The mean time between the last 64 verdicts, as its sum and how many intervals it holds. -/
def State.verdictSpan (s : State) : Nat × Nat :=
  let l := s.agate.verdictTimes.take 64
  (l.headD 0 - l.getLastD 0, l.length - 1)

/-- The advice of R443 for a cost: OBS_H, EVENTS, ADVISE_MS and ADVISE_STEPS. Where there is no mean time between
verdicts, ADVISE_STEPS is a free value. -/
def State.advise (s : State) (cost : Nat) : State :=
  let obs := s.observedHours
  let events := s.restoreCount
  let num := cost * (obs + s.get Reg.SNAP.PRIOR_H) * 7200
  let den := 1000 * (events + 1)
  let (span, k) := s.verdictSpan
  let steps := if span = 0 then Config.openValue 47 s.freeCtr else roundSqrt (num * 10 ^ 12 * k ^ 2) (den * span ^ 2)
  s.draw.puts [(Reg.SNAP.OBS_H, obs), (Reg.SNAP.EVENTS, events), (Reg.SNAP.ADVISE_MS, min (2 ^ 32 - 1) (roundSqrt num den)),
    (Reg.SNAP.ADVISE_STEPS, min (2 ^ 32 - 1) steps)]

/-- SNAP_COMPLETE: every block is DONE and sent, and the destination has acknowledged the last unit. The greatest cost of
the other members is given; the lead, or a device alone, computes the advice (R439, R443). -/
def State.completeSnap (s : State) (memberCost : Nat) : State :=
  match s.snap.image with
  | none => s
  | some x =>
    if !s.snap.isOpen ∨ !s.snap.reserve.isEmpty ∨ !s.snap.ready.isEmpty ∨ !s.snap.acks.isEmpty ∨
        s.snap.blocks.any (fun b => b.state != 2) then s
    else
      let cost := s.get Reg.SNAP.PARK_NS + s.snap.heldNs + s.snap.bytes / 24580
      let s := { s with snap := { s.snap.closed with current := some x } }
      let s := s.puts [(Reg.SNAP.STATUS_STATE, 0), (Reg.SNAP.LAST_VALID, 1), (Reg.SNAP.LAST_SLOT, x.slot),
        (Reg.SNAP.LAST_SNAP_ID, x.snapId), (Reg.SNAP.T_COMPLETE, s.now), (Reg.SNAP.COST_NS, cost)]
      let s := s.inc Reg.SNAP.COMPLETED 1
      let s := if s.get Reg.SNAP.NOTIFY_V = 1 then s.sendLatch snapSrc (s.get Reg.SNAP.NOTIFY) true none else s
      if s.isMember then s else s.advise (max cost memberCost)

/-- SNAP_COMPLETE. -/
def execSnapComplete (memberCost : BitVec 64) (s : State) : Out := whenLive s fun s => s.completeSnap memberCost.toNat

/-! ### The end of an open snapshot (R431, R440) -/

/-- The lead cancels an open that some device refused: nothing is counted (R431). -/
def State.cancelOpen (s : State) : State :=
  match s.snap.asked with
  | some a => s.refuseOpen a stNOTPARKED
  | none =>
    if s.snap.isOpen then
      let s := s.snap.blocks.foldl (fun s b => s.releaseHeld b.va) s
      ({ s with snap := s.snap.closed } : State).put Reg.SNAP.STATUS_STATE 0
    else s

/-- SNAP_ABANDON: cause 1 is the loss of the buddy, whose image is gone with it; cause 2 is the lead's cancelling of the open;
every other cause is an FE of the origin (R431, R440). -/
def State.endSnap (s : State) (cause : Nat) : State :=
  let s := if cause = 1 then
      (({ (s.abandonSnap true) with snap := { (s.abandonSnap true).snap with current := none } } : State).put
        Reg.SNAP.LAST_VALID 0).put Reg.SNAP.BUDDY_LOST 1
    else if cause = 2 then s.cancelOpen
    else s.abandonSnap false
  s.settleAll

/-- SNAP_ABANDON. -/
def execSnapAbandon (cause : BitVec 3) (s : State) : Out := whenLive s fun s => s.endSnap cause.toNat

/-! ### Restore (R444 to R446, R496) -/

/-- Write one sector of a block: its data, or the poison mark (R437, R445). -/
def State.restoreSector (s : State) (job pa : Nat) (data : Bytes) (poison : Bool) : State :=
  if inHost pa then s.hostPost (s.hostAddr job pa) data
  else s.unitWrite { queue := 17, src := copySrc, job := job, pa := pa, write := true, data := data.map some, poison := poison,
                     owner := .unit }

/-- Write one block at its address, through mover 9. -/
def State.restoreBlock (job : Nat) (s : State) (b : ImageBlock) : State :=
  let s := (s.inc (Reg.MOVER.READ_BYTES 9) (2 ^ 21)).inc (Reg.MOVER.WRITE_BYTES 9) (2 ^ 21)
  (List.range 32768).foldl (fun s i => s.restoreSector job (b.pa + 64 * i) (slice (64 * i) 64 b.data) (b.poison.contains i)) s

/-- Write the image's tree as the job's tables; none where the pool is exhausted (R445). -/
def State.restoreTree (s : State) (job : Nat) (tree : List (Nat × Nat × Nat)) : Option State :=
  let root := s.get (Reg.XLAT.JOB_ROOT job) * 4096
  let keep := s.host.tables.filter fun t => t.2 ≠ job || t.1 == root
  ((({ s with host := { s.host with tables := keep } } : State).zeroTable root).putLeaves job tree).map fun s => s.invalAll job

/-- A field belongs to a core's block. -/
def Fld.ofCore (f : Fld) (n : Nat) : Bool := decide (coreBase n ≤ f.off) && decide (f.off < coreBase n + 0x20000)

/-- A field of the record is put back: not one of a core whose stream was of another job, and of Agate and the expert router
what software may write (R446). -/
def State.putBack (s : State) (mine : List Nat) (f : Fld) : Bool :=
  if 0x100000 ≤ f.off ∧ f.off < 0x200000 then mine.any fun n => f.ofCore n && s.present n
  else if 0x380000 ≤ f.off then f.acc == .rw
  else true

/-- Put back one core of the job: halted at RESUME_PC, with its slots and tables; its launch slots move by the time from
the cut to T_RESUME (R446). -/
def State.restoreCore (tCut tResume : Nat) (s : State) (c : CoreRec) : State :=
  let n := c.core
  let k := { s.core n with slots := c.slots, marks := [], window := [], fetched := [], fetchPc := c.resumePc,
                           endSeen := false, watching := [], tabF := c.tabF, tabD := c.tabD, idleSince := none }
  let s := (s.setCore n k).puts [(Reg.CORE.STREAM_STATE n, 4), (Reg.CORE.STREAM_FAULT n, 0), (Reg.CORE.PC n, c.resumePc)]
  ((List.range 16).filter (bitOf (s.get (Reg.CORE.LSLOT_VALID n)))).foldl (fun s i =>
    s.put (Reg.CORE.LSLOT_TIME n i) (s.get (Reg.CORE.LSLOT_TIME n i) + tResume + 2 ^ 64 - tCut)) s

/-- Apply the state record (R446). -/
def State.applyRecord (s : State) (x : Image) (tResume : Nat) : State :=
  let mine := (x.record.cores.filter fun c => c.job == x.job && s.present c.core)
  let s := s.puts (x.record.fields.filter fun e => s.putBack (mine.map CoreRec.core) e.1)
  let s := mine.foldl (State.restoreCore x.tCut tResume) s
  let s := x.record.contexts.foldl (fun s e => { s with contexts := sparseSet 0 e.1 e.2 s.contexts }) s
  let s := { s with host := { s.host with killed := setErase x.job s.host.killed } }
  s.put Reg.AGATE.STEP_STATE 0

/-- The header of an image matches the command and the device (R444). -/
def State.imageFits (s : State) (x : Image) (job snapId : Nat) : Bool :=
  x.snapId == snapId && x.origin == s.dev && x.job == job && x.memTop == s.memTop

/-- The image that stands at the place a command names: the one that this device has completed, where it went there; else what a
replacement device finds at the buddy, or any device in the host's area, which is free (R444, R496; log entry 63). -/
def State.imageAt (s : State) (source hostAt : Nat) : Option Image :=
  match s.snap.current with
  | none => Config.foundImage s.freeCtr
  | some x =>
    if source = 0 then (if x.toBuddy then some x else none)
    else if x.toHost ∧ x.hostAddr = hostAt then some x else Config.foundImage s.freeCtr

/-- The job is halted on the other devices of the configuration, which no packet tells: free (R444; log entry 63). -/
def State.haltedElsewhere (s : State) : Bool := s.others.isEmpty || Config.openValue 63 (2 * s.freeCtr) % 2 == 0

/-- The unit of an image whose tag fails, which is free: the header, the record or the tree (below 3), a block, or none (R445; log
entry 63). -/
def State.failingUnit (s : State) (blocks : Nat) : Nat := Config.openValue 63 (2 * s.freeCtr + 1) % (blocks + 4)

/-- The tree of an image has been written as the job's tables: the invalidation of its entries goes first, and then the blocks
and the record (R445). -/
def State.awaitRestore (s : State) (r : Req) (x : Image) (tResume fails : Nat) : State :=
  let y : Restore := ⟨r, x, tResume, if fails < x.blocks.length + 3 then some (fails - 3) else none⟩
  ({ (s.letWait r) with snap := { s.snap with restoring := some y } } : State).put Reg.SNAP.STATUS_STATE 3

/-- The invalidation is over: each block is written after its tag has been verified, up to one that fails, and the record is applied
(R445, R446). -/
def State.goOnRestore (s : State) : State :=
  match s.snap.restoring with
  | none => s
  | some y =>
    let s := ({ s with snap := { s.snap with restoring := none } } : State).put Reg.SNAP.STATUS_STATE 0
    match y.fails with
    | some k => ((y.image.blocks.take k).foldl (State.restoreBlock y.r.job.toNat) s).finish y.r stAUTH 0 0
    | none =>
      ((y.image.blocks.foldl (State.restoreBlock y.r.job.toNat) s).applyRecord y.image y.tResume).finish y.r stSUCCESS 0 0

/-- INVALIDATION_DONE: every access through a dropped entry has completed (R187, R445). -/
def execInvalidationDone (s : State) : Out :=
  whenLive s fun s => match s.overInval with
    | none => s
    | some x => (s.closeInval x).goOnRestore

/-- RESTORE. -/
def State.doRestore (r : Req) (snapId source hostAt tResume : Nat) (s : State) : State × Answer :=
  let job := r.job.toNat
  if 1 < source ∨ (source = 1 ∧ hostAt % 64 ≠ 0) then (s, just stBADPARAM)
  else match s.jobFails r with
  | some st => (s, just st)
  | none =>
    if s.snapBusy then (s, just stBUSY)
    else if (s.coresOf job).any fun n => s.streamState n == 1 || !(s.core n).window.isEmpty then (s, just stNOTHALTED)
    else if !s.haltedElsewhere then (s.draw, just stNOTHALTED)
    else match s.imageAt source hostAt with
      | none => (s.draw, just stMISMATCH)
      | some x =>
        let fails := s.failingUnit x.blocks.length
        if !s.imageFits x job snapId then (s.draw, just stMISMATCH)
        else if x.key.isNone ∨ x.key ≠ s.sec.csk ∨ fails < 3 then (s.draw, just stAUTH)
        else match s.draw.restoreTree job x.tree with
          | none => (s.draw, just stNOTABLES)
          | some s => (s.awaitRestore r x tResume fails, none)

/-- RESTORE. -/
def execRestore (r : Req) (snapId : BitVec 32) (source : BitVec 8) (hostAt tResume : BitVec 64) (s : State) : Out :=
  whenLive s fun s => s.serve r .target false
    (fun d => mkEntry 0x0203 r d [(16, 4, snapId.toNat), (20, 1, source.toNat), (24, 8, hostAt.toNat), (32, 8, tResume.toNat)])
    (State.doRestore r snapId.toNat source.toNat hostAt.toNat tResume.toNat)

end Sys2Proof.Machine
end

