-- ==== Sys2Proof/Machine/SelfTest.lean ====
section
/-!
DEFINITION. Machine/SelfTest.lean: the tests of tiles, cores and sleds, casement calibration, and retirement by command
(R105, R107, R260, R329, R419 to R424, R499 to R501).
-/

namespace Sys2Proof.Machine

/-! ### What a test waits for (R422, R423, R499, R500) -/

/-- A test has another one's object: a tile test waits behind a tile test of its core, and behind a whole-core test that
runs; a whole-core test likewise; sled tests share a window, calibrations a casement (R423, R499). -/
def TestSt.behind (x y : TestSt) : Bool :=
  if x.kind = 1 ∨ x.kind = 2 then
    (y.kind == 1 || y.kind == 2) && x.core == y.core && (x.kind == y.kind || y.running)
  else if x.kind = 5 then y.kind == 5 && x.mask &&& y.mask != 0
  else (y.kind == 3 || y.kind == 4) && x.mask &&& y.mask != 0

/-- A core is quiesced (R499). -/
def State.quiet (s : State) (n : Nat) : Bool :=
  s.streamState n != 1 && (s.core n).window.isEmpty && !(s.runs.any fun r => r.m == n)

/-- Main memory is quiesced (R499). -/
def State.memQuiet (s : State) : Bool :=
  s.coreList.all s.quiet && s.get Reg.AGATE.STEP_STATE == 0 && s.batches.isEmpty && !s.snap.isOpen && s.get Reg.GEN.BAR4_EN == 0

/-- A casement's spare pair is free, and no calibration runs on it (R329, R500). -/
def State.spareFree (s : State) (c : Nat) : Bool :=
  s.get (Reg.CASE.SPARE_STATE c) == 0 && s.get (Reg.CASE.CAL_STATE c) != 1

/-- The bits of a mask. -/
def bitsIn (n mask : Nat) : List Nat := (List.range n).filter (bitOf mask)

/-- The condition of a test (R500). A window that retrains is tested once it is up again, and one that is DOWN stays so (R245,
R249, R260). -/
def State.testReady (s : State) (x : TestSt) : Bool :=
  if x.kind = 1 then true
  else if x.kind = 2 then s.quiet x.core
  else if x.kind = 5 then (bitsIn 16 x.mask).all s.spareFree
  else s.memQuiet && (bitsIn 32 x.mask).all fun w => s.get (Reg.WIN.STATE w) == 4

/-- Zero and unpoison a physical range that a test has written over. -/
def State.wipe (s : State) (p : Nat → Bool) : State :=
  { s with mem := s.mem.filter fun e => !p e.1, poison := s.poison.filter fun u => !p (32 * u) }

/-- What a whole-core test leaves: core store, slots and loop counters zero, generators at the state that a zero load gives,
tables invalid, stream idle (R424, R500). The model does this at the start: outside accesses are held until the end of the
test, and so come after it. -/
def State.clearCore (s : State) (n : Nat) : State :=
  let s := s.wipe fun pa => decide (storePa n 0 ≤ pa) && decide (pa < storePa (n + 1) 0)
  let s := s.setCore n { s.core n with slots := [], marks := [], fetched := [], tabF := [], tabD := [], heldGen := [],
                                       badWords := (s.core n).badWords.filter fun k => decide (4096 ≤ k) && decide (k < 4112) }
  let s := (List.range 16).foldl (fun s k => s.put (Reg.CORE.LOOP_COUNT n k) 0) s
  let s := (List.range 256).foldl (fun s l => s.put (Reg.CORE.LANE_STATE n l) 0x9E3779B97F4A7C15) s
  s.puts [(Reg.CORE.ACT_FUNC_VALID n, 0), (Reg.CORE.ACT_DERIV_VALID n, 0), (Reg.CORE.STREAM_STATE n, 0)]

/-- A test starts: a tile is fenced; a core is cleared; windows enter TEST, and the destructive kind leaves every sector of
theirs zero and unpoisoned; casements calibrate (R105, R260, R329, R500). -/
def State.beginTest (s : State) (x : TestSt) : State :=
  if x.kind = 1 then s.fenceWrite x.core .test (2 ^ x.tile)
  else if x.kind = 2 then s.clearCore x.core
  else if x.kind = 5 then (bitsIn 16 x.mask).foldl (fun s c => s.put (Reg.CASE.CAL_STATE c) 1) s
  else
    let s := if x.kind = 4 then s.wipe fun pa => s.inMain pa && bitOf x.mask (s.locate pa).1 else s
    (bitsIn 32 x.mask).foldl (fun s w => s.put (Reg.WIN.STATE w) 6) s

/-- A tile test ends with RETIRED where its tile is retired meanwhile, or the core with its last tile (R107, R500). -/
def State.tileGone (s : State) (x : TestSt) : Bool :=
  x.kind == 1 && (s.tileState x.core x.tile == 3 || (s.core x.core).retired)

/-- Complete the command of a test, if it has one. -/
def State.endTest (s : State) (x : TestSt) (status r0 : Nat) : State :=
  match x.r with
  | some r => s.finish r status r0 0
  | none => s

/-- The core that an event of a test names. -/
def TestSt.coreOf (x : TestSt) : Nat := if x.kind = 1 ∨ x.kind = 2 then x.core else 0xFF

/-- An event about a test that a command asked for: TEST_PENDING or TEST_START (R482, R499). -/
def State.testEvent (s : State) (x : TestSt) (code : Nat) : State :=
  match x.r with
  | some r => s.event code r.job.toNat x.coreOf r.cmdId.toNat 0
  | none => s

/-- Run a test now that is in the list at its end, or in its place. -/
def State.runTest (s : State) (before : List TestSt) (x : TestSt) (after : List TestSt) : State :=
  let now := { x with running := true }
  let s := ({ s with host := { s.host with tests := before ++ now :: after } } : State).beginTest now
  if s.tileGone now then ({ s with host := { s.host with tests := before ++ after } } : State).endTest now stRETIRED 0 else s

/-- A casement whose spare is granted holds its calibration (R329). -/
def State.holdCal (s : State) (x : TestSt) : State :=
  if x.kind = 5 then
    (bitsIn 16 x.mask).foldl (fun s c => if s.get (Reg.CASE.SPARE_STATE c) = 1 then s.put (Reg.CASE.CAL_STATE c) 2 else s) s
  else s

/-- A test is asked for: it runs, or it is held as pending and reported so (R422, R499). -/
def State.askTest (s : State) (x : TestSt) : State :=
  if s.testReady x ∧ !(s.host.tests.any fun y => x.behind y) then s.runTest s.host.tests x []
  else
    let s := match x.r with
      | some r => s.letWait r
      | none => s
    (({ s with host := { s.host with tests := s.host.tests ++ [x] } } : State).testEvent x 4).holdCal x

/-! ### TEST, CALIBRATE, and what follows (R499, R500) -/

/-- What keeps a test from being taken at all (R478, R500). -/
def State.testFails (s : State) (kind core tile windows : Nat) : Option Nat :=
  if kind = 1 ∨ kind = 2 then
    if 7 < core ∨ (kind = 1 ∧ 7 < tile) then some stBADPARAM
    else if !s.present core then some stNOCORE
    else if (s.core core).retired ∨ (kind = 1 ∧ s.tileState core tile = 3) then some stRETIRED
    else none
  else if kind = 3 ∨ kind = 4 then
    if windows = 0 ∨ (bitsIn 32 windows).any (fun w => !s.winOpen w) then some stBADPARAM else none
  else some stBADPARAM

/-- TEST. -/
def State.doTest (r : Req) (kind core tile windows : Nat) (s : State) : State × Answer :=
  match s.testFails kind core tile windows with
  | some st => (s, just st)
  | none => (s.askTest ⟨some r, kind, core, tile, windows, false⟩, none)

/-- TEST. -/
def execTest (r : Req) (kind core tile : BitVec 8) (windows : BitVec 32) (s : State) : Out :=
  whenLive s fun s => s.serve r .target false
    (fun d => mkEntry 0x0300 r d [(16, 1, kind.toNat), (17, 1, core.toNat), (18, 1, tile.toNat), (20, 4, windows.toNat)])
    (State.doTest r kind.toNat core.toNat tile.toNat windows.toNat)

/-- CALIBRATE. -/
def State.doCalibrate (r : Req) (casements : Nat) (s : State) : State × Answer :=
  if casements = 0 then (s, just stSUCCESS) else (s.askTest ⟨some r, 5, 0, 0, casements, false⟩, none)

/-- CALIBRATE. -/
def execCalibrate (r : Req) (casements : BitVec 16) (s : State) : Out :=
  whenLive s fun s => s.serve r .target false (fun d => mkEntry 0x0301 r d [(16, 2, casements.toNat)])
    (State.doCalibrate r casements.toNat)

/-- The length of the periods in each of which a tile is tested once: an hour, or a minute while it is under observation (R419,
R423). -/
def State.testPeriod (s : State) (n t : Nat) : Nat := if s.tileState n t = 1 then 60000000000 else hourNs

/-- Sill firmware's own test of a tile is due: it has not tested it in this period (R419, R423). -/
def State.testDue (s : State) (n t : Nat) : Bool :=
  match s.host.tileTests.find? (fun e => e.1 == 8 * n + t) with
  | some e => e.2 / s.testPeriod n t != s.now / s.testPeriod n t
  | none => true

/-- PERIODIC_TILE_TEST: Sill firmware fences a tile for its own test, once in each hour, or minute (R419, R423). -/
def execPeriodicTileTest (c : CoreIx) (t : Fin 8) (s : State) : Out :=
  whenLive s fun s =>
    if s.present c.val ∧ s.tileState c.val t.val < 2 ∧ !(s.core c.val).retired ∧ s.testDue c.val t.val then
      ({ s with host := { s.host with tileTests := assocPut (8 * c.val + t.val) s.now s.host.tileTests } } : State).askTest
        ⟨none, 1, c.val, t.val, 0, false⟩
    else s

/-- TEST_START: the pending test at place i starts when its condition holds and no test before it has its object (R499). -/
def State.startTest (s : State) (i : Nat) : State :=
  match s.host.tests[i]? with
  | none => s
  | some x =>
    let before := s.host.tests.take i
    let after := s.host.tests.drop (i + 1)
    if x.running ∨ !s.testReady x ∨ before.any (fun y => x.behind y) ∨ after.any (fun y => y.running && x.behind y) then s
    else (s.testEvent x 5).runTest before x after

/-- TEST_START. -/
def execTestStart (i : Nat) (s : State) : Out := whenLive s fun s => s.startTest i

/-- A tile test has failed: its record, which counts the failure as an event of the tile, and the retirement of the tile at once
(R420, R423). It is no residue or parity event, and so brings no observation (R419, R429). -/
def State.tileFails (s : State) (n t : Nat) : State :=
  let k := s.recentEvents n 2 t + 1
  let s := s.ce n 2 0x28 (obsSynd t k)
  if s.tileState n t = 3 ∨ (s.core n).retired then s else s.retireTile n t k

/-- A tile test ends (R423): one that passes unfences its tile. -/
def State.tileTestEnd (s : State) (x : TestSt) (pass : Bool) : State :=
  if s.tileGone x then s.endTest x stRETIRED 0
  else if pass then (s.fenceWrite x.core .unfence (2 ^ x.tile)).endTest x stSUCCESS 0
  else (s.tileFails x.core x.tile).endTest x stTESTFAIL 0

/-- A whole-core test ends (R421, R424, R500): the tiles that failed are named by bits 0 to 7; a core that fails is
retired. -/
def State.coreTestEnd (s : State) (x : TestSt) (pass : Bool) (failing : Nat) : State :=
  if pass then s.endTest x stSUCCESS 0
  else
    let s := (bitsIn 8 failing).foldl (fun s t => s.tileFails x.core t) s
    (if (s.core x.core).retired then s else s.retireCore x.core).endTest x stTESTFAIL 0

/-- A sled test ends (R260, R500): the windows leave TEST; failing channels are reported, and a record stands under each
window's source. -/
def State.sledTestEnd (s : State) (x : TestSt) (pass : Bool) (failing : Nat) : State :=
  let s := (bitsIn 32 x.mask).foldl (fun s w => if s.get (Reg.WIN.STATE w) = 6 then s.put (Reg.WIN.STATE w) 4 else s) s
  if pass then s.endTest x stSUCCESS 0
  else ((bitsIn 32 x.mask).foldl (fun s w => s.ce (0x100 + w) 8 0x28 0) s).endTest x stTESTFAIL failing

/-- A test of a tile that still waits for the end of a sweep has not begun (R105). -/
def State.fenceWaits (s : State) (x : TestSt) : Bool :=
  x.kind == 1 && (s.core x.core).fences.any fun f => f.1 == .test && f.2 == x.tile

/-- TEST_DONE: the running test at place i ends. A calibration ends with CALIBRATION_DONE. -/
def State.finishTest (s : State) (i : Nat) (pass : Bool) (failing : Nat) : State :=
  match s.host.tests[i]? with
  | none => s
  | some x =>
    if !x.running ∨ x.kind = 5 ∨ s.fenceWaits x then s
    else
      let s := { s with host := { s.host with tests := s.host.tests.eraseIdx i } }
      if x.kind = 1 then s.tileTestEnd x pass
      else if x.kind = 2 then s.coreTestEnd x pass failing
      else s.sledTestEnd x pass failing

/-- TEST_DONE. -/
def execTestDone (i : Nat) (pass : Bool) (failing : BitVec 40) (s : State) : Out :=
  whenLive s fun s => s.finishTest i pass failing.toNat

/-- Casement c is done in a calibration command; the command completes with its last casement. -/
def State.calPart (s : State) (c : Nat) : State :=
  match s.host.tests.find? (fun x => x.kind == 5 && x.running && bitOf x.mask c) with
  | none => s
  | some x =>
    let y := { x with mask := x.mask - 2 ^ c }
    if y.mask = 0 then ({ s with host := { s.host with tests := s.host.tests.erase x } } : State).endTest x stSUCCESS 0
    else { s with host := { s.host with tests := mapIf (fun z => z == x) (fun _ => y) s.host.tests } }

/-- CALIBRATION_DONE (R329). -/
def execCalibrationDone (c : CaseIx) (s : State) : Out :=
  whenLive s fun s =>
    if s.get (Reg.CASE.CAL_STATE c.val) = 1 then
      ((s.put (Reg.CASE.CAL_STATE c.val) 0).inc (Reg.CASE.CAL_CNT c.val) 1).calPart c.val
    else s

/-! ### RETIRE (R501) -/

/-- The stored retirements of a core end at the next PERST#. -/
def State.clearRetired (s : State) (n : Nat) : State :=
  { s with kept := { s.kept with retireClear := setInsert n s.kept.retireClear } }

/-- RETIRE. -/
def State.doRetire (kind core tile : Nat) (s : State) : State × Answer :=
  if kind = 0 ∨ 3 < kind ∨ 7 < core ∨ (kind = 1 ∧ 7 < tile) then (s, just stBADPARAM)
  else if !s.present core then (s, just stNOCORE)
  else if kind = 3 then (s.clearRetired core, just stSUCCESS)
  else if kind = 2 then
    if s.streamState core = 1 ∨ !(s.core core).window.isEmpty then (s, just stBUSY)
    else if (s.core core).retired then (s, just stRETIRED)
    else (s.retireCore core, just stSUCCESS)
  else if (s.core core).retired ∨ s.tileState core tile = 3 then (s, just stRETIRED)
  else (s.retireTile core tile (s.recentEvents core 2 tile), just stSUCCESS)

/-- RETIRE. -/
def execRetire (r : Req) (kind core tile : BitVec 8) (s : State) : Out :=
  whenLive s fun s => s.serve r .target false
    (fun d => mkEntry 0x0302 r d [(16, 1, kind.toNat), (17, 1, core.toNat), (18, 1, tile.toNat)])
    (State.doRetire kind.toNat core.toNat tile.toNat)

end Sys2Proof.Machine
end

