-- ==== Sys2Proof/Machine/Security.lean ====
section
/-!
DEFINITION. Machine/Security.lean: the security block (chapter 19): its boot, its alarms, the exchange of the snapshot key,
attestation and patch tables, and the forming of a configuration (R480, R502 to R504, R506 to R525).
-/

namespace Sys2Proof.Machine

/-- The security block's source number (R21). -/
def secSrc : Nat := 0x406

/-- Draw a number from the security block's random source. -/
def State.drawn (s : State) : Nat := s.freeCtr

/-! ### Boot of the security block (R509, R511, R512) -/

/-- The identity key is derived and matches its certificate, or the device carries none (R508, R509, R522). -/
def State.bootIdentity (s : State) (idOk : Bool) : State :=
  if idOk ∧ !s.kept.identityDead then
    let s := { s.draw with sec := { s.sec with akSeed := some s.drawn } }
    (s.puts [(Reg.SEC.ID_VALID, 1), (Reg.SEC.AK_VALID, 1)]).inc Reg.SEC.SIGN_CNT 1
  else s.puts [(Reg.SEC.ID_VALID, 0), (Reg.SEC.AK_VALID, 0), (Reg.FW.NO_IDENTITY, 1)]

/-- SECURITY_READY: the start-up tests, the check and measurement of the mask ROM, the boot count, the identity; after it Sill
firmware starts. Which test failed is not an operand: its number is a free value (R425, R511, R512, R525). -/
def State.securityReady (s : State) (katOk romOk idOk : Bool) : State :=
  if s.get Reg.SEC.READY = 1 ∨ s.get Reg.FW.STAGE ≠ 0 then s
  else if !katOk then (s.raiseFE secSrc 0x13 0x30 (0x40 + Config.openValue 48 s.freeCtr % 16)).draw
  else
    let s := { s with kept := { s.kept with bootCount := min (2 ^ 32 - 1) (s.kept.bootCount + 1) } }
    if !romOk then s.raiseFE secSrc 0x13 0x30 0
    else (s.bootIdentity idOk).puts [(Reg.SEC.READY, 1), (Reg.FW.STAGE, 1)]

/-- SECURITY_READY. -/
def execSecurityReady (katOk romOk idOk : Bool) (s : State) : Out := whenLive s fun s => s.securityReady katOk romOk idOk

/-! ### Alarms and the shutter (R521 to R524) -/

/-- The level of a sensor: never below its floor (R521, R525). -/
def State.alarmLevel (s : State) (k : Nat) : Nat := max (alarmFloor k) (s.get Reg.SEC.ALARM_CTL_LEVEL / 4 ^ k % 4)

/-- Erase the keys: the shutter drop (R508, R522). -/
def State.eraseKeys (s : State) : State :=
  ({ s with sec := { s.sec with akSeed := none, csk := none, peers := [] }, host := { s.host with newKey := none } } : State).puts
    [(Reg.SEC.ID_VALID, 0), (Reg.SEC.AK_VALID, 0), (Reg.SEC.CSK_VALID, 0), (Reg.SEC.CSK_ID, 0), (Reg.WIN.HASH_KEY 0, 0)]

/-- The alarm level is latched; level 3 blows the fuse that ends the identity (R522, R524). -/
def State.latchAlarm (s : State) (level : Nat) : State :=
  { s with kept := { s.kept with alarmLevels := max s.kept.alarmLevels level,
                                 identityDead := s.kept.identityDead || decide (level = 3) } }

/-- Sensors trip: the highest of their levels acts, and LAST_ALARM holds the lowest sensor. While PERST# is asserted the
level is latched, and nothing else comes about (R522 to R524). -/
def State.tamper (s : State) (sensors : Nat) : State :=
  let hit := bitsIn 8 sensors
  let level := (hit.map s.alarmLevel).foldl max 0
  if !s.sec.powered then s
  else if s.phase = .perst then (if hit.isEmpty then s else s.latchAlarm level)
  else if hit.isEmpty then s.put Reg.SEC.SENSORS 0
  else
    let s := ((s.latchAlarm level).inc Reg.SEC.NOTICE_CNT 1).puts [(Reg.SEC.SENSORS, sensors),
      (Reg.SEC.LAST_ALARM_TIME, s.now), (Reg.SEC.LAST_ALARM_LEVEL, level), (Reg.SEC.LAST_ALARM_SENSOR, hit.headD 0)]
    if level < 2 then s
    else if s.phase = .up then
      (s.eraseKeys).raiseFE secSrc 0x13 0x30 (hit.headD 0 + level * 2 ^ 4 + 2 ^ 7)
    else s.eraseKeys

/-- TAMPER_TRIP: in every phase, since the security block is powered from VAUX (R521). -/
def execTamperTrip (sensors : BitVec 8) (s : State) : Out := .next ((s.tamper sensors.toNat).keeping s)

/-! ### The exchange of the snapshot key (R513 to R516) -/

/-- The bytes of IDCERT: 416 words (R525). -/
def State.idCertBytes (s : State) : Bytes := bytesOf 3328 s.kept.idCert

/-- Where an exchange slot begins, by device number: its virtual address in job 0 (R512, R513). -/
def slotAddr (d : Nat) : Nat := 0x10000000000 + 8192 * d

/-- The bytes of the slot that a peer writes into, from an offset. -/
def State.slotBytesAt (s : State) (peer off n : Nat) : Bytes :=
  match s.exchangePa 0 (slotAddr peer + off) with
  | some pa => s.bytes pa n
  | none => []

/-- The security block reads bytes of the slot that a peer writes into, sector by sector, through their windows (R14, R17, R513). -/
def State.slotRead (s : State) (peer off n : Nat) : State :=
  (sectorsOf (slotAddr peer + off) n).foldl (fun s e =>
    match s.exchangePa 0 e.1 with
    | some pa => if s.inMain pa then s.unitRead (queueOfSrc secSrc) secSrc 0 pa else s
    | none => s) s

/-- Send one WRITE of at most 32 sectors into this device's slot on a peer (R513). -/
def State.slotWrite (s : State) (peer off : Nat) (b : Bytes) : State :=
  let h := { s.hdr secSrc peer 0 (slotAddr s.dev + off) (b.length / 64) with
    ackReq := true, tag := BitVec.ofNat 16 s.doors.nextTag }
  (({ s with doors := { s.doors with nextTag := (s.doors.nextTag + 1) % 65536 } } : State).sendReq 0x13 1 h b)

/-- The header of a peer message (R513). -/
def State.peerHeader (s : State) (kind length : Nat) : Bytes :=
  bytesOf 1 kind ++ bytesOf 3 0 ++ bytesOf 4 length ++ bytesOf 1 s.dev ++ bytesOf 7 0 ++ bytesOf 8 s.kept.serial ++ bytesOf 40 0

/-- Send a peer message: body first, its header sector last (R513). -/
def State.sendPeer (s : State) (peer kind : Nat) (body : Bytes) : State :=
  let b := padSectors body
  let pieces := ceilDiv b.length 2048
  let s := (List.range pieces).foldl (fun s i => s.slotWrite peer (64 + 2048 * i) ((b.drop (2048 * i)).take 2048)) s
  s.slotWrite peer 0 (s.peerHeader kind body.length)

/-- Note how far the exchange with a peer is. -/
def State.setPeer (s : State) (peer step draw : Nat) (nonce : Bytes) : State :=
  { s with sec := { s.sec with peers := assocPut peer (step, draw, nonce) s.sec.peers } }

/-- The draw and the nonce of the exchange with a peer. -/
def State.peerDraw (s : State) (peer : Nat) : Nat := (lookupD (0, 0, []) peer s.sec.peers).2.1
def State.peerNonce (s : State) (peer : Nat) : Bytes := (lookupD (0, 0, []) peer s.sec.peers).2.2

/-- End the exchange with a peer: its transport keys are erased (R514). -/
def State.dropPeer (s : State) (peer : Nat) : State :=
  { s with sec := { s.sec with peers := s.sec.peers.filter fun e => e.1 ≠ peer } }

/-- M1 goes to a member, with a fresh nonce (R514). -/
def State.sendM1 (s : State) (peer : Nat) : State :=
  let nonce := bytesOf 32 (Config.random s.drawn)
  ((s.draw).setPeer peer 1 s.drawn nonce).sendPeer peer 1 nonce

/-- The serial number in the header that stands in a peer's slot (R513). -/
def State.peerSerial (s : State) (peer : Nat) : Bytes := s.slotBytesAt peer 16 8

/-- M1 has come: M2 answers it with the certificate, a fresh encapsulation key and a signature; a device without identity
answers nothing (R509, R514). -/
def State.sendM2 (s : State) (peer : Nat) : State :=
  if s.get Reg.SEC.ID_VALID = 0 then s
  else
    let n := s.drawn
    let nonce := s.slotBytesAt peer 64 32
    let ek := slice 0 1568 (Config.crypto 110 n [])
    let sig := slice 0 1280 (Config.crypto 3 n (nonce ++ bytesOf 8 s.kept.serial ++ s.peerSerial peer ++ ek))
    ((s.draw.setPeer peer 2 n nonce).inc Reg.SEC.SIGN_CNT 1).sendPeer peer 2 (s.idCertBytes ++ ek ++ sig)

/-- The key-encryption key of an exchange: from the shared secret and the nonce (R514). -/
def kek (z nonce : Bytes) : Bytes := slice 0 32 (Config.crypto 5 0 (z ++ nonce))

/-- The key that this device gives out: the one a forming has drawn, or the one in force (R515, R516). -/
def State.outKey (s : State) : Option Bytes :=
  match s.host.newKey with
  | some k => some k
  | none => s.sec.csk

/-- M2 has passed its checks: M3 carries the certificate, the ciphertext, the wrapped key and a signature (R514). -/
def State.sendM3 (s : State) (peer : Nat) (key : Bytes) : State :=
  let n := s.drawn
  let nonce := s.peerNonce peer
  let ek := s.slotBytesAt peer (64 + 3328) 1568
  let ct := slice 0 1568 (Config.crypto 111 n ek)
  let wrapped := slice 0 40 (Config.crypto 112 0 (kek (slice 0 32 (Config.crypto 114 n ek)) nonce ++ key))
  let sig := slice 0 1280 (Config.crypto 4 n (nonce ++ s.peerSerial peer ++ bytesOf 8 s.kept.serial ++ ct ++ wrapped))
  ((s.draw.inc Reg.SEC.SIGN_CNT 1).sendPeer peer 3 (s.idCertBytes ++ ct ++ wrapped ++ sig)).dropPeer peer

/-- A check of a peer's message fails: which one is not an operand, so its number is a free value; it counts the
verifications up to it (R514, R515, R525). -/
def State.peerFails (s : State) (peer : Nat) : State :=
  let reason := [1, 2, 5].getD (Config.openValue 49 s.freeCtr % 3) 1
  ((s.draw.inc Reg.SEC.VERIFY_CNT (if reason = 1 then 1 else 2)).verifyFail 3 peer reason).dropPeer peer

/-- Answer a part of CONFIG_FORM on a device that may not be a member yet (R505, R515). -/
def State.answerForm (s : State) (lead : Nat) (r : Req) (status : Nat) : State :=
  s.sendPkt 9 (s.hdr 0x400 lead 0 (2 + 16 * r.ring.toNat) 1)
    (completionBytes r.cmdId.toNat status 0 r.ring.toNat s.dev 0 0 false ++ bytesOf 32 0)

/-- This device's part of a forming is over: the lead learns how. -/
def State.answerPart (s : State) (lead status : Nat) : State :=
  match s.host.forming with
  | some f =>
    let s := { s with host := { s.host with forming := none } }
    s.answerForm lead f.r status
  | none => s

/-- M3 has come: the key of a forming waits for it to take effect; a device that is re-admitted has it at once (R514 to
R516). -/
def State.gotM3 (s : State) (peer : Nat) (ok : Bool) : State :=
  if !ok then ((s.peerFails peer).answerPart peer stAUTH)
  else
    let z := slice 0 32 (Config.crypto 115 (s.peerDraw peer) (s.slotBytesAt peer (64 + 3328) 1568))
    let wrapped := s.slotBytesAt peer (64 + 3328 + 1568) 40
    let key := slice 0 32 (Config.crypto 113 0 (kek z (s.peerNonce peer) ++ wrapped))
    let s := (s.inc Reg.SEC.VERIFY_CNT 2).dropPeer peer
    if s.host.forming.isSome then
      ({ s with host := { s.host with newKey := some key } } : State).answerPart peer stSUCCESS
    else s.installKey key

/-- M2 has come to the device that gives the key (R514, R515). -/
def State.gotM2 (s : State) (peer : Nat) (ok : Bool) : State :=
  match s.outKey with
  | none => s.dropPeer peer
  | some key =>
    if ok then (s.inc Reg.SEC.VERIFY_CNT 2).sendM3 peer key
    else
      let s := s.peerFails peer
      match s.host.forming with
      | some f => s.partDone f.r.ring.toNat f.r.cmdId.toNat peer stAUTH 0 0
      | none => s

/-- The message of this peer that the exchange waits for (R514). -/
def State.peerStep (s : State) (peer : Nat) : Nat :=
  match s.sec.peers.find? (fun e => e.1 = peer) with
  | some (_, st, _) => st + 1
  | none => 1

/-- PEER_MESSAGE: the header sector of a message stands in the peer's slot, and the security block takes its step; ok tells
whether the checks of M2 or M3 pass (R513, R514). -/
def State.peerMessage (s : State) (peer step : Nat) (ok : Bool) : State :=
  if s.get Reg.SEC.READY = 0 then s
  else
    let head := s.slotBytesAt peer 0 64
    let s := s.slotRead peer 0 64
    if slice 0 1 head ≠ bytesOf 1 step ∨ s.peerStep peer ≠ step then s
    else
      let s := s.slotRead peer 64 (min 8128 (field head 4 4))
      if step = 1 then s.sendM2 peer
      else if step = 2 then s.gotM2 peer ok
      else if step = 3 then s.gotM3 peer ok
      else s

/-- PEER_MESSAGE. -/
def execPeerMessage (peer : BitVec 6) (step : BitVec 3) (ok : Bool) (s : State) : Out :=
  whenLive s fun s => s.peerMessage peer.toNat step.toNat ok

/-! ### CONFIG_FORM (R36, R39, R325, R480, R515, R516) -/

/-- The feed identities with this device's own strap. -/
def State.ownFeeds (s : State) (feeds : Nat) : Nat :=
  feeds - feedOf feeds s.dev * 16 ^ s.dev + s.kept.straps.feedId.toNat * 16 ^ s.dev

/-- Every device has answered: the new key is drawn, and its exchange begins with every other device; a device that forms
alone takes it at once (R515). -/
def State.beginForm (s : State) (f : Forming) : State :=
  let key := bytesOf 32 (Config.random s.drawn)
  let others := (devicesOf f.members).filter fun d => d ≠ s.dev
  let s := s.draw
  let s := { s with host := { s.host with forming := some f, newKey := some key } }
  if others.isEmpty then (s.commitForm f).finish f.r stSUCCESS 0 0
  else
    let x : Relay := ⟨f.r, others, 0, 0, 0, 0, true⟩
    let s := { s with host := { s.host with relayed := s.host.relayed ++ [x] } }
    others.foldl (fun s d => (s.sendForm f.r d f.members 0 0 0).sendM1 d) s

/-- MODE 1: devices that were lost are members again; time, buddies, and the key from the lowest member that holds it
(R39, R480, R516). -/
def State.rejoin (s : State) (f : Forming) : State :=
  let all := s.get (Reg.DOOR.MEMBERS 0)
  let back := devicesOf f.members
  let time := s.now + 1000000
  let s := { s with host := { s.host with forming := none, lostMembers := s.host.lostMembers.filter fun d => !back.contains d } }
  let s := { s with doors := { s.doors with feeds := back.foldl (fun l d => assocPut d (feedOf f.feeds d) l) s.doors.feeds } }
  let giver := ((devicesOf all).filter fun d => !back.contains d).headD s.dev
  let s := s.relayTo f.r (fun d => formEntry f.r d all 1 time f.feeds) (s.others ++ [s.dev]) true
  let s := if giver = s.dev then (if s.sec.csk.isSome then back.foldl State.sendM1 s else s)
    else s.sendForm f.r giver f.members 0xFD 0 0
  s.selectAgain.finish f.r stSUCCESS 0 0

/-- What CONFIG_FORM refuses (R479, R480, R509). -/
def State.formFails (s : State) (r : Req) (members mode : Nat) (dup : Bool) : Option Nat :=
  let formed := s.get (Reg.DOOR.FORMED 0) == 1
  if s.fe then some stFESTATE
  else if s.isMember then some stNOTLEAD
  else if r.target.toNat ≠ s.dev ∨ 1 < mode then some stBADPARAM
  else if mode = 0 then
    if formed then some stFORMED
    else if s.get Reg.SEC.ID_VALID = 0 then some stAUTH
    else if dup then some stBADPARAM
    else if s.host.forming.isSome then some stBUSY
    else none
  else if !formed then some stBUSY
  else if members = 0 ∨ (devicesOf members).any (fun d => !s.host.lostMembers.contains d) then some stBADPARAM
  else none

/-- CONFIG_FORM: answers holds the devices that answer over their routes; one that does not is waited for (R480). Sill firmware
that has failed does nothing for it (R428). -/
def State.configForm (s : State) (r : Req) (members mode answers : Nat) (dup : Bool) (greatest feeds : Nat) : State :=
  if s.host.sillDown then s
  else match s.formFails r members mode dup with
  | some st => s.pushDue r st 0 0 s.dev
  | none =>
    let all := if mode = 0 then members ||| 2 ^ s.dev else members
    let missing := (devicesOf all).filter fun d => d ≠ s.dev && !(bitOf answers d && (s.route d).isSome)
    let f : Forming := ⟨r, all, missing, greatest, s.ownFeeds feeds, s.now⟩
    let s := s.letWait r
    if !missing.isEmpty then { s with host := { s.host with forming := some f } }
    else if mode = 0 then s.beginForm f
    else s.rejoin f

/-- CONFIG_FORM. -/
def execConfigForm (r : Req) (members : BitVec 64) (mode : BitVec 8) (answers : BitVec 64) (dupNumber : Bool)
    (greatestNow : BitVec 64) (feeds : BitVec 256) (s : State) : Out :=
  whenLive s fun s => s.configForm r members.toNat mode.toNat answers.toNat dupNumber greatestNow.toNat feeds.toNat

/-- NO_ROUTE: a listed device has not answered within 10 ms, before the exchange or in it (R479, R480). -/
def State.noAnswer (s : State) (cmdId dev : Nat) : State :=
  match s.host.forming with
  | none => s
  | some f =>
    if f.r.cmdId.toNat ≠ cmdId ∨ s.isMember then s
    else if f.missing.contains dev then
      let s := s.passTo (f.since + 10000000)
      ({ s with host := { s.host with forming := none } } : State).finish f.r stNOROUTE 0 0
    else if s.host.relayed.any (fun x => x.of f.r.ring.toNat cmdId && x.waiting.contains dev) then
      let s := (s.passTo (f.since + 10000000)).dropPeer dev
      s.partDone f.r.ring.toNat cmdId dev stNOROUTE 0 0
    else s

/-- NO_ROUTE. -/
def execNoRoute (cmdId : BitVec 32) (dev : BitVec 6) (s : State) : Out :=
  whenLive s fun s => s.noAnswer cmdId.toNat dev.toNat

/-- A CONFIG_FORM entry comes from the lead, in the model's own form (log entry 33). -/
def State.gotForm (s : State) (lead : Nat) (r : Req) (e : Bytes) : State :=
  let members := field e 16 8
  let mode := field e 24 1
  let time := field e 25 7 + field e 10 1 * 2 ^ 56
  let feeds := field e 32 32
  let formed := s.get (Reg.DOOR.FORMED 0) == 1
  if formed ∧ mode ≠ 0 ∧ lead ≠ s.lead then s
  else if mode = 0 then
    if formed then s.answerForm lead r stFORMED
    else if s.get Reg.SEC.ID_VALID = 0 then s.answerForm lead r stAUTH
    else { s with host := { s.host with forming := some ⟨r, members, [], 0, 0, s.now⟩, newKey := none } }
  else if mode = 0xFE then
    if formed then s
    else
      let s := match s.host.newKey with
        | some k => s.installKey k
        | none => s
      ({ s with host := { s.host with forming := none, newKey := none } } : State).setConfig members lead time feeds
  else if mode = 0xFF then
    { s with host := { s.host with forming := none, newKey := none }, sec := { s.sec with peers := [] } }
  else if mode = 0xFD then (if s.sec.csk.isSome then (devicesOf members).foldl State.sendM1 s else s)
  else if mode = 0xFC then (if formed then s.putBuddy members feeds else s)
  else (if formed then s else s.setConfig members lead time feeds).answerForm lead r stSUCCESS

/-! ### ATTEST (R502, R511, R519, R520) -/

/-- Bytes 200 to 207: BOOT_COUNT and the fused minimum version; 208 to 215: the retired tiles (R519). -/
def State.retiredBytes (s : State) : Bytes :=
  ((List.range 8).map fun n => bytesOf 1 (if (s.core n).retired then 0xFF else s.get (Reg.ERR.OBS_RETIRED n))).flatten

/-- The SLED_IDs of the windows in the map (R519). -/
def State.sledBytes (s : State) : Bytes :=
  ((List.range 32).map fun w => bytesOf 8 (if bitOf (s.get (Reg.WIN.MAP_ACTIVE 0)) w then s.get (Reg.WIN.SLED_ID w) else 0)).flatten

/-- The patch table's digest (R519). -/
def State.patchDigest (s : State) : Bytes :=
  match s.host.patch with
  | some p => slice 0 64 (Config.crypto 100 0 p)
  | none => bytesOf 64 0

/-- Bytes 0 to 479 of the report (R519). -/
def State.reportHead (s : State) (nonce : Bytes) : Bytes :=
  let flags := s.get Reg.SEC.CSK_VALID + 2 * ofBool s.host.patch.isSome + 4 * s.get (Reg.DOOR.FORMED 0) + 8 * s.get (Reg.DOOR.IS_LEAD 0)
  bytesOf 1 1 ++ bytesOf 1 s.kept.alarmLevels ++ bytesOf 1 flags ++ bytesOf 1 s.dev ++ bytesOf 4 4864 ++
    bytesOf 8 s.kept.serial ++ bytesOf 1 s.kept.stepping ++ bytesOf 1 s.coreList.length ++
    bytesOf 1 ((s.coreList.map fun n => 2 ^ n).sum) ++ bytesOf 1 0 ++ bytesOf 4 (s.get Reg.SEC.VERSION) ++ bytesOf 8 s.now ++
    slice 0 32 nonce ++ slice 0 64 (Config.crypto 101 0 []) ++ s.patchDigest ++ bytesOf 8 (s.get (Reg.DOOR.MEMBERS 0)) ++
    bytesOf 4 s.kept.bootCount ++ bytesOf 4 s.kept.minVersion ++ s.retiredBytes ++ bytesOf 4 (s.get (Reg.WIN.MAP_ACTIVE 0)) ++
    bytesOf 4 0 ++ s.sledBytes

/-- The report, with the attestation key of a draw: its public key, its certificate, and the signature (R511, R519). -/
def State.report (s : State) (nonce : Bytes) (seed : Nat) : Bytes :=
  let head := s.reportHead nonce
  let body := head ++ slice 0 1793 (Config.crypto 120 seed []) ++ bytesOf 31 0
  let cert := slice 8 12 body ++ slice 64 64 body ++ slice 200 8 body ++ slice 480 1824 body
  let signed := body ++ slice 0 1280 (Config.crypto 1 seed cert)
  signed ++ slice 0 1280 (Config.crypto 2 s.freeCtr signed)

/-- ATTEST. -/
def State.doAttest (nonce : Bytes) (hostAt : Nat) (s : State) : State × Answer :=
  if hostAt % 64 ≠ 0 then (s, just stBADPARAM)
  else match s.sec.akSeed with
    | none => (s, just stAUTH)
    | some seed =>
      if s.get Reg.SEC.AK_VALID = 0 then (s, just stAUTH)
      else ((s.draw.inc Reg.SEC.SIGN_CNT 1).hostPost hostAt (s.report nonce seed), some (0, 4864, 0))

/-- ATTEST. -/
def execAttest (r : Req) (nonce : Bytes) (hostAt : BitVec 64) (s : State) : Out :=
  whenLive s fun s => s.serve r .target false
    (fun d => mkEntry 0x0303 r d [(16, 32, natOf (slice 0 32 nonce)), (48, 8, hostAt.toNat)]) (State.doAttest nonce hostAt.toNat)

/-! ### PATCH_LOAD (R503, R504) -/

/-- A hook is known: a command's opcode, or an internal routine (R503). -/
def hookKnown (h : Nat) : Bool := (cmdRow h).isSome || (decide (0xF000 ≤ h) && decide (h ≤ 0xF0FF))

/-- The form of a patch table (R503, R504): FORMAT, reserved bytes, counts that fit, hooks. -/
def patchFormOk (t : Bytes) (length : Nat) : Bool :=
  let n := field t 12 2
  let entries := field t 2 2
  field t 0 1 == 1 && field t 14 50 == 0 && decide (1 ≤ n) && decide (n ≤ 1280) && decide (entries ≤ 1024) &&
    decide (64 + 8 * entries + n ≤ length) &&
    (List.range entries).all fun i => hookKnown (field t (64 + 8 * i) 2) && field t (66 + 8 * i) 2 == 0

/-- The first check that a patch table fails, in the order of R504. -/
def State.patchFails (s : State) (t : Bytes) (length : Nat) : Option Nat :=
  let version := field t 4 4
  if 65536 < length ∨ field t 8 4 ≠ length ∨ !patchFormOk t length then some stBADPARAM
  else if field t 1 1 ≠ s.kept.stepping then some stSTEPPING
  else if version ≤ s.get Reg.SEC.VERSION ∨ version ≤ s.kept.minVersion then some stROLLBACK
  else none

/-- PATCH_LOAD: a table that passes is in force until PERST#. -/
def State.doPatchLoad (hostAt length : Nat) (table : Bytes) (s : State) : State × Answer :=
  let t := slice 0 length table
  if hostAt % 64 ≠ 0 then (s, just stBADPARAM)
  else match s.patchFails t length with
    | some st => (s, just st)
    | none =>
      let s := s.inc Reg.SEC.VERIFY_CNT 1
      if Config.verifies 7 t then
        (({ s with host := { s.host with patch := some t } } : State).put Reg.SEC.VERSION (field t 4 4), just stSUCCESS)
      else (s.verifyFail 1 0 2, just stAUTH)

/-- PATCH_LOAD: it waits until no other handler of classes 1 to 3 is in progress. -/
def execPatchLoad (r : Req) (hostAt : BitVec 64) (length : BitVec 32) (table : Bytes) (s : State) : Out :=
  whenLive s fun s =>
    if s.otherHandlers r ∧ r.target.toNat = s.dev then s
    else s.serve r .target false (fun d => mkEntry 0x0304 r d [(16, 8, hostAt.toNat), (24, 4, length.toNat)])
      (State.doPatchLoad hostAt.toNat length.toNat table)

end Sys2Proof.Machine
end

