-- ==== Sys2Proof/Machine/Power.lean ====
section
/-!
DEFINITION. Machine/Power.lean: reset and boot (chapter 20), the power manager and its sensors, the loss of the reference
(chapter 2), the telemetry of the I3C target, and the passing of time while no command waits.
-/

namespace Sys2Proof.Machine

/-! ### Resets (R531, R533, R534) -/

/-- Stored retirements whose end RETIRE has asked for end at PERST# (R501). -/
def Kept.atPerst (k : Kept) : Kept :=
  { k with retiredTiles := k.retiredTiles.filter fun e => !k.retireClear.contains e.1,
           retiredCores := k.retiredCores.filter fun n => !k.retireClear.contains n,
           retireClear := [], alarmLevels := 0 }

/-- Every domain of the device is reset: what a reset keeps is what has left the device, the image at its destination, and
the model's own counters (R534). -/
def State.domains (s : State) (phase : Phase) : State :=
  { State.reset with
    phase := phase, kept := s.kept, snap := { SnapSt.reset with current := s.snap.current },
    host := { HostSt.reset with out := s.host.out, cpl := s.host.cpl, msi := s.host.msi },
    sec := { SecSt.reset with powered := s.sec.powered }, freeCtr := s.freeCtr, pending := s.pending }

/-- PERST_ASSERT: an assertion longer than the filter's 100 ns (R534). -/
def execPerstAssert (ns : Nat) (s : State) : Out :=
  .next (if 100 < ns ∧ s.phase ≠ .perst then { s.domains .perst with kept := s.kept.atPerst } else s)

/-- EFFECTIVE_RELEASE: PERST# is released and its conditions hold: TIME.NOW starts at 0 and the straps are sampled (R531,
R535, R544). -/
def execEffectiveRelease (straps : Straps) (s : State) : Out :=
  .next (if s.phase = .perst then
    { s.domains .up with kept := { s.kept with straps := straps } } else s)

/-- The registers of the security block. -/
def secRegs (l : List (Nat × Nat)) : List (Nat × Nat) := l.filter fun e => decide (0x40000 * 64 ≤ e.1) && decide (e.1 < 0x50000 * 64)

/-- RAIL_DROP: rails 0 to 5 are VIN, VSTORE, VOPT, VOPH, VPCI and VAUX; every domain but the security block enters internal
reset, and no record is written (R526, R533). -/
def execRailDrop (rail : Fin 8) (percent ns : Nat) (s : State) : Out :=
  .next (if s.phase = .up ∧ rail.val < 5 ∧ percent < 90 ∧ 10000 < ns then
    { s.domains .railReset with sec := s.sec, regs := secRegs s.regs } else s)

/-- VAUX_WITHIN_RANGE: the security block powers up and its sensors are armed (R521, R545). -/
def execVauxWithinRange (s : State) : Out := .next { s with sec := { s.sec with powered := true } }

/-- REF_LOST: the reference is absent for more than 1 µs (R35). -/
def execRefLost (ns : Nat) (s : State) : Out :=
  whenLive s fun s =>
    if 1000 < ns ∧ s.get Reg.TIME.REF_LOST = 0 then (s.put Reg.TIME.REF_LOST 1).raiseFE 0x405 0x10 0x2A 0 else s

/-! ### Boot (R420, R483, R501, R535 to R537) -/

/-- Every casement has calibrated. -/
def State.allLit (s : State) : Bool := (List.range 16).all s.doors.calibrated.contains

/-- The boot stage moves to 4 once the rails are set and every casement has calibrated (R471). -/
def State.litStage (s : State) : State := if s.get Reg.FW.STAGE = 3 ∧ s.allLit then s.put Reg.FW.STAGE 4 else s

/-- A stored retirement of a tile mask is applied to a core (R420). -/
def State.applyTiles (s : State) (e : Nat × Nat) : State := (bitsIn 8 e.2).foldl (fun s t => s.putTile e.1 t 3) s

/-- A stored retirement of a core is applied (R501). -/
def State.applyCore (s : State) (n : Nat) : State :=
  (s.setCore n { s.core n with retired := true }).put (Reg.PWR.CSTAT_STATE n) 3

/-- RAILS_SET: fuses read, stored retirements applied, core rails and the store rail at 0.75 V, uncore rail at its set point,
LEND_EN set (R30, R535). -/
def State.setRails (s : State) : State :=
  if s.get Reg.FW.STAGE ≠ 1 ∨ s.fe then s
  else
    let s := s.kept.retiredTiles.foldl State.applyTiles s
    let s := s.kept.retiredCores.foldl State.applyCore s
    let s := s.coreList.foldl (fun s n => s.putRail n 750) s
    let s := { s with pwr := { s.pwr with uncoreMv := 750, storeMv := 750, optMv := (List.range 16).map fun c => (c, 900) } }
    (s.puts [(Reg.PWR.LEND_EN, 1), (Reg.FW.STAGE, 3)]).litStage

/-- RAILS_SET. -/
def execRailsSet (s : State) : Out := whenLive s State.setRails

/-- CASEMENT_CALIBRATE_BOOT: after its first good feed a casement selects feed A if good and otherwise B; not after the
windows have started (R535, R536). -/
def State.calibrateBoot (s : State) (c a b : Nat) : State :=
  if s.doors.calibrated.contains c ∨ 5 ≤ s.get Reg.FW.STAGE ∨ !(s.feedGood c a || s.feedGood c b) then s
  else
    let s := { s with doors := { s.doors with calibrated := setInsert c s.doors.calibrated } }
    (s.puts [(Reg.CASE.A_CDBM c, a), (Reg.CASE.B_CDBM c, b), (Reg.CASE.A_OK c, ofBool (s.feedGood c a)),
      (Reg.CASE.B_OK c, ofBool (s.feedGood c b)), (Reg.CASE.ACTIVE c, ofBool (!s.feedGood c a))]).litStage

/-- CASEMENT_CALIBRATE_BOOT. -/
def execCasementCalibrateBoot (c : CaseIx) (aCdbm bCdbm : BitVec 16) (s : State) : Out :=
  whenLive s fun s => s.calibrateBoot c.val aCdbm.toNat bCdbm.toNat

/-- BOOT_READY: the job-0 area is laid out, READY is set, and ring 0 is accepted; a device alone is its own lead (R468,
R483, R535, R537). -/
def State.bootReady (s : State) : State :=
  if s.get Reg.FW.STAGE ≠ 6 then s
  else
    let s := if s.memTop = 0 then s.setLayout 0 0 0 else s.setLayout (2 ^ 30) (2 ^ 28) 0
    s.puts [(Reg.FW.STAGE, 8), (Reg.GEN.READY, 1), (Reg.GEN.LEAD, 1), (Reg.FW.T_READY, s.now)]

/-- BOOT_READY. -/
def execBootReady (s : State) : Out := whenLive s State.bootReady

/-! ### Holding and lending (R48 to R51) -/

/-- The dwell before a hold in ns (R48). -/
def State.holdDwell (s : State) : Nat := s.get Reg.PWR.HOLD_DWELL * 100

/-- HOLD_START: a computing core whose conditions have lasted for the dwell is held: its rail goes to 0.60 V at 25 mV/µs
(R48). In the FE state every rail is held where it stands (R428). -/
def State.holdStart (s : State) (n : Nat) : State :=
  if s.get Reg.PWR.LEND_EN = 1 ∧ s.present n ∧ s.get (Reg.PWR.CSTAT_STATE n) = 0 ∧ s.stalled n ∧ !s.fe then
    let since := (s.core n).idleSince.getD s.now
    ((s.passTo (since + s.holdDwell)).rampRail n 600).put (Reg.PWR.CSTAT_STATE n) 1
  else s

/-- HOLD_START. -/
def execHoldStart (c : CoreIx) (s : State) : Out := whenLive s fun s => s.holdStart c.val

/-- HOLD_END: the wait is over, or work has entered, and the rail rises toward the base at 25 mV/µs (R49). -/
def State.holdEnd (s : State) (n : Nat) : State :=
  if s.get (Reg.PWR.CSTAT_STATE n) = 1 ∧ !s.stalled n ∧ !s.fe then
    (s.rampRail n s.pwr.base).put (Reg.PWR.CSTAT_STATE n) 0
  else s

/-- HOLD_END. -/
def execHoldEnd (c : CoreIx) (s : State) : Out := whenLive s fun s => s.holdEnd c.val

/-- The computing cores. -/
def State.computing (s : State) : List Nat := s.coreList.filter fun n => s.get (Reg.PWR.CSTAT_STATE n) == 0

/-- There is budget to lend: lending is enabled, and a held core has freed some (R50). -/
def State.canLend (s : State) : Bool :=
  s.get Reg.PWR.LEND_EN == 1 && s.coreList.any fun n => s.get (Reg.PWR.CSTAT_STATE n) == 1

/-- A rail over a base: the base itself, or more by lent budget, up to 0.85 V in 5 mV steps (R30, R50). -/
def State.railOk (s : State) (base mv : Nat) : Bool :=
  mv == base || (s.canLend && decide (base < mv) && decide (mv ≤ 850) && mv % 5 == 0)

/-- The die budget in W, within its limits (R51, R56). -/
def State.dieBudget (s : State) : Nat := max 480 (min 570 (s.get Reg.PWR.DIE_W))

/-- The base that the budget leaves beside some rails: 0.75 V at the full budget; at a smaller one what every rail falls to
together, not below 0.68 V, and otherwise the base as it is: no base falls while a core keeps borrowed voltage (R50, R51; log
entry 110). -/
def State.baseFor (s : State) (rails : List Nat) : Nat :=
  if 570 ≤ s.dieBudget then 750
  else
    let low := max 680 (min 750 (rails.headD s.pwr.base)) / 5 * 5
    if rails.all fun v => v == low then low else s.pwr.base

/-- A core's measured power fits the rail that it is given over the base: it draws its share of the freed budget, to the nearest
step of 5 mV, unless 84 W or 0.85 V stop it first (R50). -/
def fairShare (p : CorePower) (share mv : Nat) : Bool :=
  decide (p.under ≤ p.base + share) && decide (p.draw ≤ 84000) &&
    (decide (850 ≤ mv) || decide (84000 < p.above) || decide (p.base + share ≤ p.above))

/-- The die power stays within the budget: its mean over 100 µs, and while rails move at most 10 % more for at most 10 µs (R51). -/
def State.withinBudget (s : State) (m : Lending) : Bool :=
  decide (m.mean ≤ 1000 * s.dieBudget) && decide (m.peak ≤ 1100 * s.dieBudget) &&
    (decide (m.peak ≤ 1000 * s.dieBudget) || decide (m.peakNs ≤ 10000))

/-- LENDING_ADJUST: the rails that the power manager gives the computing cores, where what it measures allows them: the freed
budget is divided equally among them (R50, R51; log entry 110). In the FE state every rail is held (R428). -/
def State.lend (s : State) (mv : Nat → Nat) (m : Lending) : State :=
  let base := s.baseFor (s.computing.map mv)
  let share := m.freed / s.computing.length
  let ok := fun n => s.railOk base (mv n) && (!s.canLend || fairShare (m.cores.toList.getD n ⟨0, 0, 0, 0⟩) share (mv n))
  if s.computing.all ok ∧ s.withinBudget m ∧ !s.fe then
    s.computing.foldl (fun s n => s.rampRail n (mv n)) { s with pwr := { s.pwr with base := base } }
  else s

/-- LENDING_ADJUST. -/
def execLendingAdjust (lending : Lending) (s : State) : Out :=
  whenLive s fun s => s.lend (fun n => (lending.railMv.toList.getD n 0).toNat) lending

/-! ### Thermal limits (R32, R53 to R55, R530) -/

/-- Note what a sensor reads: sensor 8 is the uncore's. -/
def State.putTj (s : State) (sensor tj : Nat) : State :=
  if sensor = 8 then { s with pwr := { s.pwr with uncoreTj := tj } }
  else if s.present sensor then s.put (Reg.PWR.CSTAT_TJ sensor) tj else s

/-- The cores whose rails a sensor governs. -/
def State.governed (s : State) (sensor : Nat) : List Nat := s.coreList.filter fun n => sensor = 8 || sensor = n

/-- The ceiling lowers one core's rail by 10 mV, not below 0.60 V; one that takes a computing core below 0.68 V is counted
and recorded (R53, R54). The rail of a retired core, whose state reads 3 (R501), stays where it is, also when the uncore sensor
lowers all of them: whether it is lowered is not stated (DESIGN CHOICE, log entry 118). -/
def State.lowerRail (s : State) (n : Nat) : State :=
  if s.get (Reg.PWR.CSTAT_STATE n) = 3 then s
  else
    let old := s.coreMv n
    let new := max 600 (old - 10)
    let computing := s.get (Reg.PWR.CSTAT_STATE n) ≠ 1
    let s := (s.putRail n (min old new)).put (Reg.PWR.CSTAT_STATE n) 2
    if computing ∧ 680 ≤ old ∧ new < 680 then (s.inc Reg.PWR.THROTTLE_CNT 1).ce 0x407 0x11 0x2C 0 else s

/-- A core that no sensor limits any more computes, also one that was held before; its rail stays where it is until the next
LENDING_ADJUST (log entry 110). -/
def State.releaseRail (s : State) (n : Nat) : State :=
  if s.get (Reg.PWR.CSTAT_STATE n) = 2 ∧ !(s.pwr.ceiling.any fun e => e.1 == n || e.1 == 8) then
    s.put (Reg.PWR.CSTAT_STATE n) 0 else s

/-- THERMAL_CEILING: what a sensor reads; at the ceiling, and until it has fallen by the hysteresis, a step down every
10 µs (R53). -/
def State.ceilingStep (s : State) (sensor tj : Nat) : State :=
  let top : Int := 4 * ((min 105 (s.get Reg.PWR.TJ_CEIL) : Nat) : Int)
  let low : Int := top - 4 * ((max 1 (s.get Reg.PWR.HYST) : Nat) : Int)
  let t := signed 16 tj
  let s := s.putTj sensor tj
  if s.fe then s
  else match s.pwr.ceiling.find? (fun e => e.1 = sensor) with
  | some e =>
    if t ≤ low then
      let s := { s with pwr := { s.pwr with ceiling := s.pwr.ceiling.filter fun x => x.1 ≠ sensor } }
      (s.governed sensor).foldl State.releaseRail s
    else
      let s := s.passTo (e.2 + 10000)
      let s := { s with pwr := { s.pwr with ceiling := assocPut sensor s.now s.pwr.ceiling } }
      (s.governed sensor).foldl State.lowerRail s
  | none =>
    if top ≤ t then
      let s := { s with pwr := { s.pwr with ceiling := assocPut sensor s.now s.pwr.ceiling } }
      (s.governed sensor).foldl State.lowerRail s
    else s

/-- THERMAL_CEILING. -/
def execThermalCeiling (sensor : Fin 9) (tj : BitVec 16) (s : State) : Out :=
  whenLive s fun s => if sensor.val = 8 ∨ s.present sensor.val then s.ceilingStep sensor.val tj.toNat else s

/-- Every core rail goes to 0.60 V, an FE record OVERTEMP is written, and the device takes the FE state (R55, R530). -/
def State.tooHot (s : State) : State :=
  (s.coreList.foldl (fun s n => s.putRail n 600) s).raiseFE 0x407 0x11 0x2D 0

/-- OVERTEMP: a die sensor reaches 115 °C (R55). -/
def execOvertemp (sensor : Fin 9) (tj : BitVec 16) (s : State) : Out :=
  whenLive s fun s =>
    if 460 ≤ signed 16 tj.toNat ∧ (sensor.val = 8 ∨ s.present sensor.val) then (s.putTj sensor.val tj.toNat).tooHot else s

/-- CASEMENT_OVERTEMP: a casement's hotspot reaches 100 °C (R530). -/
def execCasementOvertemp (c : CaseIx) (tj : BitVec 16) (s : State) : Out :=
  whenLive s fun s => if 400 ≤ signed 16 tj.toNat then (s.put (Reg.CASE.TJ c.val) tj.toNat).tooHot else s

/-- BEAT_RATE_SAMPLE: the mean of the last 1 µs (R32). -/
def execBeatRateSample (c : CoreIx) (mhz : BitVec 16) (s : State) : Out :=
  whenLive s fun s => if s.present c.val then s.put (Reg.PWR.CSTAT_BEAT_MHZ c.val) mhz.toNat else s

/-! ### The I3C telemetry (R545) -/

/-- The hottest of some signed readings, as 16 bits. -/
def hottest (l : List Nat) : Nat := unsigned 16 ((l.map (signed 16)).foldl max (-32768))

/-- A telemetry register of the I3C target: no command reads it, and the power it reports is measured, hence free (R545). -/
def State.telemetry (s : State) (off : Nat) : Nat :=
  let up := s.phase == .up
  if off = 0 then s.kept.serial
  else if off = 8 then (if up then Config.openValue 51 s.now % 2 ^ 48 else 0)
  else if off = 16 then
    if up then hottest (s.pwr.uncoreTj :: s.coreList.map fun n => s.get (Reg.PWR.CSTAT_TJ n)) * 2 ^ 16 +
      hottest ((List.range 16).map fun c => s.get (Reg.CASE.TJ c)) else 0
  else if off = 24 then
    s.kept.alarmLevels % 4 * 2 ^ 6 + s.get Reg.GEN.READY * 2 ^ 5 + ofBool s.fe * 2 ^ 4 + ofBool (!up) * 2 ^ 3
  else 0

/-! ### Time while no command waits -/

/-- With no command waiting, one nanosecond of device time passes (R33; log entry 2). -/
def State.idle (s : State) : State := if s.live then s.passTo (s.now + 1) else s

end Sys2Proof.Machine
end

