-- ==== Sys2Proof/Machine/Command.lean ====
section
/-!
DEFINITION. Machine/Command.lean: a command's entry that the lead sends to this device is performed (R326, R472, R505).
-/

namespace Sys2Proof.Machine

/-- The request that a COMMAND packet carries: its ring stands in ADDR [19:4] (R457, R505). -/
def State.reqOf (s : State) (h : Hdr) (e : Bytes) : Req :=
  { ring := BitVec.ofNat 16 (bitsOf h.addr.toNat 19 4), cmdId := BitVec.ofNat 32 (field e 4 4), irq := bitOf (field e 2 1) 0,
    job := BitVec.ofNat 6 (field e 9 1), target := BitVec.ofNat 6 s.dev }

/-- A flag bit of an entry. -/
def flagAt (e : Bytes) (off : Nat) : Bool := bitOf (field e off 1) 0

/-- What a command of class 0 does on this device, by opcode: allowed in the FE state, and its part (R477, R478). -/
def part0 (op : Nat) (r : Req) (e : Bytes) : Option (Bool × (State → State × Answer)) :=
  let f := field e
  match op with
  | 0x0001 => some (true, State.doStatus)
  | 0x0002 => some (true, State.doErrlogRead (f 16 8) (f 24 8) (f 32 2))
  | 0x0003 => some (true, State.doRegRead (f 16 4))
  | 0x0004 => some (false, State.doLatchOp (f 16 1) (f 18 2) (f 20 2))
  | 0x0005 => some (false, State.doStreamHalt r (f 16 1))
  | 0x0006 => some (false, State.doJobKill r)
  | 0x0007 => some (false, State.doBatchCancel (f 16 2))
  | 0x0008 => some (true, State.doLinkStatus)
  | _ => none

/-- The same for class 1. -/
def part1 (op : Nat) (r : Req) (e : Bytes) : Option (Bool × (State → State × Answer)) :=
  let f := field e
  match op with
  | 0x0101 => some (false, State.doRingCreate r (f 16 2) (f 18 1) (f 19 1) (f 20 1) (f 21 1) (f 24 8) (f 32 8))
  | 0x0102 => some (false, State.doRingDestroy r (f 16 2))
  | 0x0103 => some (false, State.doEventRing (f 16 8) (f 24 1) (f 25 1) (flagAt e 26))
  | 0x0104 => some (false, State.doMemLayout (f 16 8) (f 24 8) (f 32 8))
  | 0x0110 => some (false, State.doJobCreate r (f 16 8))
  | 0x0111 => some (false, State.doJobDestroy r)
  | 0x0112 => some (false, State.doMap r (f 16 8) (f 24 6) (f 30 1) (f 32 4))
  | 0x0113 => some (false, State.doUnmap r (f 16 8) (f 32 4))
  | 0x0114 => some (false, State.doProtect r (f 16 8) (f 30 1) (f 32 4))
  | 0x0115 => some (false, State.doOwnerTable r (f 16 8) (f 24 4))
  | 0x0116 => some (false, State.doChannelSet (f 16 1) (f 18 2) (f 24 8) (flagAt e 32))
  | 0x0117 => some (false, State.doPlacement r (f 16 8))
  | 0x0118 => some (false, State.doReduceConfig r (f 16 8))
  | 0x0119 => some (false, State.doReduceStart (f 16 2))
  | 0x011A => some (false, State.doReduceStop)
  | 0x011B => some (false, State.doBudget (f 16 2) (f 18 1) (f 19 1) (f 20 2) (flagAt e 22) (f 24 2))
  | 0x011C => some (false, State.doMcastSet r (f 16 1) (flagAt e 17) (f 24 8))
  | 0x011D => some (false, State.doRegWrite (f 16 4) (f 24 8) (f 32 8))
  | 0x011E => some (false, State.doStreamStart r (f 16 1) (f 24 8))
  | 0x011F => some (false, State.doStreamResume (f 16 1) (f 24 8))
  | _ => none

/-- The same for classes 2 and 3. SNAP_OPEN carries the lead's T_CUT in bytes 48 to 55 (log entry 33); the bytes of a patch
table come from host memory, which no operand of this command carries (log entry 6). -/
def part23 (op : Nat) (r : Req) (e : Bytes) : Option (Bool × (State → State × Answer)) :=
  let f := field e
  match op with
  | 0x0200 => some (false, State.doProgramLoad r (f 16 1) (f 18 2) (f 20 2) (f 24 8))
  | 0x0201 => some (false, State.doHostCopy r (f 16 1) (f 24 8) (f 32 8) (f 40 8))
  | 0x0202 => some (false, State.doSnapOpen r (f 16 4) (f 24 8) (f 32 8) (f 40 8) (f 48 8))
  | 0x0203 => some (false, State.doRestore r (f 16 4) (f 20 1) (f 24 8) (f 32 8))
  | 0x0204 => some (false, State.doStepReplay r (f 16 2))
  | 0x0300 => some (false, State.doTest r (f 16 1) (f 17 1) (f 18 1) (f 20 4))
  | 0x0301 => some (false, State.doCalibrate r (f 16 2))
  | 0x0302 => some (false, State.doRetire (f 16 1) (f 17 1) (f 18 1))
  | 0x0303 => some (false, State.doAttest (slice 16 32 e) (f 48 8))
  | 0x0304 => some (false, fun s => State.doPatchLoad (f 16 8) (f 24 4) (s.hostBytes (f 16 8) (f 24 4)) s.draw)
  | _ => none

/-- The part of this device in a command. -/
def partOf (op : Nat) (r : Req) (e : Bytes) : Option (Bool × (State → State × Answer)) :=
  match part0 op r e with
  | some x => some x
  | none => match part1 op r e with
    | some x => some x
    | none => part23 op r e

/-- An entry has come from a device: CONFIG_FORM's from the device that forms the configuration, any other from the lead
(R325, R326); Sill firmware that has failed takes none (R428). -/
def State.gotCommand (s : State) (h : Hdr) (p : Bytes) : State :=
  let e := slice 0 64 p
  let op := field e 0 2
  let r := s.reqOf h e
  if s.host.sillDown then s
  else if op = 0x0100 then s.gotForm (originOf h) r e
  else if !s.isMember ∨ originOf h ≠ s.lead then s
  else match partOf op r e with
    | some (feOk, part) => s.ownPart r feOk part
    | none => s.finish r stUNKNOWN 0 0

/-- COMMAND. -/
def execCommand (d : DoorIx) (h : Hdr) (p : Bytes) (s : State) : Out :=
  packet d 9 h p (kind4 1) (fun s => s.gotCommand h p) s

end Sys2Proof.Machine
end

