-- ==== Sys2Proof/Machine/Dispatch.lean ====
section
/-!
DEFINITION. Machine/Dispatch.lean: one arm for each command.
-/

namespace Sys2Proof.Machine

/-- A command's effect on everything but the queue. -/
def exec (i : Instr) (s : State) : Host.Outcome State Fault Refusal :=
  match i with
  | .perstAssert ns => Sys2Proof.Machine.execPerstAssert ns s
  | .effectiveRelease straps => Sys2Proof.Machine.execEffectiveRelease straps s
  | .railDrop rail percent ns => Sys2Proof.Machine.execRailDrop rail percent ns s
  | .refLost ns => Sys2Proof.Machine.execRefLost ns s
  | .securityReady katOk romOk idOk => Sys2Proof.Machine.execSecurityReady katOk romOk idOk s
  | .railsSet => Sys2Proof.Machine.execRailsSet s
  | .casementCalibrateBoot c aCdbm bCdbm => Sys2Proof.Machine.execCasementCalibrateBoot c aCdbm bCdbm s
  | .windowsStart => Sys2Proof.Machine.execWindowsStart s
  | .windowLanesLocked w sledId cap channels linkVer pairs certOk => Sys2Proof.Machine.execWindowLanesLocked w sledId cap channels linkVer pairs certOk s
  | .sledChallengeResponse w sigOk => Sys2Proof.Machine.execSledChallengeResponse w sigOk s
  | .sledVerifyTimeout w => Sys2Proof.Machine.execSledVerifyTimeout w s
  | .sledReady w => Sys2Proof.Machine.execSledReady w s
  | .bringupTimeout w => Sys2Proof.Machine.execBringupTimeout w s
  | .mapForm => Sys2Proof.Machine.execMapForm s
  | .bootReady => Sys2Proof.Machine.execBootReady s
  | .pcieLinkUp speed width => Sys2Proof.Machine.execPcieLinkUp speed width s
  | .pcieReset kind => Sys2Proof.Machine.execPcieReset kind s
  | .tamperTrip sensors => Sys2Proof.Machine.execTamperTrip sensors s
  | .instructionFetch c => Sys2Proof.Machine.execInstructionFetch c s
  | .admission c => Sys2Proof.Machine.execAdmission c s
  | .launchTimeReached c tag => Sys2Proof.Machine.execLaunchTimeReached c tag s
  | .instructionComplete c tag => Sys2Proof.Machine.execInstructionComplete c tag s
  | .nop c => Sys2Proof.Machine.execNop c s
  | .endInstr c => Sys2Proof.Machine.execEnd c s
  | .jmp c => Sys2Proof.Machine.execJmp c s
  | .cnt c => Sys2Proof.Machine.execCnt c s
  | .sync c => Sys2Proof.Machine.execSync c s
  | .dload c => Sys2Proof.Machine.execDload c s
  | .dmod c => Sys2Proof.Machine.execDmod c s
  | .dset c => Sys2Proof.Machine.execDset c s
  | .slotset c => Sys2Proof.Machine.execSlotset c s
  | .rngld c => Sys2Proof.Machine.execRngld c s
  | .rngst c => Sys2Proof.Machine.execRngst c s
  | .gmm c => Sys2Proof.Machine.execGmm c s
  | .gact c => Sys2Proof.Machine.execGact c s
  | .tload c => Sys2Proof.Machine.execTload c s
  | .bgather c => Sys2Proof.Machine.execBgather c s
  | .bscatter c => Sys2Proof.Machine.execBscatter c s
  | .bsort c => Sys2Proof.Machine.execBsort c s
  | .bgroup c => Sys2Proof.Machine.execBgroup c s
  | .bragged c => Sys2Proof.Machine.execBragged c s
  | .bunpack c => Sys2Proof.Machine.execBunpack c s
  | .baudit c => Sys2Proof.Machine.execBaudit c s
  | .mcopy c => Sys2Proof.Machine.execMcopy c s
  | .lop c => Sys2Proof.Machine.execLop c s
  | .barr c => Sys2Proof.Machine.execBarr c s
  | .mwait c => Sys2Proof.Machine.execMwait c s
  | .agput c => Sys2Proof.Machine.execAgput c s
  | .xdisp c => Sys2Proof.Machine.execXdisp c s
  | .xrecv c => Sys2Proof.Machine.execXrecv c s
  | .xret c => Sys2Proof.Machine.execXret c s
  | .burstIssue m ch => Sys2Proof.Machine.execBurstIssue m ch s
  | .tagGrant w => Sys2Proof.Machine.execTagGrant w s
  | .rdd w tag => Sys2Proof.Machine.execRdd w tag s
  | .rdp w tag => Sys2Proof.Machine.execRdp w tag s
  | .wack w tag => Sys2Proof.Machine.execWack w tag s
  | .mgmt w op whole => Sys2Proof.Machine.execMgmt w op whole s
  | .flitCrcFail flit => Sys2Proof.Machine.execFlitCrcFail flit s
  | .nakReceived l resent => Sys2Proof.Machine.execNakReceived l resent s
  | .retrain l => Sys2Proof.Machine.execRetrain l s
  | .retrainDone l ok usable => Sys2Proof.Machine.execRetrainDone l ok usable s
  | .linkDown w => Sys2Proof.Machine.execLinkDown w s
  | .readTimeout w tag => Sys2Proof.Machine.execReadTimeout w tag s
  | .writeTimeout w tag => Sys2Proof.Machine.execWriteTimeout w tag s
  | .hotChannel w ch => Sys2Proof.Machine.execHotChannel w ch s
  | .latchMessage k => Sys2Proof.Machine.execLatchMessage k s
  | .watch k => Sys2Proof.Machine.execWatch k s
  | .latchNotification k => Sys2Proof.Machine.execLatchNotification k s
  | .latchRead k => Sys2Proof.Machine.execLatchRead k s
  | .barrierArrival k => Sys2Proof.Machine.execBarrierArrival k s
  | .barrierRelease k => Sys2Proof.Machine.execBarrierRelease k s
  | .barrierWithdrawal k => Sys2Proof.Machine.execBarrierWithdrawal k s
  | .monitorWrite k => Sys2Proof.Machine.execMonitorWrite k s
  | .mcastHoldRelease g targets => Sys2Proof.Machine.execMcastHoldRelease g targets s
  | .meshHeader error => Sys2Proof.Machine.execMeshHeader error s
  | .residueVerdictFail k parity path lane tile expected observed va last => Sys2Proof.Machine.execResidueVerdictFail k parity path lane tile expected observed va last s
  | .observationExpiry unit => Sys2Proof.Machine.execObservationExpiry unit s
  | .csUncorr c off => Sys2Proof.Machine.execCsUncorr c off s
  | .scrubPass c => Sys2Proof.Machine.execScrubPass c s
  | .poisonConsumption job src unit va => Sys2Proof.Machine.execPoisonConsumption job src unit va s
  | .feState src unit code synd => Sys2Proof.Machine.execFeState src unit code synd s
  | .epochClose => Sys2Proof.Machine.execEpochClose s
  | .write d h p => Sys2Proof.Machine.execWrite d h p s
  | .writeAck d h => Sys2Proof.Machine.execWriteAck d h s
  | .latchPacket d h => Sys2Proof.Machine.execLatchPacket d h s
  | .retract d h => Sys2Proof.Machine.execRetract d h s
  | .close d h => Sys2Proof.Machine.execClose d h s
  | .timeExchange t1 t2 t3 t4 pathUp => Sys2Proof.Machine.execTimeExchange t1 t2 t3 t4 pathUp s
  | .hello d pair peer peerDoor peerPair serial version pairs => Sys2Proof.Machine.execHello d pair peer peerDoor peerPair serial version pairs s
  | .badPacketType on ty kind sectors => Sys2Proof.Machine.execBadPacketType on ty kind sectors s
  | .doorDown d pair cause => Sys2Proof.Machine.execDoorDown d pair cause s
  | .feedSwitch c aCdbm bCdbm => Sys2Proof.Machine.execFeedSwitch c aCdbm bCdbm s
  | .calibrationDone c => Sys2Proof.Machine.execCalibrationDone c s
  | .command d h p => Sys2Proof.Machine.execCommand d h p s
  | .completion d h p => Sys2Proof.Machine.execCompletion d h p s
  | .record d h p => Sys2Proof.Machine.execRecord d h p s
  | .kill d h p => Sys2Proof.Machine.execKill d h p s
  | .hostEdge d h p => Sys2Proof.Machine.execHostEdge d h p s
  | .event d h p => Sys2Proof.Machine.execEvent d h p s
  | .summarySend gen => Sys2Proof.Machine.execSummarySend gen s
  | .summary d h p => Sys2Proof.Machine.execSummary d h p s
  | .token d h p core choice index => Sys2Proof.Machine.execToken d h p core choice index s
  | .returnPacket d h p => Sys2Proof.Machine.execReturnPacket d h p s
  | .batchClose gen => Sys2Proof.Machine.execBatchClose gen s
  | .expertCancel gen => Sys2Proof.Machine.execExpertCancel gen s
  | .runOpen => Sys2Proof.Machine.execRunOpen s
  | .contributionTaken => Sys2Proof.Machine.execContributionTaken s
  | .contrib d h p => Sys2Proof.Machine.execContrib d h p s
  | .sumStage b => Sys2Proof.Machine.execSumStage b s
  | .bucketDeadline b => Sys2Proof.Machine.execBucketDeadline b s
  | .bucketSuccess b => Sys2Proof.Machine.execBucketSuccess b s
  | .report d h p => Sys2Proof.Machine.execReport d h p s
  | .verdictTimeout => Sys2Proof.Machine.execVerdictTimeout s
  | .verdict d h p => Sys2Proof.Machine.execVerdict d h p s
  | .snapPark => Sys2Proof.Machine.execSnapPark s
  | .snapParkTimeout => Sys2Proof.Machine.execSnapParkTimeout s
  | .snapSweepCopy => Sys2Proof.Machine.execSnapSweepCopy s
  | .snapTouchCopy k => Sys2Proof.Machine.execSnapTouchCopy k s
  | .snapBlockDone k => Sys2Proof.Machine.execSnapBlockDone k s
  | .reserveDrain => Sys2Proof.Machine.execReserveDrain s
  | .snapComplete memberCost => Sys2Proof.Machine.execSnapComplete memberCost s
  | .snapAbandon cause => Sys2Proof.Machine.execSnapAbandon cause s
  | .heartbeatTimeout => Sys2Proof.Machine.execHeartbeatTimeout s
  | .romCheck ok => Sys2Proof.Machine.execRomCheck ok s
  | .periodicTileTest c t => Sys2Proof.Machine.execPeriodicTileTest c t s
  | .testStart k => Sys2Proof.Machine.execTestStart k s
  | .testDone k pass failing => Sys2Proof.Machine.execTestDone k pass failing s
  | .tileFenceEffect c => Sys2Proof.Machine.execTileFenceEffect c s
  | .holdStart c => Sys2Proof.Machine.execHoldStart c s
  | .holdEnd c => Sys2Proof.Machine.execHoldEnd c s
  | .lendingAdjust lending => Sys2Proof.Machine.execLendingAdjust lending s
  | .thermalCeiling sensor tj => Sys2Proof.Machine.execThermalCeiling sensor tj s
  | .overtemp sensor tj => Sys2Proof.Machine.execOvertemp sensor tj s
  | .casementOvertemp c tj => Sys2Proof.Machine.execCasementOvertemp c tj s
  | .beatRateSample c mhz => Sys2Proof.Machine.execBeatRateSample c mhz s
  | .invalidationDone => Sys2Proof.Machine.execInvalidationDone s
  | .entryPickup => Sys2Proof.Machine.execEntryPickup s
  | .completionWrite ring => Sys2Proof.Machine.execCompletionWrite ring s
  | .doorbellSqTail ring value => Sys2Proof.Machine.execDoorbellSqTail ring value s
  | .doorbellCqHead ring value => Sys2Proof.Machine.execDoorbellCqHead ring value s
  | .ring0CtlWrite value => Sys2Proof.Machine.execRing0CtlWrite value s
  | .bar4Read off len => Sys2Proof.Machine.execBar4Read off len s
  | .bar4Write off data => Sys2Proof.Machine.execBar4Write off data s
  | .latchSetWrite k value => Sys2Proof.Machine.execLatchSetWrite k value s
  | .latchClrWrite k value => Sys2Proof.Machine.execLatchClrWrite k value s
  | .arriveWrite value => Sys2Proof.Machine.execArriveWrite value s
  | .barrierCfgWrite c value sill => Sys2Proof.Machine.execBarrierCfgWrite c value sill s
  | .mcastWrite g value sill => Sys2Proof.Machine.execMcastWrite g value sill s
  | .moverReqRaise m value => Sys2Proof.Machine.execMoverReqRaise m value s
  | .ctxDataWrite m k value sill => Sys2Proof.Machine.execCtxDataWrite m k value sill s
  | .invalCmd value sill => Sys2Proof.Machine.execInvalCmd value sill s
  | .fenceReq c mask sill => Sys2Proof.Machine.execFenceReq c mask sill s
  | .unfenceReq c mask sill => Sys2Proof.Machine.execUnfenceReq c mask sill s
  | .retireReq c mask sill => Sys2Proof.Machine.execRetireReq c mask sill s
  | .calReq c sill => Sys2Proof.Machine.execCalReq c sill s
  | .selReq c sel sill => Sys2Proof.Machine.execSelReq c sel sill s
  | .generatorStateWrite c lane value sill => Sys2Proof.Machine.execGeneratorStateWrite c lane value sill s
  | .peerMessage peer step ok => Sys2Proof.Machine.execPeerMessage peer step ok s
  | .registerWrite off size value sill => Sys2Proof.Machine.execRegisterWrite off size value sill s
  | .registerReadClear off size => Sys2Proof.Machine.execRegisterReadClear off size s
  | .status r => Sys2Proof.Machine.execStatus r s
  | .errlogRead r hostAddr firstSeq max => Sys2Proof.Machine.execErrlogRead r hostAddr firstSeq max s
  | .regRead r off => Sys2Proof.Machine.execRegRead r off s
  | .latchOp r op first countM1 => Sys2Proof.Machine.execLatchOp r op first countM1 s
  | .streamHalt r cores all => Sys2Proof.Machine.execStreamHalt r cores all s
  | .jobKill r => Sys2Proof.Machine.execJobKill r s
  | .batchCancel r gen tray => Sys2Proof.Machine.execBatchCancel r gen tray s
  | .linkStatus r => Sys2Proof.Machine.execLinkStatus r s
  | .configForm r members mode answers dupNumber greatestNow feeds => Sys2Proof.Machine.execConfigForm r members mode answers dupNumber greatestNow feeds s
  | .ringCreate r ring log2 cls vec irq sqBase cqBase => Sys2Proof.Machine.execRingCreate r ring log2 cls vec irq sqBase cqBase s
  | .ringDestroy r ring => Sys2Proof.Machine.execRingDestroy r ring s
  | .eventRing r hostAddr log2 vec en => Sys2Proof.Machine.execEventRing r hostAddr log2 vec en s
  | .memLayout r pool reserve buddy => Sys2Proof.Machine.execMemLayout r pool reserve buddy s
  | .jobCreate r hostBase => Sys2Proof.Machine.execJobCreate r hostBase s
  | .jobDestroy r => Sys2Proof.Machine.execJobDestroy r s
  | .map r va pa flags count => Sys2Proof.Machine.execMap r va pa flags count s
  | .unmap r va count => Sys2Proof.Machine.execUnmap r va count s
  | .protect r va flags count => Sys2Proof.Machine.execProtect r va flags count s
  | .ownerTable r va length => Sys2Proof.Machine.execOwnerTable r va length s
  | .channelSet r mover channel word0 clear => Sys2Proof.Machine.execChannelSet r mover channel word0 clear s
  | .placement r va tray => Sys2Proof.Machine.execPlacement r va tray s
  | .reduceConfig r va => Sys2Proof.Machine.execReduceConfig r va s
  | .reduceStart r step => Sys2Proof.Machine.execReduceStart r step s
  | .reduceStop r => Sys2Proof.Machine.execReduceStop r s
  | .budget r dieW tjCeil hyst dwell lend uncoreMv => Sys2Proof.Machine.execBudget r dieW tjCeil hyst dwell lend uncoreMv s
  | .mcastSet r group valid targets => Sys2Proof.Machine.execMcastSet r group valid targets s
  | .regWrite r off value mask => Sys2Proof.Machine.execRegWrite r off value mask s
  | .streamStart r cores va => Sys2Proof.Machine.execStreamStart r cores va s
  | .streamResume r cores va => Sys2Proof.Machine.execStreamResume r cores va s
  | .programLoad r core firstSlot count va => Sys2Proof.Machine.execProgramLoad r core firstSlot count va s
  | .hostCopy r dir hostAddr va length => Sys2Proof.Machine.execHostCopy r dir hostAddr va length s
  | .snapOpen r snapId va hostAddr hostSize => Sys2Proof.Machine.execSnapOpen r snapId va hostAddr hostSize s
  | .restore r snapId source hostAddr tResume => Sys2Proof.Machine.execRestore r snapId source hostAddr tResume s
  | .stepReplay r step => Sys2Proof.Machine.execStepReplay r step s
  | .test r kind core tile windows => Sys2Proof.Machine.execTest r kind core tile windows s
  | .calibrate r casements => Sys2Proof.Machine.execCalibrate r casements s
  | .retire r kind core tile => Sys2Proof.Machine.execRetire r kind core tile s
  | .attest r nonce hostAddr => Sys2Proof.Machine.execAttest r nonce hostAddr s
  | .patchLoad r hostAddr length table => Sys2Proof.Machine.execPatchLoad r hostAddr length table s
  | .relay d ty h p => Sys2Proof.Machine.execRelay d ty h p s
  | .heartbeat => Sys2Proof.Machine.execHeartbeat s
  | .sillMemoryEcc check => Sys2Proof.Machine.execSillMemoryEcc check s
  | .syncState src corrected => Sys2Proof.Machine.execSyncState src corrected s
  | .xlatParity src k => Sys2Proof.Machine.execXlatParity src k s
  | .bufferParity src pieces => Sys2Proof.Machine.execBufferParity src pieces s
  | .csCorr c off => Sys2Proof.Machine.execCsCorr c off s
  | .d3hot enter => Sys2Proof.Machine.execD3hot enter s
  | .vauxWithinRange => Sys2Proof.Machine.execVauxWithinRange s
  | .noRoute cmdId dev => Sys2Proof.Machine.execNoRoute cmdId dev s
  | .pcieReadCompletion id data result => Sys2Proof.Machine.execPcieReadCompletion id data result s
  | .completionTimeout id => Sys2Proof.Machine.execCompletionTimeout id s

end Sys2Proof.Machine
end

