-- ==== Sys2Proof/Safety.lean ====
section
/-!
DEFINITION. Safety.lean: what the statements call a good state and a good outcome.
-/

namespace Sys2Proof.Machine

/-- The outcome is a next state. -/
def completes : Host.Outcome State Fault Refusal → Bool
  | .next _ => true
  | .fault _ => false
  | .refused _ => false

/-- Main memory and the core stores are in canonical form: rising addresses, no zero byte listed. -/
def Memory.wf (m : List Host.Cell) : Bool := sparseWf 0 m

/-- The plain stores of a state are in canonical form. -/
def State.canonical (s : State) : Bool :=
  Memory.wf s.mem && setWf s.poison && sparseWf CoreSt.zero s.cores && sparseWf WinSt.zero s.wins && sparseWf 0 s.contexts

/-- The commands that act while the device is in reset too: PERST#, the rails, and the security block's own supply and
sensors (R521, R531, R533, R534). Every other command has no effect then. -/
def actsInReset : Instr → Bool
  | .perstAssert _ => true
  | .effectiveRelease _ => true
  | .railDrop _ _ _ => true
  | .vauxWithinRange => true
  | .tamperTrip _ => true
  | _ => false

/-- A state in reset holds what a reset keeps, and nothing else (R533, R534): PERST# resets every domain; a dropped rail
spares the security block. -/
def State.resetHolds (s : State) : Prop :=
  (s.phase = .perst → ∃ t : State, s = { t.domains .perst with kept := s.kept }) ∧
    (s.phase = .railReset → ∃ t : State, s = { t.domains .railReset with kept := s.kept, sec := s.sec, regs := secRegs s.regs })

/-! ### Dispatch (R43, R45, R201, R202) -/

/-- The core and the opcode of a command that dispatches an instruction. -/
def dispatchRow : Instr → Option (CoreIx × Nat)
  | .nop c => some (c, 0x00)
  | .endInstr c => some (c, 0x01)
  | .jmp c => some (c, 0x02)
  | .cnt c => some (c, 0x03)
  | .sync c => some (c, 0x04)
  | .dload c => some (c, 0x08)
  | .dmod c => some (c, 0x09)
  | .dset c => some (c, 0x0A)
  | .slotset c => some (c, 0x0B)
  | .rngld c => some (c, 0x0C)
  | .rngst c => some (c, 0x0D)
  | .gmm c => some (c, 0x10)
  | .gact c => some (c, 0x18)
  | .tload c => some (c, 0x19)
  | .bgather c => some (c, 0x20)
  | .bscatter c => some (c, 0x21)
  | .bsort c => some (c, 0x22)
  | .bgroup c => some (c, 0x23)
  | .bragged c => some (c, 0x24)
  | .bunpack c => some (c, 0x25)
  | .baudit c => some (c, 0x26)
  | .mcopy c => some (c, 0x30)
  | .lop c => some (c, 0x40)
  | .barr c => some (c, 0x41)
  | .mwait c => some (c, 0x42)
  | .agput c => some (c, 0x50)
  | .xdisp c => some (c, 0x58)
  | .xrecv c => some (c, 0x59)
  | .xret c => some (c, 0x5A)
  | _ => none

/-- The unit of an opcode accepts the instruction now: one gmm and one Beryl instruction at a time, tables and draws in
turn, an idle channel, two arrivals of a stream at a counter, one monitor of its own, a batch with room (R77, R109, R120,
R215, R266, R271, R297, R301, R334, R336). -/
def State.accepts (s : State) (n op : Nat) (i : Insn) : Bool :=
  if op = 0x0C ∨ op = 0x0D then !s.drawsAhead n i
  else if op = 0x10 then s.garnetFree n i
  else if op = 0x18 then s.tableSettled n i && s.drawTurn n i
  else if op = 0x19 then !(s.earlier n i.tag).any fun y => y.table == some (i.mod 0 0)
  else if 0x20 ≤ op ∧ op ≤ 0x26 then s.get (Reg.CORE.BERYL_TAG n) == 0
  else if op = 0x30 then s.moverFree n i
  else if op = 0x41 then s.barrFree n i
  else if op = 0x42 then !s.ownMonitor n (i.mod 35 28)
  else if op = 0x58 then s.xdispReady n i
  else if op = 0x59 then s.batchRoom i.gen
  else true

/-- Instruction i is the one that core n may dispatch for an opcode: the oldest undispatched instruction of the opcode's
queue, of a running stream; it carries the opcode, its latch and its launch time allow it, and its unit accepts it. -/
def State.ready (s : State) (n op : Nat) (i : Insn) : Prop :=
  s.streamState n = 1 ∧ s.oldest n (queueOf op) = some i ∧ i.op = op ∧ s.timely i = true ∧ s.accepts n op i = true

/-- Instruction i dispatches as an instruction of an opcode: it is ready, no hazard holds it, its window entry passes its parity
check (R401), and it is not late. -/
def State.goes (s : State) (n op : Nat) (i : Insn) : Prop :=
  s.phase = .up ∧ s.ready n op i ∧ s.hazard n i = false ∧ i.bad = false ∧ s.lateness i ≤ 2

/-- The state in which an instruction of an opcode faults before its unit looks at it: an xret that is due has sent the returns
that it owes, poisoned (R345). -/
def State.owing (s : State) (n op : Nat) (i : Insn) : State :=
  if op = 0x5A ∧ s.xretDue i.gen (i.mod 19 14) = true then s.failXret n i [] else s

/-- The state in which a command looks for its instruction: packets that are held at the doors and have room now come before
an instruction of the expert router (R334; log entry 103). -/
def State.atDispatch (s : State) (op : Nat) : State := if 0x58 ≤ op then s.seat else s

/-- The state in which an instruction has dispatched. -/
def State.sent (s : State) (n : Nat) (i : Insn) : State := s.markDispatched n i.tag

/-- A Beryl instruction goes, its checks pass, and its operands are bound to pages, in the state that this leaves (R120,
R152, R171). -/
def State.berylTakes (s : State) (n op : Nat) (i : Insn) (pre : Option Flt) (s' : State) (b : Bound) : Prop :=
  s.goes n op i ∧
    firstFlt (pre :: (i.operands.filter fun o => o.2.2).map fun o => (i.td o.1).checkWrite o.1) = none ∧
    (s.sent n i).bindAll (sliceOf (unitOfOp i.op) n) (s.jobOf n) (.own n) i.opds = (s', .inr b) ∧ berylAlias b i = none

/-- A Beryl instruction has written elements through its pages, and is done: its results await their check, and its last phase
stands (R120, R156, R418). -/
def State.berylDone (s : State) (n : Nat) (i : Insn) (b : Bound) (l : List El) (c : Cnt) : State :=
  ((s.writeEls b l).pushCheck n 3 i.tag (s.jobOf n) 0 b).markDone n i.tag c

/-- Messages from a router to the homes of latches enter the mesh, which counts them (R283, R304). -/
def NetSt.crossTo (t : NetSt) (a : Nat) (latches : List Nat) : NetSt := latches.foldl (fun t l => t.cross a (homeRouter l)) t

/-! ### Packets and Sill firmware's commands (R308, R310, R320, R472, R477) -/

/-- A packet for this device comes in on a door: it has the 64 bytes for each sector of its header, its link carries packets,
the door gives bulk credits where the packet is a bulk one, and a control packet has no more than one sector (R310, R312,
R320). -/
def State.takes (s : State) (d ty : Nat) (h : Hdr) (p : Bytes) : Prop :=
  s.phase = .up ∧ s.linkUsable d (s.pairFrom d h) = true ∧ (bulk ty (h.addr.toNat % 8) = true → s.noCredit d = false) ∧ overlong ty h = false ∧
    p.length = 64 * h.sectors.toNat ∧ h.dst.toNat = s.dev

/-- The flit of a packet has been taken from its link, and the packet's bytes have been counted at its door. -/
def State.countRx (s : State) (d : Nat) (h : Hdr) (p : Bytes) : State :=
  (s.heardDoor d (s.pairFrom d h)).inc (Reg.DOOR.RX_BYTES d) (32 + p.length)

/-- The devices that a tray or every member stands for (R472). -/
def State.group (s : State) : Scope → List Nat
  | .tray k => s.members.filter fun d => d / 16 == k
  | .all => s.members
  | .target => []
  | .lead => []

/-- This device, a lead or a device alone, performs its own part of a command, and does so in state u: where it is the target;
and where it is one of a tray or of every member, after it has sent the command's entry e to the others (R472, R477). Its Sill
firmware has not failed (R428). -/
def State.serves (s : State) (r : Req) (sc : Scope) (u : State) (e : Nat → Bytes := fun _ => []) : Prop :=
  s.phase = .up ∧ u.fe = false ∧ u.host.sillDown = false ∧ s.isMember = false ∧
    (((sc = .target ∨ sc = .lead) ∧ r.target.toNat = s.dev ∧ u = s) ∨
      ((s.group sc).contains u.dev = true ∧ u = s.relayTo r e (s.group sc) true))

/-- The command, the scope, and whether the FE state allows it, of a command of Sill firmware that is performed on the devices
its scope names (R472, R477); CONFIG_FORM has a way of its own. -/
def commandRow : Instr → Option (Req × Scope × Bool)
  | .status r => some (r, .target, true)
  | .errlogRead r _ _ _ => some (r, .target, true)
  | .regRead r _ => some (r, .target, true)
  | .latchOp r _ _ _ => some (r, .target, false)
  | .streamHalt r _ all => some (r, if all then .all else .target, false)
  | .jobKill r => some (r, .all, false)
  | .batchCancel r _ tray => some (r, .tray tray.toNat, false)
  | .linkStatus r => some (r, .target, true)
  | .ringCreate r _ _ _ _ _ _ _ => some (r, .lead, false)
  | .ringDestroy r _ => some (r, .lead, false)
  | .eventRing r _ _ _ _ => some (r, .lead, false)
  | .memLayout r _ _ _ => some (r, .target, false)
  | .jobCreate r _ => some (r, .target, false)
  | .jobDestroy r => some (r, .target, false)
  | .map r _ _ _ _ => some (r, .target, false)
  | .unmap r _ _ => some (r, .target, false)
  | .protect r _ _ _ => some (r, .target, false)
  | .ownerTable r _ _ => some (r, .lead, false)
  | .channelSet r _ _ _ _ => some (r, .target, false)
  | .placement r _ tray => some (r, .tray tray.toNat, false)
  | .reduceConfig r _ => some (r, .all, false)
  | .reduceStart r _ => some (r, .all, false)
  | .reduceStop r => some (r, .all, false)
  | .budget r _ _ _ _ _ _ => some (r, .target, false)
  | .mcastSet r _ _ _ => some (r, .target, false)
  | .regWrite r _ _ _ => some (r, .target, false)
  | .streamStart r _ _ => some (r, .target, false)
  | .streamResume r _ _ => some (r, .target, false)
  | .programLoad r _ _ _ _ => some (r, .target, false)
  | .hostCopy r _ _ _ _ => some (r, .target, false)
  | .snapOpen r _ _ _ _ => some (r, .all, false)
  | .restore r _ _ _ _ => some (r, .target, false)
  | .stepReplay r _ => some (r, .all, false)
  | .test r _ _ _ _ => some (r, .target, false)
  | .calibrate r _ => some (r, .target, false)
  | .retire r _ _ _ => some (r, .target, false)
  | .attest r _ _ => some (r, .target, false)
  | .patchLoad r _ _ _ => some (r, .target, false)
  | _ => none

end Sys2Proof.Machine
end

