-- ==== Sys2Proof/Certificates/Slice0/Obligations.lean ====
section
/-!
DEFINITION. Certificates/Slice0/Obligations.lean: what the provers are asked to prove. A statement about a command names
the conditions under which it has its own effect, and the state that it answers then. Where a log entry decides a clause the
docstring names it.
-/

open Sys2Proof Sys2Proof.Machine

/-! ### The queue, idling, and where a command stops -/

/-- One step takes the command at the front of the queue: its outcome is that of exec on the state with the queue's rest. -/
def Obligations.StepTakesFront : Prop :=
  ∀ (c : Instr) (s : State), step { s with pending := c :: s.pending } = exec c s

/-- With no command waiting one nanosecond of device time passes out of reset, at most up to the greatest value of TIME.NOW,
and nothing happens in reset (the model's choice, log entry 2): no register changes but TIME.NOW and the counters of waiting;
memory and everything in flight stays. -/
def Obligations.StepIdles : Prop :=
  ∀ s : State, s.pending = [] →
    (s.phase ≠ .up → step s = .next s) ∧
    (s.phase = .up → ∃ t : State, step s = .next t ∧ t.now = (if s.now < maxTime then s.now + 1 else s.now) ∧ t.mem = s.mem ∧
      t.poison = s.poison ∧ t.net = s.net ∧ t.slices = s.slices ∧ t.wins = s.wins ∧ t.later = s.later ∧ t.links = s.links ∧
      t.contexts = s.contexts ∧ t.runs = s.runs ∧ t.doors = s.doors ∧ t.batches = s.batches ∧ t.agate = s.agate ∧
      t.snap = s.snap ∧ t.host = s.host ∧ t.checks = s.checks ∧ t.sec = s.sec ∧ t.pwr = s.pwr ∧ t.kept = s.kept ∧
      t.freeCtr = s.freeCtr ∧ t.phase = .up ∧ t.pending = [] ∧
      (∀ n, (t.core n).window = (s.core n).window ∧ (t.core n).slots = (s.core n).slots ∧ (t.core n).fetched = (s.core n).fetched) ∧
      (∀ f : Fld, f.key ≠ Reg.TIME.NOW.key → (∀ n, f.key ≠ (Reg.CORE.ADMIT_WAIT_NS n).key) →
        (∀ d, f.key ≠ (Reg.DOOR.LEDGER_FULL_NS d).key) → f.key ≠ Reg.SNAP.RESERVE_FULL_NS.key → t.get f = s.get f))

/-- A command that is well-formed answers a next state, whatever the state; an ill-formed packet stops; no command is
refused. -/
def Obligations.StopsExactlyWhenIllFormed : Prop :=
  ∀ (c : Instr) (s : State),
    (c.wellFormed = true → ∃ t, exec c s = .next t) ∧ (c.wellFormed = false → exec c s = .fault .illFormed)

/-- The queue is first in, first out, and a command changes nothing of it; no command but PERST#, the effective release and
a dropped rail changes the phase of the reset sequence. -/
def Obligations.KeepsQueueAndPhase : Prop :=
  ∀ (c : Instr) (s t : State), exec c s = .next t →
    t.pending = s.pending ∧
      ((∀ ns, c ≠ .perstAssert ns) → (∀ x, c ≠ .effectiveRelease x) → (∀ r p ns, c ≠ .railDrop r p ns) → t.phase = s.phase)

/-- While the device is in reset, a command that is none of PERST#, the effective release, the rails, the security block's
supply and the tamper sensors has no effect (R531, R533). -/
def Obligations.OnlyResetsActInReset : Prop :=
  ∀ (c : Instr) (s : State), s.phase ≠ .up → actsInReset c = false → c.wellFormed = true → exec c s = .next s

/-- What a state in reset holds is what a reset keeps, and every step keeps it so: under PERST# every register, memory, slot,
ring, job and key is as after reset; after a dropped rail all but the security block is (R533, R534). -/
def Obligations.ResetHoldsIsKept : Prop :=
  ∀ s t : State, s.resetHolds → step s = .next t → t.resetHolds

/-- The state after reset holds what it must, and its memories are in canonical form. -/
def Obligations.ResetStateHolds : Prop :=
  State.reset.resetHolds ∧ State.reset.canonical = true

/-! ### Dispatch and the instructions (chapters 2, 4 to 7) -/

/-- Every dispatch command follows one rule: where no instruction of its queue is ready nothing changes, but that packets which
wait at the doors and have room come before an instruction of the expert router (log entry 103); a ready one that a hazard holds
is counted once (R202); one whose window entry fails its parity check faults with POISON (R401, R413), one that comes too late
with LATE, and is recorded first (R45), an xret after it has sent the returns that it owes, poisoned (R345), if its stream still
runs then. -/
def Obligations.DispatchFollowsOneRule : Prop :=
  ∀ (r : Instr) (c : CoreIx) (op : Nat) (s : State), dispatchRow r = some (c, op) → s.phase = .up →
    let u := s.atDispatch op
    ((∀ i, ¬u.ready c.val op i) → exec r s = .next (u.keeping s)) ∧
    (∀ i, u.ready c.val op i → u.hazard c.val i = true → exec r s = .next ((if i.delayed then u
      else (u.mapInsn c.val i.tag fun x => { x with delayed := true }).inc (Reg.CORE.HAZARD_WAIT c.val) 1).keeping s)) ∧
    (∀ i, u.ready c.val op i → u.hazard c.val i = false → (i.bad = true ∨ u.tooLate c.val i = true) →
      let v := u.owing c.val op i
      ((∀ j, ¬v.ready c.val op j) → exec r s = .next (v.keeping s)) ∧
      (v.ready c.val op i → v.hazard c.val i = false → i.bad = true →
        exec r s = .next ((v.takeFault c.val i ⟨cPOISON, 5, 0, 0⟩).keeping s)) ∧
      (v.ready c.val op i → v.hazard c.val i = false → i.bad = false → i.launch = 2 → 2 < v.now - i.time →
        v.get (Reg.CORE.FAULT_NS c.val) ≠ 0 → v.get (Reg.CORE.FAULT_NS c.val) < v.now - i.time →
        exec r s = .next (((((v.inc (Reg.CORE.LATE_COUNT c.val) 1).put (Reg.CORE.LATE_SLOT c.val) i.lslot).put
          (Reg.CORE.LATENESS_NS c.val) (min (v.now - i.time) (2 ^ 28 - 1))).takeFault c.val i
            ⟨cLATE, 0, 0, min (v.now - i.time) (2 ^ 32 - 1) + i.lslot * 2 ^ 32⟩).keeping s)))

/-- What nop, end, sync, cnt and jmp do when they dispatch (R208 to R210): a nop is complete at once, a cnt writes its loop
counter, a jmp jumps, counts its loop down, faults with POISON where the counter fails its parity check (R401), or asks for the
latch that decides it. -/
def Obligations.ControlInstructionsRun : Prop :=
  ∀ (c : CoreIx) (s : State) (i : Insn),
    (s.goes c.val 0x00 i → exec (.nop c) s = .next ((s.sent c.val i).markDone c.val i.tag Cnt.none)) ∧
    (s.goes c.val 0x01 i → exec (.endInstr c) s = .next (s.sent c.val i)) ∧
    (s.goes c.val 0x04 i → exec (.sync c) s = .next (s.sent c.val i)) ∧
    (s.goes c.val 0x03 i → exec (.cnt c) s = .next ((((s.sent c.val i).put
      (Reg.CORE.LOOP_COUNT c.val (i.mod 35 32)) (i.mod 31 0)).freshWords c.val [4112 + i.mod 35 32]).markDone c.val i.tag
        Cnt.none)) ∧
    (s.goes c.val 0x02 i → i.mod 35 34 = 0 →
      exec (.jmp c) s = .next (if i.lateJmp then
        ((s.sent c.val i).markDone c.val i.tag Cnt.none).redirect c.val i.target
        else (s.sent c.val i).markDone c.val i.tag Cnt.none)) ∧
    (s.goes c.val 0x02 i → i.mod 35 34 = 3 → (s.core c.val).badWords.contains (4112 + i.mod 23 20) = true →
      exec (.jmp c) s = .next ((((s.sent c.val i).markDone c.val i.tag Cnt.none).takeFault c.val i ⟨cPOISON, 0, 0, 0⟩).keeping
        s)) ∧
    (s.goes c.val 0x02 i → i.mod 35 34 = 3 → (s.core c.val).badWords.contains (4112 + i.mod 23 20) = false →
      s.get (Reg.CORE.LOOP_COUNT c.val (i.mod 23 20)) = 0 →
      exec (.jmp c) s = .next ((s.sent c.val i).markDone c.val i.tag Cnt.none)) ∧
    (s.goes c.val 0x02 i → i.mod 35 34 = 3 → (s.core c.val).badWords.contains (4112 + i.mod 23 20) = false →
      s.get (Reg.CORE.LOOP_COUNT c.val (i.mod 23 20)) ≠ 0 →
      exec (.jmp c) s = .next ((((s.sent c.val i).markDone c.val i.tag Cnt.none).put
        (Reg.CORE.LOOP_COUNT c.val (i.mod 23 20)) (s.get (Reg.CORE.LOOP_COUNT c.val (i.mod 23 20)) - 1)).redirect
          c.val i.target)) ∧
    (s.goes c.val 0x02 i → i.mod 35 34 = 1 ∨ i.mod 35 34 = 2 →
      exec (.jmp c) s = .next (((s.sent c.val i).mapInsn c.val i.tag fun x => { x with waits := 1 }).injectLatch
        (routerOf c.val) c.val (i.mod 33 20) .read (some (c.val, i.tag)) false))

/-- What dload, dmod, dset, slotset, rngld and rngst do when they dispatch, their checks pass and nothing they read is
unmapped or poisoned (R211 to R215): a dmod moves the address, the scale's address or both of a descriptor whose checks pass
(log entry 92 says which they are); a slotset writes its slot from now, from another slot, from memory, or marks it invalid. An instruction that
has read or written memory is done when its requests are complete. -/
def Obligations.DescriptorInstructionsRun : Prop :=
  ∀ (c : CoreIx) (s s' : State) (i : Insn),
    (∀ data, s.goes c.val 0x08 i → dloadFlt i (s.jobOf c.val) = none →
      (s.sent c.val i).readVa c.val (s.jobOf c.val) (i.td roleA).base (128 * (i.mod 35 24 + 1)) = (s', data, false, .done) →
      exec (.dload c) s = .next (((s'.loadSlots c.val i.dslot (i.mod 35 24 + 1) data).doneAfter c.val i).keeping s)) ∧
    (∀ b x : Nat, s.goes c.val 0x09 i → (parseTD i.dA).carried roleA = none → b < 2 ^ 57 → x < 2 ^ 57 →
      (b : Int) = (bitsOf i.dA.toNat 56 0 : Int) + 64 * signed 34 (i.mod 33 0) →
      (x : Int) = ((i.dA.toNat / 2 ^ 576 % 2 ^ 57 : Nat) : Int) + 64 * signed 34 (i.mod 33 0) →
      (i.mod 35 34 = 0 → exec (.dmod c) s =
        .next (((s.sent c.val i).setSlot c.val i.dslot (setField i.dA 0 57 b)).markDone c.val i.tag Cnt.none)) ∧
      (i.mod 35 34 = 1 → exec (.dmod c) s =
        .next (((s.sent c.val i).setSlot c.val i.dslot (setField i.dA 576 57 x)).markDone c.val i.tag Cnt.none)) ∧
      (i.mod 35 34 = 2 → exec (.dmod c) s =
        .next (((s.sent c.val i).setSlot c.val i.dslot (setField (setField i.dA 0 57 b) 576 57 x)).markDone c.val i.tag
          Cnt.none))) ∧
    (∀ v, s.goes c.val 0x0A i → dsetFlt i (s.jobOf c.val) = none →
      (s.sent c.val i).readElem c.val roleX (i.td roleX) (i.mod 32 21) = (s', .inr v) →
      exec (.dset c) s = .next (((s'.setSlot c.val i.dslot (setField i.dA (8 * (16 + 4 * i.mod 35 33)) 32
        (min (max 0 (signed (i.td roleX).wbits v)).toNat ((i.td roleA).size (i.mod 35 33))))).doneAfter c.val i).keeping s)) ∧
    (∀ v, s.goes c.val 0x0B i → i.mod 31 30 = 2 →
      (i.td roleA).check roleA (s.jobOf c.val) [0x0D] false false false = none → (i.td roleA).rank = 1 →
      1 ≤ (i.td roleA).size 0 → (s.sent c.val i).readElem c.val roleA (i.td roleA) 0 = (s', .inr v) → v < 2 ^ 63 →
      v + i.mod 25 0 < 2 ^ 64 →
      exec (.slotset c) s = .next (((s'.setLaunch c.val (i.mod 35 32) (v + i.mod 25 0)).doneAfter c.val i).keeping s)) ∧
    (s.goes c.val 0x0B i → i.mod 31 30 = 0 → s.now + i.mod 25 0 < 2 ^ 64 →
      exec (.slotset c) s = .next (((s.sent c.val i).setLaunch c.val (i.mod 35 32) (s.now + i.mod 25 0)).markDone
        c.val i.tag Cnt.none)) ∧
    (s.goes c.val 0x0B i → i.mod 31 30 = 1 → (s.core c.val).badWords.contains (4096 + i.mod 29 26) = false →
      bitOf (s.get (Reg.CORE.LSLOT_VALID c.val)) (i.mod 29 26) = true →
      s.get (Reg.CORE.LSLOT_TIME c.val (i.mod 29 26)) + i.mod 25 0 < 2 ^ 64 →
      exec (.slotset c) s = .next (((s.sent c.val i).setLaunch c.val (i.mod 35 32)
        (s.get (Reg.CORE.LSLOT_TIME c.val (i.mod 29 26)) + i.mod 25 0)).markDone c.val i.tag Cnt.none)) ∧
    (s.goes c.val 0x0B i → i.mod 31 30 = 3 →
      exec (.slotset c) s = .next (((s.sent c.val i).clearLaunch c.val (i.mod 35 32)).markDone c.val i.tag Cnt.none)) ∧
    (s.goes c.val 0x0C i → rngFlt i roleA (s.jobOf c.val) = none →
      (s.sent c.val i).loadLanes c.val i (i.td roleA) (List.range (i.mod 27 20 + 1)) = (s', none) →
      exec (.rngld c) s = .next ((s'.doneAfter c.val i).keeping s)) ∧
    (∀ s'' b, s.goes c.val 0x0D i → rngFlt i roleD (s.jobOf c.val) = none →
      (s.sent c.val i).bindTD c.val (s.jobOf c.val) .anywhere roleD
        { i.td roleD with sizes := [i.mod 27 20 + 1] } false true = (s'', .inr b) →
      s''.storeLanes c.val i { i.td roleD with sizes := [i.mod 27 20 + 1] } (List.range (i.mod 27 20 + 1)) = (s', none) →
      exec (.rngst c) s = .next ((s'.doneAfter c.val i).keeping s))

/-- What gmm, gact and tload do when they go, their checks pass and no element that they use is poisoned (a gmm whose D is
empty uses none): a gmm writes to each element of D the accumulated and fused value, a gact the function of its sources, and a
tload loads the table (R91 to R113). What is written awaits its check (R116). -/
def Obligations.GarnetInstructionsRun : Prop :=
  ∀ (c : CoreIx) (s s' : State) (i : Insn) (b : Bound),
    (let out := (gmmOrder i (gmmShape i)).map fun e =>
       (e, s'.fuse c.val i (s'.gmmElem b i (gmmShape i) e.1 e.2.1 e.2.2.1))
     let u := (s'.gmmCount c.val b i (gmmShape i)).countAbove c.val (out.map fun r => (⟨lin (i.td roleD).sizes ([r.1.2.1, r.1.1] ++ r.1.2.2.1),
       r.1.2.2.2, r.2.1⟩, r.2.2))
     let w := u.writeResults c.val (i.mod 1 0) b (i.td roleD)
       (out.map fun r => ⟨lin (i.td roleD).sizes ([r.1.2.1, r.1.1] ++ r.1.2.2.1), r.1.2.2.2, r.2.1⟩)
     s.goes c.val 0x10 i → gmmFlt i (s.jobOf c.val) = none →
      (s.sent c.val i).bindAll (sliceOf 2 c.val) (s.jobOf c.val) (.own c.val) (gmmOperands i) = (s', .inr b) →
      gmmAlias b i = none → s'.tableFlt c.val i = none →
      ((i.td roleD).count ≠ 0 → s'.poisonFlt b ([(roleA, i.td roleA), (roleB, i.td roleB)] ++
        (if i.mod 16 16 = 1 then [(roleX, i.td roleX)] else [])) = none) →
      exec (.gmm c) s = .next (((w.1.pushCheck c.val 2 i.tag (w.1.jobOf c.val) 0 b).markDone c.val i.tag w.2).keeping s)) ∧
    (let out := (List.range (i.td roleD).count).map fun l => (l, s'.gactElem c.val b i l)
     let u := ({ s' with freeCtr := s'.freeCtr + 4 * (i.td roleD).count + 4 } : State).inc (Reg.CORE.ACT_ABOVE c.val)
       (out.filter fun r => r.2.2).length
     let w := u.writeResults c.val (i.mod 1 0) b (i.td roleD) (out.map fun r => ⟨r.1, r.1 % 256, r.2.1⟩)
     s.goes c.val 0x18 i → gactFlt i (s.jobOf c.val) = none →
      (s.sent c.val i).bindAll (sliceOf 4 c.val) (s.jobOf c.val) (.own c.val) (⟨roleD, i.td roleD, false, true⟩ ::
        (gactSources i).map fun r => ⟨r, i.td r, true, (i.td r).same (i.td roleD)⟩) = (s', .inr b) →
      s'.tableFlt c.val i = none → s'.poisonFlt b ((gactSources i).map fun r => (r, i.td r)) = none →
      exec (.gact c) s = .next (((w.1.pushCheck c.val 4 i.tag (w.1.jobOf c.val) 0 b).markDone c.val i.tag w.2).keeping s)) ∧
    (let data := s'.tableImage b (i.td roleA)
     s.goes c.val 0x19 i → tloadFlt i (s.jobOf c.val) = none →
      (s.sent c.val i).bindAll (sliceOf 4 c.val) (s.jobOf c.val) (.own c.val) [⟨roleA, i.td roleA, true, false⟩] = (s', .inr b) →
      s'.poisonFlt b [(roleA, i.td roleA)] = none →
      -126 ≤ signed 16 (natOf (slice 0 2 data)) → signed 16 (natOf (slice 0 2 data)) ≤ 112 →
      exec (.tload c) s = .next (((s'.loadTable c.val (i.mod 0 0) data).markDone c.val i.tag Cnt.none).keeping s))

/-- What an mcopy and the mover's commands do (R219, R264 to R281). An mcopy whose checks pass starts its transfer on its
channel. A channel that no other goes before issues the reads that its open bursts still have to make, or else the next burst that it
may cut, where its pages translate: it is opened, issues its reads, and is written where every read is answered; one that another
goes before waits, and so does a paced channel without a request. A raised line counts
up to 65,535. A context word takes what Sill firmware writes to an idle channel: word 0 its fields, words 2 to 6 a zero alone;
a write to word 0 of a busy channel is refused in CTX_BUSY, and every other write has no effect. -/
def Obligations.MoversRun : Prop :=
  ∀ (c : CoreIx) (m : MoverIx) (ch : Fin 4096) (k : Fin 8) (v : BitVec 64) (s s' : State) (i : Insn) (r : Run)
    (pages : Bound),
    (s.goes c.val 0x30 i → mcopyFlt i (s.jobOf c.val) = none →
      (i.mod 17 17 = 1 → s.members.contains (i.mod 23 18) = true) →
      bitOf (s.ctx c.val (i.mod 35 24) 0) 63 = true → bitsOf (s.ctx c.val (i.mod 35 24) 0) 5 0 = s.jobOf c.val →
      exec (.mcopy c) s = .next (((s.sent c.val i).startRun c.val i).keeping s)) ∧
    (s.phase = .up → s.run? m.val ch.val = some r →
      (s.hasReads r = true → s.behind r = false →
        exec (.burstIssue m ch) s = .next ((s.settle m.val ch.val).keeping s)) ∧
      (s.hasReads r = false → s.canCut r = true → s.noRequest r = false → s.behind r = false → s.cutOff r = false →
        s.bindParts r.src r.job (s.plan r).parts [] = (s', .inr pages) →
        exec (.burstIssue m ch) s = .next ((s'.openBurst r (s.plan r) pages).keeping s)) ∧
      (s.hasReads r = false → s.canCut r = true → s.noRequest r = true →
        exec (.burstIssue m ch) s = .next ((s.putChan m.val ch.val r.tag 4).mapRun m.val ch.val
          fun x => { x with waitingReq := true })) ∧
      (s.behind r = true → s.hasReads r = true ∨ s.canCut r = true ∧ s.noRequest r = false →
        exec (.burstIssue m ch) s = .next s)) ∧
    (let line := Reg.MOVER.LINE_COUNT m.val (bitsOf v.toNat 36 32)
     let sum := s.get line + bitsOf v.toNat 15 0
     s.phase = .up → s.host.d3hot = false → s.moverPresent m.val = true →
      (sum ≤ 65535 → exec (.moverReqRaise m v) s = .next (s.put line sum)) ∧
      (65535 < sum → exec (.moverReqRaise m v) s =
        .next ((s.inc (Reg.MOVER.MOVER_REQ_OVF m.val) (sum - 65535)).put line 65535))) ∧
    (let at_ := s.get (Reg.MOVER.CTX_SEL m.val)
     s.phase = .up → s.moverPresent m.val = true →
      (s.chanIdle m.val at_ = true → k.val ≠ 0 → k.val ≠ 1 → k.val ≠ 7 → v = 0 →
        exec (.ctxDataWrite m k v true) s = .next (s.setCtx m.val at_ k.val 0)) ∧
      (s.chanIdle m.val at_ = true → k.val = 0 →
        exec (.ctxDataWrite m k v true) s = .next (s.setCtx m.val at_ 0 (bitsOf v.toNat 5 0 + bitsOf v.toNat 38 36 * 2 ^ 36 +
          bitsOf v.toNat 52 40 * 2 ^ 40 + bitsOf v.toNat 63 57 * 2 ^ 57))) ∧
      (s.chanIdle m.val at_ = false → k.val = 0 →
        exec (.ctxDataWrite m k v true) s = .next (s.put (Reg.MOVER.CTX_BUSY m.val) 1)) ∧
      (k.val = 1 ∨ k.val = 7 ∨ (k.val ≠ 0 ∧ (s.chanIdle m.val at_ = false ∨ v ≠ 0)) →
        exec (.ctxDataWrite m k v true) s = .next s))

/-- What the Beryl instructions do when they are taken, no index or count is out of its range, no tile breaks a condition and
no element that stops them is poisoned: bgather writes a row of A, or padding, for each index; bscatter merges or copies the
rows that its indices name; bsort writes the sorted keys and their positions; bgroup writes the rows in their groups and the
table; bragged the columns of its sequences; bunpack the elements of the tiles; baudit the entries that it clears (R122 to
R149). Each adds its counts. -/
def Obligations.BerylInstructionsRun : Prop :=
  ∀ (c : CoreIx) (s s' : State) (i : Insn) (b : Bound),
    (let rows := s'.gatherRows b i (s'.ints b (i.td roleB)).length
     s.berylTakes c.val 0x20 i (bgatherFlt i (s.jobOf c.val)) s' b →
      s'.poisonFlt b ((roleB, i.td roleB) :: (if i.mod 2 2 = 1 then [(roleX, i.td roleX)] else [])) = none →
      badIndex (s'.ints b (i.td roleB)) (s'.gatherMask b i) (i.td roleA).rows = none → killSectors b rows = [] →
      exec (.bgather c) s = .next ((((s'.berylBegin c.val i (32 + ceilDiv ((s'.ints b (i.td roleB)).length *
        (i.td roleA).rowPieces) 64)).gatherCount c.val b i (s'.ints b (i.td roleB)).length
          (List.range (s'.ints b (i.td roleB)).length)).berylDone c.val i b rows
          Cnt.none).keeping s)) ∧
    (let idx := s'.ints b (i.td roleB)
     let out := s'.mergeRows b i idx (namedRows idx (i.td roleD).rows)
     s.berylTakes c.val 0x21 i (bscatterFlt i (s.jobOf c.val)) s' b →
      s'.poisonFlt b ((roleB, i.td roleB) :: (if i.mod 4 4 = 1 then [(roleX, i.td roleX)] else [])) = none →
      badIndex idx [] (i.td roleD).rows = none → i.mod 2 2 = 1 →
      (∀ r ∈ namedRows idx (i.td roleD).rows, s'.mergePoison b i (positionsOf idx r) r = none) →
      exec (.bscatter c) s = .next ((((s'.scatterBegin c.val b i).scatterCount c.val b i idx).berylDone c.val i b
        ((mergeEls (i.td roleD).wbits out).map Prod.fst) (out.foldl (fun k e => k.add e.2.2) Cnt.none)).keeping s)) ∧
    (let idx := s'.ints b (i.td roleB)
     s.berylTakes c.val 0x21 i (bscatterFlt i (s.jobOf c.val)) s' b →
      s'.poisonFlt b ((roleB, i.td roleB) :: (if i.mod 4 4 = 1 then [(roleX, i.td roleX)] else [])) = none →
      badIndex idx [] (i.td roleD).rows = none → i.mod 2 2 = 0 →
      (dupCount idx (i.td roleD).rows = 0 ∨ (i.td roleD).ordered = true) → killSectors b (s'.scatterRows b i idx) = [] →
      exec (.bscatter c) s = .next ((((s'.scatterBegin c.val b i).scatterCount c.val b i idx).berylDone c.val i b
        (s'.scatterRows b i idx) Cnt.none).keeping s)) ∧
    (let keys := s'.ints b (i.td roleB)
     let out := sortKeys (i.mod 2 2 == 1) keys
     s.berylTakes c.val 0x22 i (bsortFlt i (s.jobOf c.val)) s' b → s'.poisonFlt b [(roleB, i.td roleB)] = none →
      exec (.bsort c) s = .next (((((s'.berylBegin c.val i (32 + sortBeats keys.length)).inc
        (Reg.CORE.BERYL_INDICES c.val) keys.length)).berylDone c.val i b
          ((out.zipIdx.map fun e => (i.td roleD).el [e.2] (unsigned (i.td roleD).wbits e.1.1)) ++
            (if i.mod 3 3 = 1 then out.zipIdx.map fun e => (i.td roleX).el [e.2] e.1.2 else [])) Cnt.none).keeping s)) ∧
    (let counts := s'.groupCounts b i
     let m := counts.length
     let tail := s'.auditTail c.val i counts
     s.berylTakes c.val 0x23 i (bgroupFlt i (s.jobOf c.val)) s' b → s'.poisonFlt b [(roleB, i.td roleB)] = none →
      (∀ p, p < m → 0 ≤ counts.getD p 0) →
      ((i.td roleD).type = 0x0C → ∀ r ∈ (i.placed counts).1 ++ tail, r < 2 ^ 31) →
      exec (.bgroup c) s = .next ((((((s'.berylBegin c.val i (32 + 2 * (if (i.td roleB).type = 0x0F then
        max (ceilDiv m 64) (ceilDiv (i.td roleB).maskBytes 2048) else ceilDiv m 64))).inc
          (Reg.CORE.BERYL_INDICES c.val) m).inc (Reg.CORE.BERYL_DROPPED c.val)
            (if i.mod 2 2 = 1 then (groupRows counts 0).length - tail.length else 0)).inc
              (Reg.CORE.AUDIT_SAMPLED c.val) tail.length).berylDone c.val i b (i.groupEls (i.placed counts) tail)
                Cnt.none).keeping s)) ∧
    (let off := s'.ints b (i.td roleB)
     let perm := s'.raggedPerm b i
     s.berylTakes c.val 0x24 i (braggedFlt i (s.jobOf c.val)) s' b →
      s'.poisonFlt b ((if i.mod 3 3 = 1 then [(roleA, i.td roleA)] else []) ++ [(roleB, i.td roleB)]) = none →
      badOffset off = none → badIndex perm [] (off.length - 1) = none →
      badColumn (i.td roleD) off perm (i.mod 2 2 == 1) = none →
      exec (.bragged c) s = .next (((((s'.berylBegin c.val i (32 + 2 * ceilDiv off.length 64 +
        ceilDiv ((i.td roleD).size 0 * (i.td roleD).size 1) (if (i.td roleD).type = 0x0C then 512 else 256))).inc
          (Reg.CORE.BERYL_INDICES c.val) (off.length + if i.mod 3 3 = 1 then perm.length else 0)).inc
            (Reg.CORE.BERYL_TRUNC c.val) ((perm.map fun q => seqLen off q - (i.td roleD).size 0).sum)).berylDone c.val i b
              (raggedEls (i.td roleD) off perm) Cnt.none).keeping s)) ∧
    (let tiles := (tilesOf (i.td roleA)).zipIdx
     s.berylTakes c.val 0x25 i (bunpackFlt i (s.jobOf c.val)) s' b → (∀ e ∈ tiles, s'.tileFlt b i e = none) →
      exec (.bunpack c) s = .next ((((s'.berylBegin c.val i (32 + 2 * tiles.length)).tileCount c.val b i tiles).berylDone
        c.val i b (s'.unpacked b i tiles) Cnt.none).keeping s)) ∧
    (let first := s'.elem b (i.td roleB) [32]
     let tail := s'.elem b (i.td roleB) [33]
     let rows := (List.range tail).map (first + ·)
     s.berylTakes c.val 0x26 i (bauditFlt i (s.jobOf c.val)) s' b →
      s'.poisonFlt b [(roleB, i.td roleB), (roleX, i.td roleX), (roleD, i.td roleD)] = none →
      first + tail ≤ (i.td roleA).rows →
      first + tail ≤ (i.td roleD).count → s'.poisonedElems b (i.td roleA) ((rows.map i.rowIxs).flatten) = none →
      exec (.baudit c) s = .next (((((s'.berylBegin c.val i (32 + ceilDiv (tail * (i.td roleA).size 0) 256)).auditCount
        c.val i (rows.filter (s'.hotRow b i)).length).auditAlarm c.val i (rows.filter (s'.hotRow b i)).length
          tail).berylDone c.val i b (s'.auditEls b i rows) Cnt.none).keeping s))

/-- What lop, barr and mwait do when they go (R220 to R222): a lop sends a message to the home of each latch of its range, a
barr an arrival to its counter's home, and a mwait, whose monitor is not armed and whose word and comparand can be read and are
not poisoned, is met at once or arms its monitor. -/
def Obligations.SyncInstructionsRun : Prop :=
  ∀ (c : CoreIx) (s s1 s2 s3 : State) (i : Insn),
    (let n := i.mod 19 8 + 1
     s.goes c.val 0x40 i →
      exec (.lop c) s = .next { (s.sent c.val i).mapInsn c.val i.tag fun x => { x with waits := n } with
        net := { s.net.crossTo (routerOf c.val) ((List.range n).map fun k => (i.mod 33 20 + k) % 16384) with
          latchMsgs := s.net.latchMsgs ++ (List.range n).map fun k =>
            ⟨c.val, (i.mod 33 20 + k) % 16384, if i.mod 35 34 = 0 then .set else .clear, some (c.val, i.tag), false,
              routerOf c.val, s.net.sent + k⟩,
          sent := s.net.sent + n } }) ∧
    (s.goes c.val 0x41 i →
      exec (.barr c) s = .next { s.sent c.val i with
        net := { s.net.cross (routerOf c.val) (homeRouter (i.mod 35 25)) with
          arrivals := s.net.arrivals ++ [⟨c.val, i.mod 35 25, i.tag, false, false, s.net.sent⟩], sent := s.net.sent + 1 } }) ∧
    (∀ (pa : Nat) (kill snap : Bool) (a x : Bytes),
      s.goes c.val 0x42 i → mwaitFlt i (s.jobOf c.val) = none → s.get (Reg.BARRIER.MON_ARMED (i.mod 35 28)) ≠ 1 →
      (s.sent c.val i).xlat c.val (s.jobOf c.val) (i.td roleA).base true false = (s1, .ok pa kill snap) →
      inHost pa = false → s1.readVa c.val (s.jobOf c.val) (i.td roleX).base 8 = (s2, x, false, .done) →
      s2.readPa c.val (s.jobOf c.val) pa 8 = (s3, a, false) →
      exec (.mwait c) s = .next ((if monHolds (i.mod 27 26) (natOf a) (natOf x) then
          (s3.inc Reg.BARRIER.MON_WAKE 1).markDone c.val i.tag Cnt.none
        else s3.arm c.val (i.mod 35 28) i pa (natOf x)).keeping s))

/-- What agput, xdisp, xrecv and xret do when they go and their checks pass: a contribution joins those that wait, or is
discarded after the verdict (R377, R378); an xdisp and an xrecv join their batch with what they bring, behind the packets at
the doors that have room (R334, R336, R343; log entry 103); an xret whose tags pass, whose results have a way and whose rows
translate sends every row of its tag table to its source, and is done when its reads are complete (R345). -/
def Obligations.ReductionAndExpertInstructionsRun : Prop :=
  ∀ (c : CoreIx) (s s1 s2 s3 s4 : State) (i : Insn),
    (s.goes c.val 0x50 i → s.agputConfig c.val (i.mod 35 20) (i.mod 19 4) = true → s.get Reg.AGATE.STEP_STATE = 2 →
      exec (.agput c) s = .next (((s.sent c.val i).inc Reg.AGATE.DISCARD 1).markDone c.val i.tag Cnt.none)) ∧
    (s.goes c.val 0x50 i → s.agputConfig c.val (i.mod 35 20) (i.mod 19 4) = true → s.get Reg.AGATE.STEP_STATE ≠ 2 →
      agputFlt i (s.jobOf c.val) (s.get (Reg.AGATE.BUCKET_N (i.mod 35 20)))
        (s.get (Reg.AGATE.BUCKET_OUT_TYPE (i.mod 35 20))) = none →
      exec (.agput c) s = .next { s.sent c.val i with agate := { s.agate with
        dispatched := assocPut (i.mod 35 20) (lookupD 0 (i.mod 35 20) s.agate.dispatched + 1) s.agate.dispatched,
        waiting := s.agate.waiting ++ [⟨c.val, i.tag, i.mod 35 20, i.dD, i.dA, i.dX⟩] } }) ∧
    (∀ (pages back : Bound) (mb mx : List (Nat × Byte)) (l : List (Option Nat)),
      let u := s.seat
      s.phase = .up → u.goes c.val 0x58 i → u.genRetired i.gen = false → u.dispCores.contains c.val = true →
      (∀ b, u.batch? i.gen = some b → (b.xdisps.any fun p => p.core == c.val) = false) →
      xdispFlt i (u.jobOf c.val) = none → u.unreachable = false →
      (u.sent c.val i).bindAll expSrc (u.jobOf c.val) .anywhere
        [⟨roleD, i.td roleD, false, true⟩, ⟨roleA, i.td roleA, true, false⟩] = (s1, .inr pages) →
      s1.bindReturn (u.jobOf c.val) (u.get (Reg.EXPERT.RETURN_BASE c.val (i.gen % 4)))
        ((i.td roleA).size 1 * (i.mod 19 18 + 1) * (i.td roleA).rowLen) = (s2, .inr back) →
      s2.readSpans expSrc (u.jobOf c.val) (spans (elemBytes ((i.td roleB).places (i.td roleB).allIx))) = (s3, mb, .done) →
      s3.readSpans expSrc (u.jobOf c.val) (spans (elemBytes ((i.td roleX).places (i.td roleX).allIx))) = (s4, mx, .done) →
      s4.classify i mb mx ((List.range ((i.td roleA).size 1)).flatMap fun t =>
        (List.range (i.mod 19 18 + 1)).map fun k => (k, t)) = .inr l →
      exec (.xdisp c) s = .next (((s4.joinXdisp c.val i (pages ++ back) l false).inc Reg.EXPERT.UNROUTED
        (l.filter Option.isNone).length).keeping s)) ∧
    (∀ pages : Bound,
      let u := s.seat
      s.phase = .up → u.goes c.val 0x59 i → u.genRetired i.gen = false → u.placedHere (i.mod 19 14) = true →
      (∀ b, u.batch? i.gen = some b → (b.xrecvs.any fun p => p.expert == i.mod 19 14) = false) →
      u.xrecvFlt i (u.jobOf c.val) (i.mod 19 14) = none →
      (u.sent c.val i).bindAll expSrc (u.jobOf c.val) .anywhere
        [⟨roleD, i.td roleD, false, true⟩, ⟨roleX, i.td roleX, false, true⟩] = (s1, .inr pages) →
      exec (.xrecv c) s = .next (((s1.openBatch i.gen (u.jobOf c.val)).mapBatch i.gen fun b => { b with
        xrecvs := b.xrecvs ++ [⟨c.val, i.tag, u.jobOf c.val, i.mod 19 14, i.dD, i.dA, i.dX, false, false, pages, 1, [], 0, none,
          [], []⟩] }).keeping s)) ∧
    (∀ (b : Batch) (m : List (Nat × Byte)) (l : List (Nat × Nat)),
      let u := s.seat
      s.phase = .up → u.goes c.val 0x5A i → u.batch? i.gen = some b →
      (b.xrets.any fun x => x.expert == i.mod 19 14) = false →
      u.placedHere (i.mod 19 14) = true → u.xretFlt i (u.jobOf c.val) = none →
      (u.sent c.val i).readSpans expSrc (u.jobOf c.val) (spans (elemBytes ((i.td roleB).places (i.td roleB).allIx))) =
        (s1, m, .done) →
      signed 64 (codeIn m ((i.td roleB).bitAddr [0]) 64) ≤ ((i.td roleA).size 1 : Int) →
      checkTags i.gen (i.mod 19 14) ((i.td roleA).size 1) ((List.range ((i.td roleB).size 0 - 2)).map fun j =>
        (j, codeIn m ((i.td roleB).bitAddr [j + 2]) 64)) = .inr l →
      s1.noWayBack l = false → s1.sendResults (u.jobOf c.val) i.gen (i.td roleA) l [] = (s2, none) →
      exec (.xret c) s = .next (((s2.noteXret i.gen ⟨i.mod 19 14, true, c.val, i.tag⟩).after 35
        (.done c.val i.tag)).keeping s))

/-- What the issue unit's own commands do (R44, R192, R195, R200, R204). The word at the fetch address is fetched, where its page
translates and it is not poisoned. The head of the stream, once it has been read and nothing blocks it, enters the window with
the descriptors and the launch time of its slots, where none of them fails its parity check (R401), and sends the watch for its
wait latch. Device time comes to the launch time
of an instruction that has not dispatched. An instruction that has reached its completion point, and whose counts do not fault
it, leaves the window, with its counts, its request line and its post latch; an end ends the stream. -/
def Obligations.IssueUnitRuns : Prop :=
  ∀ (c : CoreIx) (tag : BitVec 32) (s s1 s' : State),
    (∀ pa kill snap data, s.phase = .up → s.streamState c.val = 1 → (s.core c.val).endSeen = false →
      s.present c.val = true →
      s.xlat c.val (s.jobOf c.val) (s.core c.val).fetchPc true false = (s1, .ok pa kill snap) →
      s1.readPa c.val (s.jobOf c.val) pa 16 = (s', data, false) →
      exec (.instructionFetch c) s = .next ((s'.setCore c.val { s'.core c.val with
        fetched := (s'.core c.val).fetched ++ [⟨(s.core c.val).fetchPc, BitVec.ofNat 128 (natOf data), pa⟩],
        fetchPc := ((s.core c.val).fetchPc + 16) % 2 ^ 57 }).keeping s)) ∧
    (∀ (f : Fetched) (rest : List Fetched),
      let j := mkInsn (s.get (Reg.CORE.TAG_NEXT c.val)) f.addr f.word
      let i : Insn := { j with dD := s.slot c.val j.dslot, dA := s.slot c.val j.aslot, dB := s.slot c.val j.bslot,
                               dX := s.slot c.val j.xslot, time := s.get (Reg.CORE.LSLOT_TIME c.val j.lslot) }
      let u := (((s.setCore c.val { s.core c.val with fetched := rest }).put (Reg.CORE.TAG_NEXT c.val)
        (nextTag (s.get (Reg.CORE.TAG_NEXT c.val)))).put (Reg.CORE.PC c.val) ((f.addr + 16) % 2 ^ 57)).inc
          (Reg.CORE.ADMITTED c.val) 1
      let v := u.setCore c.val { u.core c.val with window := (u.core c.val).window ++ [i], endSeen := i.op == 1 }
      let w := if i.waitV then v.sendWatch c.val i.wait else v
      s.phase = .up → (s.core c.val).fetched = f :: rest → s.streamState c.val = 1 → (s.core c.val).endSeen = false →
      s.admitBlocked c.val (mkInsn 0 f.addr f.word) = false → s.fetchOpen c.val f = false → i.badEncoding = false →
      s.parityFlt c.val i = none →
      (i.launch = 1 ∨ i.launch = 2 → bitOf (s.get (Reg.CORE.LSLOT_VALID c.val)) i.lslot = true) →
      exec (.admission c) s = .next ((if i.op = 2 ∧ !i.lateJmp then w.redirect c.val i.target else w).keeping s)) ∧
    (∀ i, s.phase = .up → (s.core c.val).window.find? (fun i => i.tag = tag.toNat) = some i → i.dispatched = false →
      (i.launch = 1 ∨ i.launch = 2) → s.now < i.time → i.time < 2 ^ 64 →
      ∃ t, exec (.launchTimeReached c tag) s = .next t ∧ t.now = i.time ∧ t.mem = s.mem ∧ t.net = s.net ∧ t.runs = s.runs ∧
        (t.core c.val).window = (s.core c.val).window) ∧
    (∀ i, s.phase = .up → (s.core c.val).window.find? (fun i => i.tag = tag.toNat) = some i →
      s.atCompletion c.val i = true → s.numericFault c.val i = false →
      (let u := ((s.addCounts c.val i).dropInsn c.val tag.toNat).routeReq c.val (queueOf i.op)
       let v := if i.postV then u.sendLatch c.val i.post true none else u
       exec (.instructionComplete c tag) s = .next (((if i.op = 1 ∧ v.streamState c.val = 1 then
           (v.put (Reg.CORE.STREAM_STATE c.val) 3).event 1 (v.jobOf c.val) c.val 0 i.tag else v).applyHeldGen c.val).keeping
             s)))

/-! ### Latches, barriers, monitors, multicast (chapter 10) -/

/-- What a latch's home does with the message that arrives next on its way (R291 to R294): a set writes 1, is counted, notifies
the watchers and is acknowledged, and one of a host latch by a unit of the device is an edge; a clear writes 0, is counted and
acknowledged; a set and a clear of one beat may count as a collision (log entry 99); a watch is answered at once where the latch
is set, and else recorded, once; a read is answered, and its answer, unless a notification or a release stands before it on its
way back (R283; log entry 120), resolves its jmp, which jumps where the latch is as it asks and no halt has set PC meanwhile; an
answer whose jmp is gone resolves nothing. A message that stands behind a barrier message on its way does not arrive yet, nor
one of the host while a snapshot holds a write that the host posted before (R283, R303). -/
def Obligations.LatchHomesAnswer : Prop :=
  ∀ (k : Nat) (s : State) (m : LatchMsg) (rest : List LatchMsg),
    let u : State := { s with net := { s.net with latchMsgs := rest } }
    let c := u.collide m
    let waits : Bool := s.behindBar m || (m.src == 0x401 && !m.close && s.hostHeld)
    s.phase = .up → pick LatchMsg.sameWay k s.net.latchMsgs = some (m, rest) →
    (waits = false → m.op = .set → m.latch < 0x3E00 ∨ (m.close = false ∧ m.src = 0x401) → exec (.latchMessage k) s =
      .next (((((c.put (Reg.LATCH.latch m.latch) 1).inc Reg.LATCH.LATCH_SETS 1).notify m.latch).ackLop m).keeping s)) ∧
    (waits = false → m.op = .set → 0x3E00 ≤ m.latch → m.close = true ∨ m.src ≠ 0x401 → exec (.latchMessage k) s =
      .next ((((((c.put (Reg.LATCH.latch m.latch) 1).inc Reg.LATCH.LATCH_SETS 1).notify m.latch).hostEdge
        m.latch).ackLop m).keeping s)) ∧
    (waits = false → m.op = .clear → exec (.latchMessage k) s =
      .next ((((c.put (Reg.LATCH.latch m.latch) 0).inc Reg.LATCH.LATCH_CLEARS 1).ackLop m).keeping s)) ∧
    (waits = false → m.op = .watch → s.get (Reg.LATCH.latch m.latch) = 1 →
      exec (.watch k) s = .next (u.sendNote m.src m.latch)) ∧
    (waits = false → m.op = .watch → s.get (Reg.LATCH.latch m.latch) ≠ 1 →
      (s.net.watchers.any fun w => w.core == m.src && w.latch == m.latch) = false → exec (.watch k) s =
      .next { u with net := { u.net with watchers := s.net.watchers ++ [⟨m.src, m.latch, m.sent⟩] } }) ∧
    (waits = false → m.op = .watch → s.get (Reg.LATCH.latch m.latch) ≠ 1 →
      (s.net.watchers.any fun w => w.core == m.src && w.latch == m.latch) = true → exec (.watch k) s = .next u) ∧
    (∀ n tag, waits = false → m.op = .read → m.ack = some (n, tag) →
      let a : AckMsg := ⟨homeRouter m.latch, n, tag, .jmp (s.get (Reg.LATCH.latch m.latch) == 1), s.net.sent⟩
      let v : State := { u with net := { u.net.cross a.router (routerOf n) with acks := s.net.acks ++ [a] } }
      exec (.latchRead k) s = .next (v.landAcks.keeping s) ∧
      (s.net.acks = [] → v.ackBehind a = true → exec (.latchRead k) s = .next v) ∧
      (∀ i, s.net.acks = [] → v.ackBehind a = false →
        (s.core n).window.find? (fun i => i.tag = tag && i.op = 2 && i.waits != 0) = some i →
        exec (.latchRead k) s = .next (
          let x := (({ v with net := { v.net with acks := [] } } : State).mapInsn n tag fun x => { x with waits := 0 }).markDone
            n tag Cnt.none
          if (i.mod 35 34 = 1) = (s.get (Reg.LATCH.latch m.latch) == 1) ∧ i.waits = 1 then x.redirect n i.target else x)) ∧
      (s.net.acks = [] → v.ackBehind a = false →
        (s.core n).window.find? (fun i => i.tag = tag && i.op = 2 && i.waits != 0) = none →
        exec (.latchRead k) s = .next { v with net := { v.net with acks := [] } })) ∧
    (waits = false → m.op = .read → m.ack = none → exec (.latchRead k) s = .next u) ∧
    (waits = true → exec (.latchMessage k) s = .next s ∧ exec (.watch k) s = .next s ∧ exec (.latchRead k) s = .next s)

/-- A notification that reaches its core, with no release before it on its way (R283), satisfies every instruction in the window
that waits on the latch, and the core holds no watch for it any more (R292); an answer that stood behind it then arrives (log
entry 120). -/
def Obligations.NotificationsSatisfyWaits : Prop :=
  ∀ (k : Nat) (s : State) (w : WatchMsg) (rest : List WatchMsg), s.phase = .up →
    pick (fun a b => a.way == b.way) k s.net.notes = some (w, rest) → s.behindRelease w = false →
    ∃ t : State, exec (.latchNotification k) s = .next (t.landAcks.keeping s) ∧ t.net = { s.net with notes := rest } ∧
      t.regs = s.regs ∧ t.mem = s.mem ∧
      (t.core w.core).watching = (s.core w.core).watching.filter (fun l => l ≠ w.latch) ∧
      (t.core w.core).window = ((s.core w.core).window.map fun i =>
        if i.waitV && i.wait == w.latch then { i with waitOk := true } else i) ∧
      (s.net.acks = [] → exec (.latchNotification k) s = .next t)

/-- What the home of a barrier counter does with the message that arrives next on its way, with no latch message before it
there (R283, R295, R296, R298): the first arrival of a participant in the open phase is counted in ARRIVED, the next one in
EARLY; a third sets HOST_OVF; one that no valid configuration names is refused. A release ends the barr that waits for it, and
after a kill no barr waits. A withdrawal of a counted arrival clears the participant's bit, in EARLY if it is set there, and
drops its barr, where it stands in a window still; one whose phase has closed clears nothing. -/
def Obligations.BarrierHomesAnswer : Prop :=
  ∀ (k : Nat) (s : State) (a : BarMsg) (rest : List BarMsg),
    let u : State := { s with net := { s.net with arrivals := rest } }
    let mine := fun (x : BarMsg) => x.counter == a.counter && x.part == a.part && x.tag == a.tag && x.dead == a.dead
    s.phase = .up →
    (pick BarMsg.sameWay k s.net.arrivals = some (a, rest) → s.behindLatch a = false → a.leave = false →
      s.get (Reg.BARRIER.CFG_VALID a.counter) = 0 ∨ bitOf (s.get (Reg.BARRIER.CFG_PART a.counter)) a.part = false →
      exec (.barrierArrival k) s = .next ((u.refuseArrival a).keeping s)) ∧
    (pick BarMsg.sameWay k s.net.arrivals = some (a, rest) → s.behindLatch a = false → a.leave = false →
      s.get (Reg.BARRIER.CFG_VALID a.counter) ≠ 0 → bitOf (s.get (Reg.BARRIER.CFG_PART a.counter)) a.part = true →
      (bitOf (s.get (Reg.BARRIER.ARRIVED a.counter)) a.part = false →
        exec (.barrierArrival k) s = .next ((({ u.put (Reg.BARRIER.ARRIVED a.counter)
          (s.get (Reg.BARRIER.ARRIVED a.counter) + 2 ^ a.part) with
            net := { u.net with counted := s.net.counted ++ [a] } } : State).closePhases a.counter
              (if a.part < 8 then a.part else 0x401) 2).keeping s)) ∧
      (bitOf (s.get (Reg.BARRIER.ARRIVED a.counter)) a.part = true →
        bitOf (s.get (Reg.BARRIER.EARLY a.counter)) a.part = false →
        exec (.barrierArrival k) s = .next (({ u.put (Reg.BARRIER.EARLY a.counter)
          (s.get (Reg.BARRIER.EARLY a.counter) + 2 ^ a.part) with
            net := { u.net with counted := s.net.counted ++ [a] } } : State).inc Reg.BARRIER.EARLY_CNT 1)) ∧
      (bitOf (s.get (Reg.BARRIER.ARRIVED a.counter)) a.part = true →
        bitOf (s.get (Reg.BARRIER.EARLY a.counter)) a.part = true →
        exec (.barrierArrival k) s = .next (u.put Reg.BARRIER.HOST_OVF 1))) ∧
    (let v : State := { s with net := { s.net with releases := rest } }
     pick (fun a b => a.back == b.back) k s.net.releases = some (a, rest) → s.behindNote a = false →
      (a.dead = false → exec (.barrierRelease k) s = .next ((v.markDone a.part a.tag Cnt.none).landAcks.keeping s)) ∧
      (a.dead = true → exec (.barrierRelease k) s = .next (v.landAcks.keeping s))) ∧
    (pick BarMsg.sameWay k s.net.arrivals = some (a, rest) → s.behindLatch a = false → a.leave = true →
      s.net.counted.any mine = true →
      let v : State := { u with net := { u.net with counted := s.net.counted.filter fun x => !mine x } }
      (bitOf (s.get (Reg.BARRIER.EARLY a.counter)) a.part = true →
        (let w := v.put (Reg.BARRIER.EARLY a.counter) (s.get (Reg.BARRIER.EARLY a.counter) - 2 ^ a.part)
         exec (.barrierWithdrawal k) s = .next ((if a.dead then w else w.dropInsn a.part a.tag).keeping s))) ∧
      (bitOf (s.get (Reg.BARRIER.EARLY a.counter)) a.part = false →
        bitOf (s.get (Reg.BARRIER.ARRIVED a.counter)) a.part = true →
        (let w := v.put (Reg.BARRIER.ARRIVED a.counter) (s.get (Reg.BARRIER.ARRIVED a.counter) - 2 ^ a.part)
         exec (.barrierWithdrawal k) s = .next ((if a.dead then w else w.dropInsn a.part a.tag).keeping s)))) ∧
    (pick BarMsg.sameWay k s.net.arrivals = some (a, rest) → s.behindLatch a = false → a.leave = true →
      s.net.counted.any mine = false → exec (.barrierWithdrawal k) s = .next u)

/-- The arrival that completes a phase closes it, where what arrived early does not fill the next phase at once (R295): PHASE
flips, CLOSE_CNT counts it, ARRIVED takes over EARLY, which is empty then, and where the configuration says so one message to
set the post latch goes behind the others, under the source of the arrival. -/
def Obligations.LastArrivalClosesThePhase : Prop :=
  ∀ (k : Nat) (s : State) (a : BarMsg) (rest : List BarMsg), s.phase = .up →
    pick BarMsg.sameWay k s.net.arrivals = some (a, rest) → s.behindLatch a = false → a.leave = false → a.counter < 2048 →
    a.part < 9 →
    s.get (Reg.BARRIER.CFG_VALID a.counter) ≠ 0 → bitOf (s.get (Reg.BARRIER.CFG_PART a.counter)) a.part = true →
    bitOf (s.get (Reg.BARRIER.ARRIVED a.counter)) a.part = false → s.get (Reg.BARRIER.CFG_PART a.counter) < 512 →
    s.get (Reg.BARRIER.ARRIVED a.counter) + 2 ^ a.part = s.get (Reg.BARRIER.CFG_PART a.counter) →
    s.get (Reg.BARRIER.EARLY a.counter) < 512 →
    s.get (Reg.BARRIER.EARLY a.counter) ≠ s.get (Reg.BARRIER.CFG_PART a.counter) →
    ∃ t, exec (.barrierArrival k) s = .next t ∧
      t.get (Reg.BARRIER.PHASE a.counter) = (1 - s.get (Reg.BARRIER.PHASE a.counter)) % 2 ∧
      t.get (Reg.BARRIER.CLOSE_CNT a.counter) = (s.get (Reg.BARRIER.CLOSE_CNT a.counter) + 1) % 2 ^ 32 ∧
      t.get (Reg.BARRIER.ARRIVED a.counter) = s.get (Reg.BARRIER.EARLY a.counter) ∧
      t.get (Reg.BARRIER.EARLY a.counter) = 0 ∧
      t.net.latchMsgs.take s.net.latchMsgs.length = s.net.latchMsgs ∧
      (t.net.latchMsgs.drop s.net.latchMsgs.length).map (fun m => (m.src, m.latch, m.op, m.ack, m.close)) =
        (if s.get (Reg.BARRIER.CFG_POST_V a.counter) = 1 then
          [(if a.part < 8 then a.part else 0x401, s.get (Reg.BARRIER.CFG_POST a.counter) % 16384, .set, none, true)] else []) ∧
      t.mem = s.mem

/-- What an armed monitor does with a value that a write leaves in its word: it is counted, and ends the mwait where the
condition holds; poison faults the mwait that armed it; with no monitor armed it is dropped (R300, R301). What the releases of
multicast copies do (R289, R290), and an error in a header, in the payload of a piece, which marks what is in flight of it, or
in the state at a home, of a source that this device has (R2, R20, R285, R401; log entry 116); a corrected error, or one of a
number that is no source, changes nothing. -/
def Obligations.MonitorsAndMulticastRun : Prop :=
  ∀ (k : Nat) (s : State) (e : Nat × BitVec 64) (tg : Nat × Nat) (rest : List (Nat × BitVec 64)),
    let u : State := { s with net := { s.net with monWrites := rest } }
    s.phase = .up →
    (pick (fun a b => a.1 % 256 == b.1 % 256) k s.net.monWrites = some (e, rest) → e.1 < 256 →
      s.net.monTags.find? (fun x => x.1 = e.1) = some tg →
      (monHolds (s.get (Reg.BARRIER.MON_COND e.1)) e.2.toNat (s.get (Reg.BARRIER.MON_COMPARAND e.1)) = false →
        exec (.monitorWrite k) s = .next (u.inc Reg.BARRIER.MON_WRITES 1)) ∧
      (monHolds (s.get (Reg.BARRIER.MON_COND e.1)) e.2.toNat (s.get (Reg.BARRIER.MON_COMPARAND e.1)) = true →
        exec (.monitorWrite k) s = .next (((((u.inc Reg.BARRIER.MON_WRITES 1).disarmOne e.1).inc
          Reg.BARRIER.MON_WAKE 1).markDone (s.get (Reg.BARRIER.MON_CORE e.1)) tg.2 Cnt.none).keeping s))) ∧
    (∀ i, pick (fun a b => a.1 % 256 == b.1 % 256) k s.net.monWrites = some (e, rest) → 256 ≤ e.1 →
      s.net.monTags.find? (fun x => x.1 = e.1 % 256) = some tg →
      (s.core (s.get (Reg.BARRIER.MON_CORE (e.1 % 256)))).window.find? (fun i => i.tag = tg.2) = some i →
      exec (.monitorWrite k) s = .next (((u.disarmOne (e.1 % 256)).takeFault (s.get (Reg.BARRIER.MON_CORE (e.1 % 256))) i
        (fltOf cPOISON roleA (i.td roleA) (i.td roleA).base)).keeping s)) ∧
    (pick (fun a b => a.1 % 256 == b.1 % 256) k s.net.monWrites = some (e, rest) →
      s.net.monTags.find? (fun x => x.1 = e.1 % 256) = none → exec (.monitorWrite k) s = .next u) ∧
    (∀ (g : Fin 32) (targets : BitVec 36), exec (.mcastHoldRelease g targets) s =
      .next (((((List.range 36).filter (bitOf targets.toNat)).foldl (fun s r => s.releaseCopy g.val r) s).waitingMcasts
        g.val).keeping s)) ∧
    (∀ src : BitVec 16, s.isSource src.toNat = true → exec (.meshHeader ⟨src, none⟩) s =
      .next (((s.inc Reg.LATCH.NET_ECC_UNCORR 1).raiseFE src.toNat 7 0x24 0).keeping s)) ∧
    (∀ (src : BitVec 16) (pa : BitVec 57), s.isSource src.toNat = true →
      let mine := fun (r : MemReq) => r.src % 65536 == src.toNat && r.pa / 64 == pa.toNat / 64
      exec (.meshHeader ⟨src, some pa⟩) s = .next { s.inc Reg.LATCH.NET_ECC_UNCORR 1 with wins := s.wins.map fun e => (e.1, { e.2 with
        queue := e.2.queue.map fun r => if r.write && mine r then { r with poison := true, hits := [] } else r
        tags := e.2.tags.map fun t => if !t.req.write && mine t.req then { t with mesh := true } else t }) }) ∧
    (∀ src : BitVec 16, exec (.syncState src true) s = .next s) ∧
    (∀ src : BitVec 16, s.isSource src.toNat = true →
      exec (.syncState src false) s = .next ((s.raiseFE src.toNat 0x0F 0x31 0).keeping s)) ∧
    (∀ (src : BitVec 16) (payload : Option (BitVec 57)), s.isSource src.toNat = false →
      exec (.meshHeader ⟨src, payload⟩) s = .next s ∧ exec (.syncState src false) s = .next s)

/-- What the host and Sill firmware do at the synchronization registers (R295, R299, R303, R304): a 1 written to LATCH.SET
or LATCH.CLR sends its latch's message, in ascending order; the host arrives as participant 8; a counter's configuration
changes only while it is empty, and a write at another time is refused in CFG_BUSY; Sill firmware writes a multicast group only
while nothing of it is in flight, and a write at another time does nothing. -/
def Obligations.SynchronizationRegistersAct : Prop :=
  ∀ (k : Fin 256) (c : Fin 2048) (g : Fin 32) (v : BitVec 64) (sill : Bool) (s : State), s.phase = .up →
    let bits := (List.range 64).filter (bitOf v.toNat)
    let sent := s.net.crossTo (routerOf 0x401) (bits.map (64 * k.val + ·))
    (s.host.d3hot = false → exec (.latchSetWrite k v) s = .next { s with net := { sent with
      latchMsgs := s.net.latchMsgs ++ bits.zipIdx.map fun i =>
        ⟨0x401, 64 * k.val + i.1, .set, none, false, routerOf 0x401, s.net.sent + i.2⟩,
      sent := s.net.sent + bits.length } }) ∧
    (s.host.d3hot = false → exec (.latchClrWrite k v) s = .next { s with net := { sent with
      latchMsgs := s.net.latchMsgs ++ bits.zipIdx.map fun i =>
        ⟨0x401, 64 * k.val + i.1, .clear, none, false, routerOf 0x401, s.net.sent + i.2⟩,
      sent := s.net.sent + bits.length } }) ∧
    (s.host.d3hot = false → exec (.arriveWrite v) s = .next { s with net :=
      { s.net.cross (routerOf 0x401) (homeRouter (bitsOf v.toNat 10 0)) with
      arrivals := s.net.arrivals ++ [⟨8, bitsOf v.toNat 10 0, 0, false, false, s.net.sent⟩], sent := s.net.sent + 1 } }) ∧
    ((s.host.d3hot = false ∨ sill = true) → s.get (Reg.BARRIER.ARRIVED c.val) = 0 → s.get (Reg.BARRIER.EARLY c.val) = 0 →
      exec (.barrierCfgWrite c v sill) s = .next ((((s.put (Reg.BARRIER.CFG_VALID c.val) (bitsOf v.toNat 63 63)).put
        (Reg.BARRIER.CFG_POST_V c.val) (bitsOf v.toNat 47 47)).put (Reg.BARRIER.CFG_POST c.val) (bitsOf v.toNat 46 33)).put
          (Reg.BARRIER.CFG_PART c.val) (bitsOf v.toNat 8 0))) ∧
    ((s.host.d3hot = false ∨ sill = true) →
      ¬(s.get (Reg.BARRIER.ARRIVED c.val) = 0 ∧ s.get (Reg.BARRIER.EARLY c.val) = 0) →
      exec (.barrierCfgWrite c v sill) s = .next (s.put Reg.BARRIER.CFG_BUSY 1)) ∧
    (s.get (Reg.LATCH.MCAST_INFLIGHT g.val) = 0 → exec (.mcastWrite g v true) s =
      .next ((s.put (Reg.LATCH.MCAST_VALID g.val) (bitsOf v.toNat 63 63)).put (Reg.LATCH.MCAST_TARGETS g.val)
        (bitsOf v.toNat 35 0))) ∧
    (s.get (Reg.LATCH.MCAST_INFLIGHT g.val) ≠ 0 → exec (.mcastWrite g v true) s = .next s)

/-! ### Reset, boot and the power manager (chapters 2, 19, 20) -/

/-- What the resets keep and what they clear (R531, R533, R534): after PERST# or a dropped rail every register outside the
security block has its reset value, memory is empty and no instruction, command or packet is in flight; the release starts
device time at 0 and samples the straps. -/
def Obligations.ResetsClearAllButWhatTheyKeep : Prop :=
  ∀ (ns percent : Nat) (rail : Fin 8) (x : Straps) (s : State),
    (100 < ns → s.phase ≠ .perst → ∃ t, exec (.perstAssert ns) s = .next t ∧ t.phase = .perst ∧
      (∀ f, t.get f = f.reset) ∧ t.mem = [] ∧ t.cores = [] ∧ t.wins = [] ∧ t.links = [] ∧ t.later = [] ∧ t.runs = [] ∧
      t.net = NetSt.reset ∧ t.doors = DoorsSt.reset ∧ t.batches = [] ∧ t.kept = s.kept.atPerst ∧ t.host.rings = [] ∧
      t.host.out = s.host.out ∧ t.pending = s.pending) ∧
    (s.phase = .up → rail.val < 5 → percent < 90 → 10000 < ns → ∃ t, exec (.railDrop rail percent ns) s = .next t ∧
      t.phase = .railReset ∧ (∀ f : Fld, f.key < 64 * 0x40000 ∨ 64 * 0x50000 ≤ f.key → t.get f = f.reset) ∧
      (∀ f : Fld, 64 * 0x40000 ≤ f.key → f.key < 64 * 0x50000 → t.get f = s.get f) ∧
      t.mem = [] ∧ t.cores = [] ∧ t.wins = [] ∧ t.links = [] ∧ t.later = [] ∧ t.runs = [] ∧ t.net = NetSt.reset ∧
      t.doors = DoorsSt.reset ∧ t.batches = [] ∧ t.kept = s.kept ∧ t.sec = s.sec ∧ t.pending = s.pending) ∧
    (s.phase = .perst → ∃ t, exec (.effectiveRelease x) s = .next t ∧ t.phase = .up ∧ (∀ f, t.get f = f.reset) ∧ t.now = 0 ∧
      t.mem = [] ∧ t.cores = [] ∧ t.kept = { s.kept with straps := x } ∧ t.pending = s.pending) ∧
    exec .vauxWithinRange s = .next { s with sec := { s.sec with powered := true } }

/-- What the steps of boot do, each in its stage (R32, R35, R258, R483, R509, R522, R532, R535, R536): where the security block
passes its tests its keys are made; out of the FE state rails are set, and the feeds of a casement with a good one; the windows of lit casements
start at once, or, where some casement is not calibrated, a second after the release; the map is fixed over the windows past INIT, the
others excluded 2 s after the start; READY is set. What the host's link, its reset, the loss of the reference and a tripped
sensor do. -/
def Obligations.BootRuns : Prop :=
  ∀ (ns : Nat) (c : CaseIx) (aCdbm bCdbm : BitVec 16) (speed width : BitVec 4) (sensors : BitVec 8) (s : State),
    s.phase = .up →
    (s.get Reg.SEC.READY ≠ 1 → s.get Reg.FW.STAGE = 0 → s.kept.identityDead = false →
      exec (.securityReady true true true) s = .next (((({ s with
        freeCtr := s.freeCtr + 1, kept := { s.kept with bootCount := min (2 ^ 32 - 1) (s.kept.bootCount + 1) },
        sec := { s.sec with akSeed := some s.freeCtr } } : State).puts
          [(Reg.SEC.ID_VALID, 1), (Reg.SEC.AK_VALID, 1)]).inc Reg.SEC.SIGN_CNT 1).puts
          [(Reg.SEC.READY, 1), (Reg.FW.STAGE, 1)])) ∧
    (let a := s.kept.retiredTiles.foldl State.applyTiles s
     let u := a.kept.retiredCores.foldl State.applyCore a
     let v := u.coreList.foldl (fun t n => t.putRail n 750) u
     s.get Reg.FW.STAGE = 1 → s.fe = false →
      exec .railsSet s = .next ((({ v with pwr := { v.pwr with
        uncoreMv := 750, storeMv := 750, optMv := (List.range 16).map fun c => (c, 900) } } : State).puts
          [(Reg.PWR.LEND_EN, 1), (Reg.FW.STAGE, 3)]).litStage.keeping s)) ∧
    (s.doors.calibrated.contains c.val = false → s.get Reg.FW.STAGE < 5 →
      (s.feedGood c.val aCdbm.toNat = true ∨ s.feedGood c.val bCdbm.toNat = true) →
      exec (.casementCalibrateBoot c aCdbm bCdbm) s = .next (((({ s with doors := { s.doors with
        calibrated := setInsert c.val s.doors.calibrated } } : State).puts [(Reg.CASE.A_CDBM c.val, aCdbm.toNat),
        (Reg.CASE.B_CDBM c.val, bCdbm.toNat), (Reg.CASE.A_OK c.val, ofBool (s.feedGood c.val aCdbm.toNat)),
        (Reg.CASE.B_OK c.val, ofBool (s.feedGood c.val bCdbm.toNat)),
        (Reg.CASE.ACTIVE c.val, ofBool (!s.feedGood c.val aCdbm.toNat))]).litStage).keeping s)) ∧
    (let a0 := if ((List.range 16).any fun c => !s.doors.calibrated.contains c) then s.passTo 1000000000 else s
     let a := if ((List.range 16).any fun c => !a0.lit c) then a0.put Reg.FW.CASEMENT_DARK 1 else a0
     let b := (List.range 32).foldl (fun t w =>
       if t.lit (w / 2) then ((t.put (Reg.WIN.STATE w) 1).setWin w { t.win w with startedAt := t.now }).setLink w LinkSt.zero
       else t.exclude w) a
     3 ≤ s.get Reg.FW.STAGE → s.get Reg.FW.STAGE < 5 →
      exec .windowsStart s = .next ((((List.range 16).foldl State.trainDoor b).put Reg.FW.STAGE 5).keeping s)) ∧
    (let t0 := ((List.range 32).map fun w => (s.win w).startedAt).foldl max 0
     let a := if s.unsettled = [] then s else s.unsettled.foldl State.exclude (s.passTo (t0 + 2000000000))
     let ws := (List.range 32).filter fun w => a.get (Reg.WIN.STATE w) == 3
     s.get Reg.FW.STAGE = 5 →
      exec .mapForm s = .next ((((if ws = [] then a.put Reg.FW.NO_MEMORY 1 else a).fixMap ws).put Reg.FW.STAGE 6).keeping s)) ∧
    (s.get Reg.FW.STAGE = 6 →
      exec .bootReady s = .next (((if s.memTop = 0 then s.setLayout 0 0 0 else s.setLayout (2 ^ 30) (2 ^ 28) 0).puts
        [(Reg.FW.STAGE, 8), (Reg.GEN.READY, 1), (Reg.GEN.LEAD, 1), (Reg.FW.T_READY,
          (if s.memTop = 0 then s.setLayout 0 0 0 else s.setLayout (2 ^ 30) (2 ^ 28) 0).now)]).keeping s)) ∧
    (1 ≤ speed.toNat → speed.toNat ≤ 7 → (width = 1 ∨ width = 2 ∨ width = 4) →
      exec (.pcieLinkUp speed width) s = .next (s.puts [(Reg.GEN.LINK_UP, 1), (Reg.GEN.LINK_SPEED, speed.toNat),
        (Reg.GEN.LINK_WIDTH, width.toNat), (Reg.FW.LINK_REDUCED, ofBool (decide (speed.toNat < 7 ∨ width.toNat < 4)))])) ∧
    (∀ kind : PcieResetKind, ∃ t, exec (.pcieReset kind) s = .next t ∧ t.host.rings = s.host.rings.map Ring.stop ∧
      t.host.d3hot = false ∧ t.mem = s.mem ∧ t.cores = s.cores ∧ t.host.out = s.host.out ∧ t.get Reg.GEN.BAR4_EN = 0 ∧
      (kind = .linkDown → t.get Reg.GEN.LINK_UP = 0) ∧ (∀ v < 256, t.get (Reg.GEN.MSIX_MASK v) = 1)) ∧
    (1000 < ns → s.get Reg.TIME.REF_LOST = 0 →
      exec (.refLost ns) s = .next (((s.put Reg.TIME.REF_LOST 1).raiseFE 0x405 0x10 0x2A 0).keeping s)) ∧
    (let hit := bitsIn 8 sensors.toNat
     let level := (hit.map s.alarmLevel).foldl max 0
     let u := ((s.latchAlarm level).inc Reg.SEC.NOTICE_CNT 1).puts [(Reg.SEC.SENSORS, sensors.toNat),
       (Reg.SEC.LAST_ALARM_TIME, (s.latchAlarm level).now), (Reg.SEC.LAST_ALARM_LEVEL, level),
       (Reg.SEC.LAST_ALARM_SENSOR, hit.headD 0)]
     s.sec.powered = true → hit ≠ [] →
      exec (.tamperTrip sensors) s = .next ((if level < 2 then u
        else u.eraseKeys.raiseFE secSrc 0x13 0x30 (hit.headD 0 + level * 2 ^ 4 + 2 ^ 7)).keeping s))

/-- What the power manager does (R48 to R55, R530): a core whose wait has lasted is held, and its rail goes to 0.60 V; it
computes again when the wait ends, and its rail goes to the base; lending moves the rails to values that R50 and R51 allow over
the base that the budget leaves, where the measured powers keep the budget and give each computing core its share of what the
held cores have freed (log entry 110), all rails at 25 mV/µs. At the ceiling the governed rails step down, again every
10 µs until the sensor has fallen by the hysteresis, and then no longer govern (log entry 110). In the FE state every rail is
held (R428). At 115 °C, or 100 °C in a casement, the device takes the FE state. -/
def Obligations.PowerManagerActs : Prop :=
  ∀ (c : CoreIx) (k : CaseIx) (sensor : Fin 9) (tj mhz : BitVec 16) (m : Lending) (s : State),
    s.phase = .up →
    (s.get Reg.PWR.LEND_EN = 1 → s.present c.val = true → s.get (Reg.PWR.CSTAT_STATE c.val) = 0 → s.stalled c.val = true →
      s.fe = false → exec (.holdStart c) s = .next ((((s.passTo ((s.core c.val).idleSince.getD s.now +
        s.get Reg.PWR.HOLD_DWELL * 100)).rampRail c.val 600).put (Reg.PWR.CSTAT_STATE c.val) 1).keeping s)) ∧
    (s.get (Reg.PWR.CSTAT_STATE c.val) = 1 → s.stalled c.val = false → s.fe = false →
      exec (.holdEnd c) s = .next ((s.rampRail c.val s.pwr.base).put (Reg.PWR.CSTAT_STATE c.val) 0)) ∧
    (let rail := fun (n : Nat) => (m.railMv.toList.getD n 0).toNat
     let base := s.baseFor (s.computing.map rail)
     let share := m.freed / s.computing.length
     (∀ n ∈ s.computing, s.railOk base (rail n) = true) →
     (s.canLend = true → ∀ n ∈ s.computing, fairShare (m.cores.toList.getD n ⟨0, 0, 0, 0⟩) share (rail n) = true) →
     m.mean ≤ 1000 * s.dieBudget → m.peak ≤ 1100 * s.dieBudget → (m.peak ≤ 1000 * s.dieBudget ∨ m.peakNs ≤ 10000) →
     s.fe = false →
      exec (.lendingAdjust m) s = .next ((s.computing.foldl (fun (t : State) n => t.rampRail n (rail n))
        { s with pwr := { s.pwr with base := base } }).keeping s)) ∧
    (s.fe = true → exec (.holdStart c) s = .next s ∧ exec (.holdEnd c) s = .next s ∧ exec (.lendingAdjust m) s = .next s ∧
      exec .railsSet s = .next s ∧ ((sensor.val = 8 ∨ s.present sensor.val = true) →
        exec (.thermalCeiling sensor tj) s = .next (s.putTj sensor.val tj.toNat))) ∧
    ((sensor.val = 8 ∨ s.present sensor.val = true) → s.fe = false → s.pwr.ceiling.find? (fun e => e.1 = sensor.val) = none →
      (signed 16 tj.toNat < 4 * ((min 105 (s.get Reg.PWR.TJ_CEIL) : Nat) : Int) →
        exec (.thermalCeiling sensor tj) s = .next (s.putTj sensor.val tj.toNat)) ∧
      (4 * ((min 105 (s.get Reg.PWR.TJ_CEIL) : Nat) : Int) ≤ signed 16 tj.toNat →
        let u := s.putTj sensor.val tj.toNat
        let v : State := { u with pwr := { u.pwr with ceiling := assocPut sensor.val u.now u.pwr.ceiling } }
        exec (.thermalCeiling sensor tj) s = .next (((v.governed sensor.val).foldl State.lowerRail v).keeping s))) ∧
    (∀ e, (sensor.val = 8 ∨ s.present sensor.val = true) → s.fe = false → s.pwr.ceiling.find? (fun e => e.1 = sensor.val) = some e →
      let low : Int := 4 * ((min 105 (s.get Reg.PWR.TJ_CEIL) : Nat) : Int) - 4 * ((max 1 (s.get Reg.PWR.HYST) : Nat) : Int)
      let u := s.putTj sensor.val tj.toNat
      (signed 16 tj.toNat ≤ low →
        let v : State := { u with pwr := { u.pwr with ceiling := u.pwr.ceiling.filter fun x => x.1 ≠ sensor.val } }
        exec (.thermalCeiling sensor tj) s = .next (((v.governed sensor.val).foldl State.releaseRail v).keeping s)) ∧
      (low < signed 16 tj.toNat →
        let w := u.passTo (e.2 + 10000)
        let v : State := { w with pwr := { w.pwr with ceiling := assocPut sensor.val w.now w.pwr.ceiling } }
        exec (.thermalCeiling sensor tj) s = .next (((v.governed sensor.val).foldl State.lowerRail v).keeping s))) ∧
    (460 ≤ signed 16 tj.toNat → (sensor.val = 8 ∨ s.present sensor.val = true) →
      exec (.overtemp sensor tj) s = .next ((s.putTj sensor.val tj.toNat).tooHot.keeping s)) ∧
    (400 ≤ signed 16 tj.toNat →
      exec (.casementOvertemp k tj) s = .next ((s.put (Reg.CASE.TJ k.val) tj.toNat).tooHot.keeping s)) ∧
    (s.present c.val = true →
      exec (.beatRateSample c mhz) s = .next (s.put (Reg.PWR.CSTAT_BEAT_MHZ c.val) mhz.toNat))

/-! ### The memory windows (chapter 8) -/

/-- What the bring-up of a window does (R258, R259, R518): a sled that fits is verified with a fresh nonce, its good answer
in time makes the window wait for READY, and READY ends the bring-up; a sled that does not fit, that is late, or whose
certificate or answer is not good excludes the window. A window with fewer than two usable pairs is excluded too, by the model's
choice (log entry 98). -/
def Obligations.WindowsComeUp : Prop :=
  ∀ (w : WinIx) (sledId : BitVec 64) (cap channels : BitVec 8) (ver : BitVec 16) (pairs : BitVec 3) (ok : Bool) (s : State),
    s.phase = .up →
    let start := (s.win w.val).startedAt
    (let u := s.puts [(Reg.WIN.STATE w.val, 2), (Reg.WIN.SLED_ID w.val, sledId.toNat), (Reg.WIN.CAP w.val, cap.toNat),
       (Reg.WIN.PAIRS w.val, min pairs.toNat 4), (Reg.WIN.DEGRADED w.val, ofBool (decide (pairs.toNat < 4)))]
     let v := u.inc Reg.SEC.VERIFY_CNT 1
     let n := Config.random v.freeCtr
     let fits := (cap = 1 ∨ cap = 2) ∧ channels = 40 ∧ ver = 1 ∧ 2 ≤ pairs.toNat ∧ s.now ≤ start + 12000000
     s.get (Reg.WIN.STATE w.val) = 1 →
      (fits → exec (.windowLanesLocked w sledId cap channels ver pairs true) s =
        .next ((((v.setWin w.val { v.win w.val with nonce := some n, nonceAt := v.now, lost := (List.range 4).drop pairs.toNat }).draw).mapLink
          w.val fun l => l.received.send (mgmtMessage (bytesOf 32 n)) []).keeping s)) ∧
      (fits → exec (.windowLanesLocked w sledId cap channels ver pairs false) s =
        .next (((v.verifyFail 2 w.val 1).exclude w.val).keeping s)) ∧
      (¬fits → exec (.windowLanesLocked w sledId cap channels ver pairs ok) s = .next ((u.exclude w.val).keeping s))) ∧
    (∀ n, s.get (Reg.WIN.STATE w.val) = 2 → (s.win w.val).nonce = some n →
      let u := (s.mapLink w.val fun l => l.received.ackAll).setWin w.val { s.win w.val with nonce := none }
      let v := u.inc Reg.SEC.VERIFY_CNT 1
      let sent := (s.win w.val).nonceAt
      (start + 12000000 < s.now → exec (.sledChallengeResponse w ok) s = .next ((u.exclude w.val).keeping s)) ∧
      (s.now ≤ start + 12000000 → sent + 5000000 < s.now →
        exec (.sledChallengeResponse w ok) s = .next (((v.verifyFail 2 w.val 3).exclude w.val).keeping s)) ∧
      (s.now ≤ start + 12000000 → s.now ≤ sent + 5000000 →
        exec (.sledChallengeResponse w false) s = .next (((v.verifyFail 2 w.val 2).exclude w.val).keeping s) ∧
        exec (.sledChallengeResponse w true) s = .next ((if v.duplicateSled w.val then (v.verifyFail 2 w.val 4).exclude w.val
          else v.put (Reg.WIN.STATE w.val) 3).keeping s)) ∧
      exec (.sledVerifyTimeout w) s = .next (((((s.passTo (sent + 5000000)).setWin w.val
        { s.win w.val with nonce := none }).verifyFail 2 w.val 3).exclude w.val).keeping s)) ∧
    (s.get (Reg.WIN.STATE w.val) = 3 → (s.win w.val).ready = false →
      (s.now ≤ start + 2000000000 →
        exec (.sledReady w) s = .next (((s.heard w.val none).setWin w.val { s.win w.val with ready := true }).keeping s)) ∧
      (start + 2000000000 < s.now → exec (.sledReady w) s = .next ((s.exclude w.val).keeping s)) ∧
      exec (.bringupTimeout w) s = .next (((s.passTo (start + 2000000000)).exclude w.val).keeping s)) ∧
    (s.get (Reg.WIN.STATE w.val) = 1 ∨ s.get (Reg.WIN.STATE w.val) = 2 →
      exec (.bringupTimeout w) s = .next (((s.passTo (start + 12000000)).exclude w.val).keeping s))

/-- What a window does with requests, responses and timeouts (R235 to R243, R247, R248): a WRP that waits for a tag and then the
rotation's head takes a tag, is performed on its sector as the sled holds it, and its message enters the transmit queue; good
data, which a piece that the mesh has damaged may mark (R285), poison or the acknowledgement that is in time completes it, and an
uncorrectable sector is poisoned; a request that times out completes as poisoned, or is followed by
a WRP; a response that comes too late times it out first and only frees its tag; a response without its tag, or of the wrong
kind, is a protocol error. -/
def Obligations.WindowsAnswer : Prop :=
  ∀ (w : WinIx) (tag : BitVec 12) (op : BitVec 3) (s : State), s.phase = .up →
    (∀ (n : Nat) (e : TagSt) (rest : List TagSt), s.fe = false → s.winOpen w.val = true → (s.win w.val).freeTag = some n →
      (s.win w.val).wrps = e :: rest →
      let u := s.setWin w.val { s.win w.val with wrps := rest }
      let t : TagSt := { e with tag := n, granted := u.now, phase := 2 }
      let v := (u.setPoison (sectorPa e.req.pa)).inc (Reg.WIN.POISON_TX w.val) 1
      exec (.tagGrant w) s = .next ((((v.putTag w.val t).transmit w.val
        { t with req := { t.req with poison := true } }).noteHot w.val).keeping s)) ∧
    (∀ (n : Nat) (r r' : MemReq) (p : State) (data : Bytes) (bad : Bool), s.fe = false → s.winOpen w.val = true →
      (s.win w.val).freeTag = some n → (s.win w.val).wrps = [] → s.nextHead w.val = some r →
      s.perform w.val r = (p, r', data, bad) →
      let u := p.setWin w.val { p.win w.val with
        lastQueue := r'.queue, lastSec := assocPut (s.locate r.pa).2.1 (s.locate r.pa).2.2 (p.win w.val).lastSec }
      let v := if r'.write = true ∧ r'.poison = true then u.inc (Reg.WIN.POISON_TX w.val) 1 else u
      let t : TagSt := { tag := n, req := r', channel := (s.locate r.pa).2.1, sector := (s.locate r.pa).2.2, granted := v.now,
                         data := data, poison := bad, phase := 0 }
      exec (.tagGrant w) s =
        .next (((((v.noteReplaced w.val r').putTag w.val t).transmit w.val t).noteHot w.val).keeping s)) ∧
    (∀ t, s.winTalks w.val = true → (s.win w.val).tags.find? (fun t => t.tag == tag.toNat) = some t → t.phase ≠ 1 →
      s.now ≤ t.granted + s.winTimeout w.val →
      let u := s.heard w.val (some tag.toNat)
      (t.req.write = false → t.poison = false → exec (.rdd w tag) s =
        .next ((((u.freeTag w.val t.tag).readDone w.val t t.data t.mesh).noteHot w.val).keeping s)) ∧
      (t.req.write = false → t.poison = true → exec (.rdd w tag) s = .next (u.keeping s)) ∧
      (t.req.write = false → exec (.rdp w tag) s =
        .next (((((((u.freeTag w.val t.tag).sledPoison t).inc (Reg.WIN.POISON_RX w.val) 1).winRec w.val 0x40 0 0 t).readDone
          w.val t (List.replicate 64 0) true).noteHot w.val).keeping s)) ∧
      (t.req.write = true → exec (.wack w tag) s =
        .next ((((u.freeTag w.val t.tag).writeDone w.val t).noteHot w.val).keeping s))) ∧
    (∀ t, s.winTalks w.val = true → (s.win w.val).tags.find? (fun t => t.tag == tag.toNat) = some t →
      let u := s.heard w.val (some tag.toNat)
      let free := fun (x : State) => ((((x.freeTag w.val t.tag).inc (Reg.WIN.LATE_DISCARD w.val) 1).noteHot w.val).keeping s)
      let wrong := (u.winProtocol w.val (winSynd t.sector t.tag t.channel t.req.src t.req.write)).keeping s
      (t.phase = 1 →
        (t.req.write = false → exec (.rdd w tag) s = .next (free u) ∧ exec (.rdp w tag) s = .next (free u)) ∧
        (t.req.write = true → exec (.wack w tag) s = .next (free u))) ∧
      (t.phase ≠ 1 → t.granted + s.winTimeout w.val < s.now →
        (t.req.write = false → exec (.rdd w tag) s = .next (free (u.expireRead w.val t)) ∧
          exec (.rdp w tag) s = .next (free (u.expireRead w.val t))) ∧
        (t.req.write = true → exec (.wack w tag) s = .next (free (u.expireWrite w.val t)))) ∧
      (t.req.write = true → exec (.rdd w tag) s = .next wrong ∧ exec (.rdp w tag) s = .next wrong) ∧
      (t.req.write = false → exec (.wack w tag) s = .next wrong)) ∧
    (s.winTalks w.val = true → (s.win w.val).tags.find? (fun t => t.tag == tag.toNat) = none →
      let u := ((s.heard w.val none).winProtocol w.val (winSynd 0 tag.toNat 0 0 false)).keeping s
      exec (.rdd w tag) s = .next u ∧ exec (.rdp w tag) s = .next u ∧ exec (.wack w tag) s = .next u) ∧
    (∀ whole, s.winTalks w.val = true → exec (.mgmt w op whole) s =
      .next ((if whole = true ∧ (op.toNat ≤ 3 ∨ op = 7) then s.heard w.val none
        else (s.heard w.val none).winProtocol w.val 0).keeping s)) ∧
    (∀ t, (s.win w.val).tags.find? (fun t => t.tag == tag.toNat && t.phase == 0 && !t.req.write) = some t →
      let u := (s.passTo (t.granted + s.winTimeout w.val)).inc (Reg.WIN.TIMEOUT_CNT w.val) 1
      exec (.readTimeout w tag) s = .next ((((u.winRec w.val 0x41 1 t.req.job t).setPhase w.val t.tag 1).readDone w.val t
        (List.replicate 64 0) true).keeping s)) ∧
    (∀ t, (s.win w.val).tags.find? (fun t => t.tag == tag.toNat && t.req.write && (t.phase == 0 || t.phase == 2)) = some t →
      let u := ((((s.passTo (t.granted + s.winTimeout w.val)).inc (Reg.WIN.TIMEOUT_CNT w.val) 1).winRec w.val 0x42 1
        t.req.job t).setPhase w.val t.tag 1).consumeMonitors t.req.pa
      (∀ n, t.phase = 0 → (u.win w.val).freeTag = some n →
        exec (.writeTimeout w tag) s = .next ((u.sendWrp w.val n t).keeping s)) ∧
      (t.phase = 0 → (u.win w.val).freeTag = none → exec (.writeTimeout w tag) s =
        .next ((u.setWin w.val { u.win w.val with wrps := (u.win w.val).wrps ++ [t] }).keeping s)) ∧
      (t.phase = 2 → exec (.writeTimeout w tag) s =
        .next ((u.setWin w.val { u.win w.val with failing := true }).keeping s)))

/-- What the links of windows and doors do (R232, R244 to R246, R249, R256, R310, R329): a flit whose CRC does not fit is counted
and the flits after it discarded, what the replay buffer holds is replayed, a retraining is counted and recorded and ends, with spares for the pairs that it lost; a
window that has failed goes DOWN, and a channel that stays hot raises its event. A window retrains because a flit has been
replayed 8 times, and otherwise because of uncorrectable codewords, whose number is free (log entry 97). -/
def Obligations.LinksAreKept : Prop :=
  ∀ (w : WinIx) (d : DoorIx) (p : Fin 3) (n : BitVec 9) (ch : Fin 40) (usable : BitVec 4) (f : Bytes) (s : State),
    s.phase = .up →
    (s.winTalks w.val = true →
      (flitIntact f = false → exec (.flitCrcFail ⟨.win w, f⟩) s =
        .next (((s.mapLink w.val LinkSt.crcFailed).inc (Reg.WIN.CRC_ERR w.val) 1).keeping s)) ∧
      exec (.nakReceived (.win w) n) s = .next (((s.mapLink w.val fun x => x.received.resend n.toNat).inc
        (Reg.WIN.REPLAY w.val) (min n.toNat (s.link w.val).replay.length)).keeping s)) ∧
    (s.winOpen w.val = true →
      let u := if (s.link w.val).stuck = true then s else s.draw.inc (Reg.WIN.FEC_UNCORR w.val)
        (s.get (Reg.WIN.UNCORR_LIMIT w.val) + 1 + Config.openValue 97 s.freeCtr)
      exec (.retrain (.win w)) s = .next ((((u.put (Reg.WIN.STATE w.val) 5).inc (Reg.WIN.RETRAIN_CNT w.val) 1).ce
        (0x100 + w.val) 8 0x44 0).keeping s) ∧
      ((s.win w.val).failing = true → exec (.linkDown w) s = .next ((s.winDown w.val).keeping s))) ∧
    (s.linkUsable d.val p.val = true →
      (flitIntact f = false → exec (.flitCrcFail ⟨.door d p, f⟩) s =
        .next (((s.mapLink (doorLinkNo d.val p.val) LinkSt.crcFailed).inc (Reg.DOOR.CRC_ERR d.val) 1).keeping s)) ∧
      exec (.nakReceived (.door d p) n) s = .next (((s.mapLink (doorLinkNo d.val p.val) fun x =>
        x.received.resend n.toNat).inc (Reg.DOOR.REPLAY d.val)
          (min n.toNat (s.link (doorLinkNo d.val p.val)).replay.length)).keeping s) ∧
      exec (.retrain (.door d p)) s = .next ((((s.put (Reg.DOOR.LINK_STATE d.val (doorLink d.val p.val)) 4).inc
        (Reg.DOOR.RETRAIN_CNT d.val) 1).ce (0x200 + d.val) 9 0x52 0).keeping s)) ∧
    (s.get (Reg.WIN.STATE w.val) = 5 →
      let x := s.win w.val
      exec (.retrainDone (.win w) false usable) s = .next ((s.setWin w.val { x with
        failures := x.failures + 1, failing := x.failing || decide (2 ≤ x.failures) }).keeping s) ∧
      (let bad := (List.range 4).filter fun k => !bitOf usable.toNat k && !x.lost.contains k
       let a := s.askSpares (w.val / 2) (fun _ => 1 + w.val % 2) (fun k => 4 * (w.val % 2) + k) bad
       let u := a.1.setWin w.val { x with
         failures := 0, lost := x.lost ++ a.2, failing := x.failing || decide (3 ≤ (x.lost ++ a.2).length),
         tags := x.tags.filter fun t => t.phase ≠ 1 }
       let v := (u.put (Reg.WIN.STATE w.val) (if u.inTest w.val = true then 6 else 4)).mapLink w.val LinkSt.resume
       exec (.retrainDone (.win w) true usable) s = .next (((if a.2 = [] then v else (v.puts [(Reg.WIN.PAIRS w.val,
         4 - (x.lost ++ a.2).length), (Reg.WIN.DEGRADED w.val, 1)]).ce (0x100 + w.val) 8 0x45 0).noteHot w.val).keeping s))) ∧
    (let j := doorLink d.val p.val
     let key := d.val * 4 + j
     s.get (Reg.DOOR.LINK_STATE d.val j) = 4 →
      exec (.retrainDone (.door d p) false usable) s = .next (({ s with doors := { s.doors with
        failures := assocPut key (lookupD 0 key s.doors.failures + 1) s.doors.failures } } : State).keeping s) ∧
      (let bad := (linkPairs d.val p.val).filter fun k => !bitOf usable.toNat k && !s.doors.lost.contains (d.val * 4 + k)
       let a := s.askSpares d.val (fun k => 3 + k) (fun k => 8 + k) bad
       let u : State := { a.1 with doors := { a.1.doors with
         failures := assocPut key 0 a.1.doors.failures, lost := a.1.doors.lost ++ a.2.map (d.val * 4 + ·) } }
       let left := ((linkPairs d.val p.val).filter fun k => !u.doors.lost.contains (d.val * 4 + k)).length
       let v := (u.put (Reg.DOOR.LINK_STATE d.val j) 3).mapLink (doorLinkNo d.val p.val) LinkSt.resume
       exec (.retrainDone (.door d p) true usable) s = .next ((if a.2 = [] then v else (v.puts [(Reg.DOOR.PAIRS d.val j,
         left), (Reg.DOOR.DEGRADED d.val j, 1)]).ce (0x200 + d.val) 9 0x53 0).keeping s))) ∧
    (∀ e, ((s.noteHot w.val).win w.val).hotSince.find? (fun e => e.1 == ch.val) = some e → s.get (Reg.WIN.HOT_EN w.val) ≠ 0 →
      s.winOpen w.val = true → (((s.noteHot w.val).win w.val).hotRaised.any fun r => r.1 == ch.val) = false →
      exec (.hotChannel w ch) s =
        .next ((((s.noteHot w.val).passTo (e.2 + s.hotDwell w.val)).hotEvent w.val ch.val).keeping s))

/-! ### Errors, observation and tests (chapters 15 and 18) -/

/-- What a detection does (R316, R317, R401 to R404, R406, R413, R416, R419, R425 to R428): a failing verdict records,
poisons the element, counts, retracts its epoch and puts its unit under observation; core stores, caches, buffers, the words of
an issue unit and the sill processor's own checks are counted, poisoned, marked or recorded, or are fatal (log entry 116); a
device outside the FE state closes its epochs in turn. -/
def Obligations.DetectionsAct : Prop :=
  ∀ (c : CoreIx) (off : BitVec 26) (src : BitVec 16) (unit code : BitVec 8) (job : BitVec 6) (va last : BitVec 57)
    (synd : BitVec 128) (s : State), s.phase = .up →
    (∀ (i : Nat) (x : Check) (parity : Bool) (path : BitVec 4) (lane : BitVec 8) (tile : Fin 8) (e o : BitVec 3),
      s.checks[i]? = some x →
      let v : Verdict := ⟨parity, path.toNat, lane.toNat, tile.val, e.toNat, o.toNat, va.toNat, last.toNat⟩
      let rec1 : Rec := { src := x.src, unit := x.unit, cls := 0, job := x.job, code := if parity then 0x21 else 0x20,
                          tag := x.tag, cmd := false, epoch := some x.epoch, synd := v.synd x.unit }
      (x.unit ≠ 0x0B → exec (.residueVerdictFail i parity path lane tile e o va last) s =
        .next (((((((s.addRec rec1).poisonElement x va.toNat).poisonElement x last.toNat).countResidue x.src x.unit
          tile.val).retractEpoch x.src x.epoch).obsEvent x.src x.unit (if x.unit = 2 then tile.val else 0)).keeping s)) ∧
      (x.unit = 0x0B → exec (.residueVerdictFail i parity path lane tile e o va last) s =
        .next (((((if s.agateOpen ∧ 1 ≤ s.get (Reg.AGATE.BUCKET_STATE x.bucket) ∧ s.get (Reg.AGATE.BUCKET_STATE x.bucket) ≤ 3
          then s.bucketFail x.bucket 7 else s.addRec (mkRec agateSrc 0x0B 0 s.agateJob 0x77 0)).inc
            Reg.AGATE.RES_EVT 1).retractEpoch agateSrc x.epoch).obsEvent agateSrc 0x0B 0).keeping s))) ∧
    (s.present c.val = true →
      exec (.csUncorr c off) s = .next ((((s.setPoison (csBase + c.val * csSize + off.toNat)).inc Reg.ERR.CS_UNCORR 1).ce
        c.val 6 0x23 0).keeping s) ∧
      exec (.csCorr c off) s = .next (((s.inc Reg.ERR.CS_CORR 1).ce c.val 6 0x22 0).keeping s) ∧
      exec (.scrubPass c) s = .next (s.inc Reg.ERR.SCRUB_PASSES 1)) ∧
    (s.isSource src.toNat = true →
      exec (.poisonConsumption job src unit va) s = .next (((s.addRec (mkRec src.toNat unit.toNat 1 job.toNat cPOISON
        va.toNat)).killJob job.toNat src.toNat cPOISON false).keeping s) ∧
      (feCodes.contains code.toNat = true → exec (.feState src unit code synd) s = .next (((s.addRec (mkRec src.toNat unit.toNat 2 0 code.toNat synd.toNat)).takeFE
        src.toNat code.toNat).keeping s))) ∧
    (s.fe = false →
      let t := (((s.passTo ((s.doors.nextClose + 1) * 1024 + 2048)).sendAll 7 (doorSrc 0) 0 (s.doors.nextClose % 2 ^ 32) []).put
        (Reg.DOOR.CLOSED_EPOCH 0) s.doors.nextClose)
      exec .epochClose s = .next (({ t with
        doors := { t.doors with nextClose := s.doors.nextClose + 1 },
        checks := t.checks.filter fun x => decide (s.doors.nextClose < x.epoch) } : State).keeping s)) ∧
    (∀ i x, (s.slices.filter fun x => x.src % 65536 == src.toNat)[i]? = some x →
      exec (.xlatParity src i) s = .next ((({ s with slices := s.slices.erase x } : State).ce src.toNat 0x0E 0x32 0).keeping s)) ∧
    (∀ pieces : List Nat,
      (0x500 ≤ src.toNat → src.toNat < 0x50A →
        exec (.bufferParity src pieces) s = .next (s.poisonStaged (src.toNat - 0x500) pieces)) ∧
      (0x200 ≤ src.toNat → src.toNat < 0x210 → exec (.bufferParity src pieces) s =
        .next ((((((s.doors.ledger.filter fun e => e.door == src.toNat - 0x200).flatMap Ledger.sectors).filter fun pa =>
          pieces.contains (pa / 64)).foldl State.markSector s)).keeping s)) ∧
      (s.present src.toNat = true → exec (.bufferParity src pieces) s =
        .next (s.setCore src.toNat { s.core src.toNat with
          badWords := (pieces.filter fun k => decide (k < 4128) && !(s.core src.toNat).badWords.contains k) ++
            (s.core src.toNat).badWords
          window := (s.core src.toNat).window.map fun i => if pieces.contains (65536 + i.tag) then { i with bad := true } else i })) ∧
      (src = 0x403 → exec (.bufferParity src pieces) s =
        .next (((pieces.filter fun k => s.inMain (64 * k) || (s.storeOf (64 * k)).isSome).foldl
          (fun t k => t.markSector (64 * k)) s).keeping s))) ∧
    (let fatal := fun (u : State) (src unit : Nat) =>
       let t := u.raiseFE src unit 0x30 0
       ({ t with host := { t.host with sillDown := true } } : State).keeping s
     (∀ k, k = SillCheck.corrected ∨ k = SillCheck.rerun →
       exec (.sillMemoryEcc k) s = .next (((s.inc Reg.ERR.SILL_CORR 1).ce 0x400 0x12 0x2F 0).keeping s)) ∧
     exec (.sillMemoryEcc .rewrite) s = .next s ∧
     (∀ k, k = SillCheck.uncorrectable ∨ k = SillCheck.rewriteFails ∨ k = SillCheck.signature →
       exec (.sillMemoryEcc k) s = .next (fatal s 0x400 0x12)) ∧
     (s.get Reg.SEC.READY = 1 →
       exec .heartbeatTimeout s = .next (fatal (s.passTo (s.host.heartbeatAt + 10000000)) 0x406 0x13))) ∧
    exec .heartbeat s = .next (({ s with host := { s.host with heartbeatAt := s.now } } : State).inc Reg.FW.HEARTBEAT 1) ∧
    (∀ ok, let t := s.passTo (s.host.romCheckedAt + 3600000000000)
      let u : State := { t with host := { t.host with romCheckedAt := t.now } }
      exec (.romCheck ok) s = .next ((if ok then u else u.raiseFE 0x406 0x13 0x30 0).keeping s)) ∧
    (∀ k : Nat, let u := obsUnit k
      s.observed u.1 u.2.1 u.2.2 = true →
      exec (.observationExpiry k) s = .next (((s.passTo (((s.host.obsEvents.filter fun e => e.1 == u.1 && e.2.1 == u.2.1 &&
        e.2.2.1 == u.2.2).map fun e => e.2.2.2).foldl max 0 + 86400000000000)).setObserved u.1 u.2.1 u.2.2 false).keeping s))

/-- What a request to fence, unfence or retire tiles does (R105, R107): each named tile at once when no gmm is in flight, a
tile fenced for test that is retired at once too, and any other at the end of the sweep; the last tile in service is not
fenced, its core is retired and the job on it halted. The gmm in flight goes on over the tiles that are left. A host's write
is refused. -/
def Obligations.TileFencesAct : Prop :=
  ∀ (c : CoreIx) (mask : BitVec 8) (s : State),
    (∀ n t, (s.tileState n t < 2 → s.lastTile n = false →
        s.fenceTile n .test t = s.putTile n t 2 ∧ s.fenceTile n .retire t = s.putTile n t 3) ∧
      (s.tileState n t < 2 → s.lastTile n = true →
        s.fenceTile n .test t = s.retireLast n ∧ s.fenceTile n .retire t = s.retireLast n) ∧
      (s.tileState n t = 2 → s.fenceTile n .retire t = s.putTile n t 3 ∧
        s.fenceTile n .unfence t = s.putTile n t (if bitOf (s.get (Reg.ERR.OBS_OBSERVED n)) t then 1 else 0)) ∧
      (s.tileState n t = 3 → s.fenceTile n .test t = s ∧ s.fenceTile n .retire t = s ∧ s.fenceTile n .unfence t = s)) ∧
    (let go := fun (k : FenceKind) => ((List.range 8).filter (bitOf mask.toNat)).foldl (fun (t : State) b =>
       if t.get (Reg.CORE.GARNET_TAG c.val) = 0 ∨ (k = .retire ∧ t.tileState c.val b = 2) then t.fenceTile c.val k b
       else t.setCore c.val { t.core c.val with fences := (t.core c.val).fences ++ [(k, b)] }) s
     s.phase = .up → s.present c.val = true →
      exec (.fenceReq c mask true) s = .next ((go .test).keeping s) ∧
      exec (.unfenceReq c mask true) s = .next ((go .unfence).keeping s) ∧
      exec (.retireReq c mask true) s = .next ((go .retire).keeping s)) ∧
    (s.phase = .up → s.host.d3hot = false → s.present c.val = true → mask ≠ 0 →
      exec (.fenceReq c mask false) s = .next ((s.hostRefused (coreBase c.val + 0x4008) mask.toNat).keeping s) ∧
      exec (.unfenceReq c mask false) s = .next ((s.hostRefused (coreBase c.val + 0x4008) (mask.toNat * 2 ^ 8)).keeping s) ∧
      exec (.retireReq c mask false) s = .next ((s.hostRefused (coreBase c.val + 0x4008) (mask.toNat * 2 ^ 16)).keeping s)) ∧
    (s.phase = .up → exec (.tileFenceEffect c) s = .next ((((s.core c.val).fences.foldl (fun t e => t.fenceTile c.val e.1 e.2)
      (s.setCore c.val { s.core c.val with fences := [] })).resweep c.val (s.get (Reg.CORE.IN_SERVICE c.val))).keeping s))

/-- What the tests do (R329, R419, R422, R423, R499, R500): a pending test whose condition holds starts; a periodic test of
a tile in service is asked for once in an hour, in a minute while the tile is under observation; a test that ends leaves the list, completes its command, and a failing tile, core or sled is
recorded and retired as chapter 15 says; calibrations of a casement end with its CAL_CNT counted. -/
def Obligations.TestsRun : Prop :=
  ∀ (c : CoreIx) (k : CaseIx) (t : Fin 8) (i : Nat) (x : TestSt) (failing : BitVec 40) (s : State), s.phase = .up →
    (s.present c.val = true → s.tileState c.val t.val < 2 → (s.core c.val).retired = false →
      s.testDue c.val t.val = true → exec (.periodicTileTest c t) s = .next ((({ s with host := { s.host with
        tileTests := assocPut (8 * c.val + t.val) s.now s.host.tileTests } } : State).askTest
          ⟨none, 1, c.val, t.val, 0, false⟩).keeping s)) ∧
    (s.testDue c.val t.val = false → exec (.periodicTileTest c t) s = .next s) ∧
    (s.host.tests[i]? = some x → x.running = false → s.testReady x = true →
      ((s.host.tests.take i).any fun y => x.behind y) = false →
      ((s.host.tests.drop (i + 1)).any fun y => y.running && x.behind y) = false →
      exec (.testStart i) s = .next (((s.testEvent x 5).runTest (s.host.tests.take i) x (s.host.tests.drop (i + 1))).keeping s)) ∧
    (let u : State := { s with host := { s.host with tests := s.host.tests.eraseIdx i } }
     s.host.tests[i]? = some x → x.running = true → s.fenceWaits x = false →
      (x.kind = 1 → s.tileGone x = false →
        exec (.testDone i true failing) s = .next (((u.fenceWrite x.core .unfence (2 ^ x.tile)).endTest x stSUCCESS 0).keeping s) ∧
        exec (.testDone i false failing) s = .next (((u.tileFails x.core x.tile).endTest x stTESTFAIL 0).keeping s)) ∧
      (x.kind = 2 → exec (.testDone i true failing) s = .next ((u.endTest x stSUCCESS 0).keeping s) ∧
        (let v := (bitsIn 8 failing.toNat).foldl (fun z b => z.tileFails x.core b) u
         exec (.testDone i false failing) s = .next (((if (v.core x.core).retired then v else v.retireCore x.core).endTest x
          stTESTFAIL 0).keeping s))) ∧
      (x.kind = 3 ∨ x.kind = 4 →
        let v := (bitsIn 32 x.mask).foldl (fun z w => if z.get (Reg.WIN.STATE w) = 6 then z.put (Reg.WIN.STATE w) 4 else z) u
        exec (.testDone i true failing) s = .next ((v.endTest x stSUCCESS 0).keeping s) ∧
        exec (.testDone i false failing) s = .next ((((bitsIn 32 x.mask).foldl (fun z w => z.ce (0x100 + w) 8 0x28 0)
          v).endTest x stTESTFAIL failing.toNat).keeping s))) ∧
    (s.get (Reg.CASE.CAL_STATE k.val) = 1 →
      exec (.calibrationDone k) s = .next ((((s.put (Reg.CASE.CAL_STATE k.val) 0).inc (Reg.CASE.CAL_CNT k.val) 1).calPart
        k.val).keeping s))

/-! ### Doors (chapter 11) -/

/-- What the packets of other devices do here (R184, R308, R310, R313, R314, R317, R320, R321): a WRITE whose sectors translate
is performed, one that does not halts its job, and one that brings a mark to a POISON_KILL page kills it; an acknowledgement
ends the wait for its tag; a LATCH goes to its latch's home; a RETRACT poisons its origin's ledger entries from its epoch on;
a CLOSE ends them up to its epoch; a packet for another device goes on as it is, marked as relayed; a TIME packet of a follower
is answered (R323; log entry 117); an unknown packet is counted and recorded. -/
def Obligations.DoorPacketsAct : Prop :=
  ∀ (d : DoorIx) (h : Hdr) (p : Bytes) (s : State),
    (s.phase = .up → s.seat.takes d.val 1 h p → ∀ u,
      let all := payloadVas h.addr.toNat h.sectors.toNat
      (∀ l, (s.seat.countRx d.val h p).bindSectors (doorSrc d.val) h.job.toNat all = (u, .inr l) →
        (marksKill h l = none → exec (.write d h p) s = .next ((u.performWrite d.val h p l).keeping s)) ∧
        (∀ va, marksKill h l = some va → exec (.write d h p) s =
          .next ((((u.ackWrite d.val h 1).countKill h.job.toNat).unitConsume h.job.toNat (doorSrc d.val) 9 va).keeping s))) ∧
      (∀ e, (s.seat.countRx d.val h p).bindSectors (doorSrc d.val) h.job.toNat all = (u, .inl e) → exec (.write d h p) s =
        .next (((if e.2.1 = 8 then u.countKill h.job.toNat else u).remoteFault d.val h e.1).keeping s))) ∧
    (let u := s.countRx d.val h []
     s.takes d.val 2 h [] → exec (.writeAck d h) s = .next (((((u.runs.filter fun r => r.ackTags.contains h.tag.toNat).foldl
      (fun (t : State) r => t.settle r.m r.ch) { u with runs := u.runs.map fun r => { r with
        ackTags := r.ackTags.filter fun t => t ≠ h.tag.toNat } }).ackToken h.tag.toNat).ackUnit h.tag.toNat).keeping s)) ∧
    (let u := s.countRx d.val h []
     s.takes d.val 3 h [] → exec (.latchPacket d h) s = .next (({ u with net := {
       u.net.cross (caseRouter d.val) (homeRouter (bitsOf h.addr.toNat 13 0 % 16384)) with
      latchMsgs := u.net.latchMsgs ++ [⟨0x200 + d.val, bitsOf h.addr.toNat 13 0 % 16384,
        if bitOf h.addr.toNat 16 then .set else .clear, none, false, caseRouter d.val, u.net.sent⟩],
      sent := u.net.sent + 1 } } : State).keeping s)) ∧
    (s.takes d.val 6 h [] → exec (.retract d h) s = .next ((((((s.countRx d.val h []).poisonLedger fun l =>
      l.origin == h.src.toNat / 65536 && epochGe l.epoch (h.addr.toNat % 2 ^ 32)).inc (Reg.DOOR.RETRACT_RX d.val) 1).ce
        (0x200 + d.val) 9 0x55 0).agateRetract (h.src.toNat / 65536) (h.addr.toNat % 2 ^ 32)).keeping s)) ∧
    (let t := (s.countRx d.val h []).ledgerDrop fun l =>
       l.origin == h.src.toNat / 65536 && epochGe (h.addr.toNat % 2 ^ 32) l.epoch
     s.takes d.val 7 h [] → exec (.close d h) s = .next (({ t with doors := { t.doors with
      closed := assocPut (h.src.toNat / 65536) (h.addr.toNat % 2 ^ 32) t.doors.closed } } : State).keeping s)) ∧
    (∀ ty : BitVec 8, s.phase = .up → 1 ≤ ty.toNat → ty.toNat ≤ 9 → p.length = 64 * h.sectors.toNat → h.dst.toNat ≠ s.dev →
      s.linkUsable d.val (s.pairFrom d.val h) = true →
      (bulk ty.toNat (h.addr.toNat % 8) = true → s.noCredit d.val = false) →
      overlong ty.toNat h = false →
      exec (.relay d ty h p) s = .next (((((s.countRx d.val h p).inc (Reg.DOOR.RELAY_PKTS d.val) 1).sendPkt ty.toNat
        { h with relayed := true } p)).keeping s)) ∧
    (let u := s.countRx d.val h p
     s.takes d.val 8 h p →
      (h.src.toNat / 65536 ≠ u.dev → u.masterOf (h.src.toNat / 65536) = u.dev → exec (.relay d 8 h p) s =
        .next ((u.sendPkt 8 (u.hdr 0x405 (h.src.toNat / 65536) 0 0 0) []).keeping s)) ∧
      (h.src.toNat / 65536 = u.dev ∨ u.masterOf (h.src.toNat / 65536) ≠ u.dev →
        exec (.relay d 8 h p) s = .next (u.keeping s))) ∧
    (∀ (k : Fin 3) (ty : BitVec 8) (kind : BitVec 4) (n : BitVec 6), s.phase = .up →
      knownPacket ty.toNat kind.toNat = false → s.linkUsable d.val k.val = true →
      exec (.badPacketType ⟨d, k⟩ ty kind n) s = .next (((((s.heardDoor d.val k.val).inc (Reg.DOOR.RX_BYTES d.val)
        (32 + 64 * n.toNat)).inc (Reg.DOOR.PROTO_ERR d.val) 1).ce (0x200 + d.val) 9 0x51 0).keeping s))

/-- What the SILL packets do (R325, R326, R411, R414, R467, R472, R482, R505): a member performs its part of a command of
its lead and reports the outcome, now or when it has waited, unless its Sill firmware has failed (R428); the lead takes the completions, records, kills, edges and events of its members. -/
def Obligations.SillPacketsAct : Prop :=
  ∀ (d : DoorIx) (h : Hdr) (p : Bytes) (s : State), s.takes d.val 9 h p →
    (∀ (feOk : Bool) (part : State → State × Answer) (t : State),
      let u := s.countRx d.val h p
      let e := slice 0 64 p
      let r := u.reqOf h e
      h.addr.toNat % 16 = 1 → field e 0 2 ≠ 0x100 → u.isMember = true → h.src.toNat / 65536 = u.lead →
      (partOf (field e 0 2) r e = some (feOk, part) →
        (u.host.sillDown = true → exec (.command d h p) s = .next (u.keeping s)) ∧
        (u.host.sillDown = false → u.fe = true → feOk = false →
          exec (.command d h p) s = .next ((u.finish r stFESTATE 0 0).keeping s)) ∧
        (u.host.sillDown = false → (u.fe = true → feOk = true) →
          (∀ st a b, part u = (t, some (st, a, b)) → exec (.command d h p) s = .next ((t.finish r st a b).keeping s)) ∧
          (part u = (t, none) → exec (.command d h p) s = .next (t.keeping s)))) ∧
      (u.host.sillDown = false → partOf (field e 0 2) r e = none →
        exec (.command d h p) s = .next ((u.finish r stUNKNOWN 0 0).keeping s))) ∧
    (h.addr.toNat % 16 = 2 → (s.countRx d.val h p).isMember = false →
      exec (.completion d h p) s = .next (((s.countRx d.val h p).partDone (bitsOf h.addr.toNat 19 4) (field p 0 4)
        (h.src.toNat / 65536) (field p 4 2) (field p 16 8) (field p 24 4)).keeping s)) ∧
    (h.addr.toNat % 16 = 3 → (s.countRx d.val h p).isMember = false →
      let b := sealRec (slice 0 60 (putAt 15 1 (field p 15 1 ||| 4) (slice 0 64 p)))
      let u := (s.countRx d.val h p).enterLog (field p 13 1 / 64) 0x400 b
      exec (.record d h p) s = .next ((if field p 13 1 / 64 = 2 then u.keepFE (field p 0 8) (field p 8 4 % 2 ^ 22) b
        else u).keeping s)) ∧
    (h.addr.toNat % 16 = 4 → field p 0 1 % 64 ≠ 0 → s.host.killed.contains (field p 0 1 % 64) = false →
      let u := s.countRx d.val h p
      let t := ({ u with host := { u.host with killed := setInsert (field p 0 1 % 64) u.host.killed } } : State).stopJob
        (field p 0 1 % 64)
      exec (.kill d h p) s = .next ((if t.isMember then t else t.sendAll 9 0x400 (field p 0 1 % 64) 4
        (killBytes (field p 0 1 % 64) (field p 1 1) t.now)).keeping s)) ∧
    (h.addr.toNat % 16 = 5 → (s.countRx d.val h p).isMember = false →
      let u := s.countRx d.val h p
      let t := u.put Reg.GEN.MEMBER_EDGE (u.get Reg.GEN.MEMBER_EDGE ||| 2 ^ (h.src.toNat / 65536 % 64))
      exec (.hostEdge d h p) s = .next ((if t.get Reg.GEN.MEMBER_VEC_EN = 1 then t.sendVec (t.get Reg.GEN.MEMBER_VEC_VEC)
        else t).keeping s)) ∧
    (h.addr.toNat % 16 = 6 → (s.countRx d.val h p).isMember = false →
      exec (.event d h p) s = .next (((s.countRx d.val h p).writeEvent (field p 4 1) (field p 5 1) (field p 6 1) (field p 7 1)
        (field p 8 8) (field p 16 8) (field p 24 4)).keeping s))

/-- What a door's links, the casements and the time exchange do (R36 to R38, R318, R322, R323, R327 to R330): a right HELLO
brings the link up and a wrong one excludes it; a link that fails goes down and takes its ledger with it; the active feed that is
good no longer is switched to a good one; Sill firmware calibrates and selects feeds, and a host's write is refused;
a follower takes the offset of its exchange and is aligned while it is at most 3 ns, and its clock slews by it. How fast the
slew goes is the model's choice (log entry 104), as is where the fields of a HELLO stand (log entry 102). -/
def Obligations.LinksFeedsAndTimeAct : Prop :=
  ∀ (d : DoorIx) (k : Fin 3) (c : CaseIx) (peer : BitVec 6) (pd : BitVec 4) (pp : BitVec 2) (serial t1 t2 t3 t4 : BitVec 64)
    (ver : BitVec 8) (pairs : BitVec 3) (a b : BitVec 16) (s : State), s.phase = .up →
    (let j := doorLink d.val k.val
     let full := if d.val = 15 then 1 else 3
     let u := ((s.heardDoor d.val k.val).inc (Reg.DOOR.RX_BYTES d.val) 96).puts [(Reg.DOOR.PEER d.val j, peer.toNat), (Reg.DOOR.PEER_DOOR d.val j, pd.toNat),
       (Reg.DOOR.PEER_PAIR d.val j, if d.val = 15 then pp.toNat else 0), (Reg.DOOR.PEER_SERIAL d.val, serial.toNat),
       (Reg.DOOR.PAIRS d.val j, min pairs.toNat full), (Reg.DOOR.DEGRADED d.val j, ofBool (decide (pairs.toNat < full)))]
     let want := u.peerOf d.val k.val
     let right := peer.toNat = want.1 ∧ pd.toNat = want.2.1 ∧ (d.val ≠ 15 ∨ pp.toNat = want.2.2) ∧ peer.toNat ≠ u.dev
     (s.get (Reg.DOOR.LINK_STATE d.val j) = 1 ∨ s.get (Reg.DOOR.LINK_STATE d.val j) = 2) → s.lit d.val = true →
      (right → exec (.hello d k peer pd pp serial ver pairs) s = .next ((u.put (Reg.DOOR.LINK_STATE d.val j) 3).keeping s)) ∧
      (¬right → exec (.hello d k peer pd pp serial ver pairs) s =
          .next (((u.put (Reg.DOOR.LINK_STATE d.val j) 5).ce (0x200 + d.val) 9 0x50 0).keeping s))) ∧
    (∀ cause, s.linkUsable d.val k.val = true → s.linkFailed d.val k.val cause = true →
      exec (.doorDown d k cause) s = .next ((s.linkGoesDown d.val k.val).keeping s)) ∧
    (let ga := s.feedGood c.val a.toNat
     let gb := s.feedGood c.val b.toNat
     let v := s.puts [(Reg.CASE.A_CDBM c.val, a.toNat), (Reg.CASE.B_CDBM c.val, b.toNat), (Reg.CASE.A_OK c.val, ofBool ga),
       (Reg.CASE.B_OK c.val, ofBool gb)]
     let good := if s.get (Reg.CASE.ACTIVE c.val) = 1 then gb else ga
     (ga = true ∨ gb = true → s.activeGood c.val = false ∨ good = true →
       exec (.feedSwitch c a b) s = .next (v.keeping s)) ∧
     (ga = true ∨ gb = true → s.activeGood c.val = true → good = false →
       exec (.feedSwitch c a b) s = .next ((((v.put (Reg.CASE.ACTIVE c.val) (1 - s.get (Reg.CASE.ACTIVE c.val))).inc
         (Reg.CASE.FEED_SWITCH_CNT c.val) 1).ce (0x300 + c.val) 0x0A 0x57 0).keeping s)) ∧
     (ga = false → gb = false → s.lit c.val = true → exec (.feedSwitch c a b) s = .next ((v.feedLost c.val).keeping s)) ∧
     (ga = false → gb = false → s.lit c.val = false → exec (.feedSwitch c a b) s = .next (v.keeping s))) ∧
    exec (.calReq c true) s = .next (s.put (Reg.CASE.CAL_STATE c.val)
      (if s.get (Reg.CASE.SPARE_STATE c.val) = 1 then 2 else 1)) ∧
    (s.host.d3hot = false → exec (.calReq c false) s = .next ((s.hostRefused (caseBase c.val + 0x20) 4).keeping s)) ∧
    (s.get (Reg.CASE.A_OK c.val) = 1 → exec (.selReq c 1 true) s = .next (s.put (Reg.CASE.ACTIVE c.val) 0)) ∧
    (s.get (Reg.CASE.B_OK c.val) = 1 → exec (.selReq c 2 true) s = .next (s.put (Reg.CASE.ACTIVE c.val) 1)) ∧
    (s.host.d3hot = false → ∀ sel : BitVec 2, sel ≠ 0 →
      exec (.selReq c sel false) s = .next ((s.hostRefused (caseBase c.val + 8) (sel.toNat * 2 ^ 16)).keeping s)) ∧
    (let cut := max (-500) (min 500 s.doors.slewPs)
     let moved := s.doors.phasePs + cut
     let t := s.passTo (s.doors.lastExchange + ((10000 : Int) + moved.tdiv 1000).toNat)
     let u : State := { t with doors := { t.doors with
       lastExchange := t.now, slewPs := s.doors.slewPs - cut, phasePs := moved.tmod 1000 } }
     let off := ((((t2.toNat : Int) - t1.toNat) - ((t4.toNat : Int) - t3.toNat)) / 2)
     let v := u.sendPkt 8 (u.hdr 0x405 u.timeMaster 0 0 0) []
     let w := ({ v with doors := { v.doors with slewPs := off } } : State).puts
       [(Reg.TIME.OFFSET_PS, unsigned 32 off), (Reg.TIME.SLEWING, ofBool (off != 0))]
     s.isMember = true →
      ((u.route u.timeMaster).isSome = true → (u.route u.lead).isSome = true → exec (.timeExchange t1 t2 t3 t4 true) s =
        .next ((if 3000 < off.natAbs then w.loseAlignment else w.put Reg.TIME.ALIGNED 1).keeping s)) ∧
      (∀ up, up = false ∨ (u.route u.timeMaster).isNone = true ∨ (u.route u.lead).isNone = true → exec (.timeExchange t1 t2 t3 t4 up) s =
        .next (((({ u with doors := { u.doors with slewPs := 0 } } : State).put Reg.TIME.SLEWING 0).loseAlignment).keeping s)))

/-! ### The expert router and Agate (chapters 12 and 14) -/

/-- What the expert router's own commands and packets do (R333 to R335, R338, R342, R344 to R346, R349 to R351): a device whose
counts are complete sends its summary; a summary, a token and a return are taken where the batch expects them, and counted
where it does not, after the packets that are held at the doors and have room now (log entry 103); a summary that has no room is
held at its door; a batch whose conditions hold closes; a cancelled one ends. Where a token's tag stands is the model's choice
(log entry 31). -/
def Obligations.ExpertPacketsAct : Prop :=
  ∀ (g : BitVec 16) (d : DoorIx) (h : Hdr) (p : Bytes) (core : CoreIx) (choice : BitVec 2) (index : BitVec 14) (s : State),
    (∀ b, s.phase = .up → s.seat.batch? g.toNat = some b → b.sent = false →
      (s.seat.dispCores.all fun n => b.xdisps.any fun x => x.core == n) = true →
      (s.seat.localExperts.all fun e => b.xrecvs.any fun x => x.expert == e) = true →
      let dem := s.seat.ownDemand b
      let t := (s.seat.trayPositions.filter fun q => q ≠ s.seat.pos).foldl (fun (u : State) q =>
        u.sendReq 0x0C 5 (u.hdr expSrc (u.dev / 16 * 16 + q) dem.job (expertAddr 0 0 0 g.toNat 0 1) 5) (summaryBytes dem)) s.seat
      exec (.summarySend g) s = .next (((t.mapBatch g.toNat fun x => { x with
        sent := true, demands := x.demands ++ [dem] }).tryAllocate g.toNat).seat.keeping s)) ∧
    (let u := s.seat.countRx d.val h p
     let gen := bitsOf h.addr.toNat 25 10
     let dem : Demand := ⟨h.src.toNat / 65536 % 16, (List.range 64).map fun e => natOf (slice (4 * e) 4 p),
       (p.getD 261 0).toNat, (p.getD 260 0).toNat, natOf (slice 256 4 p), h.job.toNat⟩
     s.phase = .up → s.seat.takes d.val 5 h p → h.addr.toNat % 16 = 1 →
      (u.batchRoom gen = true → u.genRetired gen = false → exec (.summary d h p) s =
        .next ((((u.openBatch gen h.job.toNat).mapBatch gen fun b =>
          if b.demands.any fun x => x.pos == dem.pos then b else { b with demands := b.demands ++ [dem] }).tryAllocate
            gen).seat.keeping s)) ∧
      (u.batchRoom gen = true → u.genRetired gen = true →
        exec (.summary d h p) s = .next ((u.inc Reg.EXPERT.TOK_DISCARD 1).seat.keeping s)) ∧
      (u.batchRoom gen = false → exec (.summary d h p) s = .next (({ u with doors := { u.doors with
        waiting := u.doors.waiting ++ [(d.val, ⟨5, h, p⟩)] } } : State).seat.keeping s))) ∧
    (let u := s.seat.countRx d.val h p
     let gen := bitsOf h.addr.toNat 25 10
     let e := bitsOf h.addr.toNat 9 4
     let row := bitsOf h.addr.toNat 44 29
     let piece := bitsOf h.addr.toNat 56 45
     let tag := rowTag gen e (h.src.toNat / 65536) core.val choice.toNat index.toNat
     s.phase = .up → s.seat.takes d.val 5 h p → h.addr.toNat % 16 = 2 →
      (∀ b x, u.batch? gen = some b → b.xrecvs.find? (fun x => x.expert == e && !x.finished) = some x →
        let v := ((u.ledgerAdd d.val h (rowSectors x.bound ((parseTD x.dD).va [0, row] + 2048 * piece) p.length)).putToken
          b x row piece tag p h.poison.toNat)
        exec (.token d h p core choice index) s = .next ((if h.ackReq = true then v.after 35 (.packet 2 { v.hdr (0x200 + d.val)
          (h.src.toNat / 65536) h.job.toNat 0 0 with tag := h.tag } []) else v).keeping s)) ∧
      (∀ b, u.batch? gen = some b → b.xrecvs.find? (fun x => x.expert == e && !x.finished) = none →
        exec (.token d h p core choice index) s = .next ((u.inc Reg.EXPERT.TOK_DISCARD 1).keeping s)) ∧
      (u.batch? gen = none →
        exec (.token d h p core choice index) s = .next ((u.inc Reg.EXPERT.TOK_DISCARD 1).keeping s))) ∧
    (let u := s.seat.countRx d.val h p
     let row := bitsOf h.addr.toNat 44 29
     let piece := bitsOf h.addr.toNat 56 45
     let mine := fun (x : XPart) => x.core == bitsOf h.addr.toNat 28 26 && x.owed.contains row
     s.phase = .up → s.seat.takes d.val 5 h p → h.addr.toNat % 16 = 3 →
      (∀ b x, u.batch? (bitsOf h.addr.toNat 25 10) = some b → b.xdisps.find? mine = some x →
        exec (.returnPacket d h p) s = .next (((u.ledgerAdd d.val h (rowSectors x.bound (x.base + row * (parseTD x.dA).rowLen +
          2048 * piece) p.length)).putReturn b x row piece p h.poison.toNat).keeping s)) ∧
      (∀ b, u.batch? (bitsOf h.addr.toNat 25 10) = some b → b.xdisps.find? mine = none →
        exec (.returnPacket d h p) s = .next ((u.inc Reg.EXPERT.RET_DISCARD 1).keeping s)) ∧
      (u.batch? (bitsOf h.addr.toNat 25 10) = none →
        exec (.returnPacket d h p) s = .next ((u.inc Reg.EXPERT.RET_DISCARD 1).keeping s))) ∧
    (∀ b, s.phase = .up → s.batch? g.toNat = some b → s.batchOver b = true →
      exec (.batchClose g) s = .next (((({ s with batches := s.batches.filter fun x => x.gen ≠ g.toNat } : State).inc
        Reg.EXPERT.BATCHES 1).seat).keeping s)) ∧
    (s.phase = .up →
      (s.batches.find? (fun b => b.gen = g.toNat) = none → exec (.expertCancel g) s =
        .next ((if s.genNew g.toNat then s.put Reg.EXPERT.NEWEST g.toNat else s).seat.keeping s)) ∧
      (∀ b, s.batches.find? (fun b => b.gen = g.toNat) = some b →
        let t := b.xrecvs.foldl State.cancelXrecv (b.xdisps.foldl (State.cancelXdisp b) s)
        let u := t.dispCores.foldl (fun (v : State) n => v.setReturnLatch b n) t
        exec (.expertCancel g) s = .next (((({ u with batches := u.batches.filter fun x => x.gen ≠ g.toNat } : State).inc
          Reg.EXPERT.CANCELLED 1).inc Reg.EXPERT.BATCHES 1).seat.keeping s)))

/-- What Agate does (R376, R379 to R384, R387, R388, R391 to R396): the next run opens when the step barrier has closed; the
oldest waiting contribution is compressed and delivered, unless the lead judges the run as its bucket is late (R395, R396), or
its agput faults where its operands or its destination fail; a piece that names the open run or the next is written into its slot, fails its bucket where its page does not translate, and
kills its job where poison meets a POISON_KILL page; another is discarded; a complete bucket is summed or fails; a late one
fails; one whose epochs and verdicts are settled reports success; the lead takes reports and posts a verdict, and a member
applies it. The bucket that a late verdict names is free (log entry 28). -/
def Obligations.AgateActs : Prop :=
  ∀ (b : Fin 1024) (d : DoorIx) (h : Hdr) (p : Bytes) (s : State),
    (let ahead := (s.get (Reg.BARRIER.CLOSE_CNT (s.get Reg.AGATE.CTL_STEP_BARRIER)) + 2 ^ 32 -
       s.get Reg.AGATE.CLOSE_BASE) % 2 ^ 32
     s.phase = .up → s.get Reg.AGATE.STEP_STATE = 2 → 0 < ahead → ahead < 2 ^ 31 →
      exec .runOpen s = .next ((s.openRun (s.stepNow + (if s.get Reg.AGATE.VERDICT_KIND = 1 then 1 else 0)) (s.runNow + 1)
        false).keeping s)) ∧
    (∀ (c : Contribution) (rest : List Contribution), s.phase = .up → s.agate.waiting = c :: rest →
      ((s.core c.core).window.find? (fun i => i.tag = c.tag) = none → exec .contributionTaken s =
        .next (({ s with agate := { s.agate with waiting := s.agate.waiting.drop 1 } } : State).keeping s)) ∧
      (∀ (i : Insn) (u v w : State) (ma mx : List (Nat × Byte)),
        let z := s.expireBucket c.bucket
        let a := i.td roleA
        let x := i.td roleX
        let col := fun q => a.allIx.map (· ++ [q])
        let readA := z.readSpans agateSrc z.agateJob (spans (elemBytes (a.places a.allIx)))
        let readX := u.readSpans agateSrc z.agateJob (spans (elemBytes (x.places (col (z.stepNow % 2)))))
        let k := pack (a.allIx.map fun ix => decodeNum 1 (codeIn ma (a.bitAddr ix) 32))
          ((col (z.stepNow % 2)).map fun ix => decodeNum 2 (codeIn mx (x.bitAddr ix) 16))
        let els := if k.range then [] else
          List.zipWith (fun ix e => El.mk (x.bitAddr ix) 16 e false) (col (1 - z.stepNow % 2)) k.errs
        let faults := fun (y : State) (f : Flt) => exec .contributionTaken s = .next
          ((({ y with agate := { y.agate with waiting := y.agate.waiting.drop 1 } } : State).takeFault c.core i f).keeping s)
        (s.core c.core).window.find? (fun i => i.tag = c.tag) = some i →
        (z.agate.waiting.head? ≠ some c → exec .contributionTaken s = .next (z.keeping s)) ∧
        (z.agate.waiting.head? = some c → (∀ q re l, readA = (u, ma, .bad q re l) → faults u (fltOf cADDRESS roleA a (addrDetail q re l z.agateJob))) ∧
        (∀ q, readA = (u, ma, .poison q) → faults u (fltOf cPOISON roleA a q)) ∧
        (readA = (u, ma, .done) →
          (∀ q re l, readX = (v, mx, .bad q re l) → faults v (fltOf cADDRESS roleX x (addrDetail q re l z.agateJob))) ∧
          (∀ q, readX = (v, mx, .poison q) → faults v (fltOf cPOISON roleX x q)) ∧
          (readX = (v, mx, .done) →
            ((v.others.any fun d => (v.route d).isNone) = true →
              faults v ⟨cADDRESS, 0, 0, addrDetail 0 (Config.openValue 24 0 % 16) 0 z.agateJob⟩) ∧
            ((v.others.any fun d => (v.route d).isNone) = false →
              (∀ q re l, v.writeUnit agateSrc 34 z.agateJob els = (w, .bad q re l) →
                faults w (fltOf cADDRESS roleX x (addrDetail q re l z.agateJob))) ∧
              (v.writeUnit agateSrc 34 z.agateJob els = (w, .done) →
                exec .contributionTaken s = .next ((w.deliverContribution c k).keeping s)))))))) ∧
    (let r := s.seat.countRx d.val h p
     let a := h.addr.toNat
     let u := if r.agateOpen && bitsOf a 29 22 == r.runNow then r.expireBucket (bitsOf a 45 30) else r
     let piece := bitsOf a 56 46
     let k := bitsOf a 45 30
     let run := bitsOf a 29 22
     let step := bitsOf a 21 6
     let idx := bitsOf a 5 3
     let dev := h.src.toNat / 65536
     let state := u.get Reg.AGATE.STEP_STATE
     let now := state = 1 ∧ run = u.runNow ∧ step = u.stepNow
     let next := (state = 1 ∨ state = 2) ∧ run = (u.runNow + 1) % 256
     let fits := (now ∨ next) ∧ k < 1024 ∧ u.get (Reg.AGATE.BUCKET_VALID k) = 1 ∧ idx < u.contribs k ∧
       piece < slotPieces (u.get (Reg.AGATE.BUCKET_N k)) ∧ u.members.contains dev = true
     s.phase = .up → s.seat.takes d.val 4 h p → a % 8 = 1 →
      (fits → ∀ t secs,
        let got := u.receiveAt agateSrc 34 u.agateJob (u.slotVa k dev idx + 2048 * piece) h p
        (got = (t, secs, .done) → exec (.contrib d h p) s = .next (((t.ledgerAdd d.val h secs).notePiece run k dev idx
          ⟨piece, step, if piece = 0 && (p.getD 3 0).toNat % 2 = 1 && !bitOf h.poison.toNat 0 then 6 else 0⟩
          (natOf (slice 24 4 p))).keeping s)) ∧
        (∀ va, got = (t, secs, .poison va) → exec (.contrib d h p) s =
          .next ((((t.ledgerAdd d.val h secs).countKill u.agateJob).unitConsume u.agateJob agateSrc 0x0B va).keeping s)) ∧
        (∀ va re l, got = (t, secs, .bad va re l) →
          (now → exec (.contrib d h p) s = .next (((t.bucketFail k 10).walkKill u.agateJob agateSrc re).keeping s)) ∧
          (¬now → exec (.contrib d h p) s = .next (((t.notePiece run k dev idx ⟨piece, step, 10⟩ (natOf (slice 24 4 p))).walkKill
            u.agateJob agateSrc re).keeping s)))) ∧
      (¬fits → exec (.contrib d h p) s = .next ((u.inc Reg.AGATE.DISCARD 1).keeping s))) ∧
    (∀ t, let n := s.get (Reg.AGATE.BUCKET_N b.val)
      let sum := (s.put (Reg.AGATE.BUCKET_STATE b.val) 2).sumSlots b.val n (s.bucketSlots b.val) (List.replicate n 0) 0
      s.phase = .up → s.agateOpen = true → s.get (Reg.AGATE.BUCKET_VALID b.val) = 1 →
      s.get (Reg.AGATE.BUCKET_STATE b.val) = 1 → s.completeIn s.runNow b.val = s.needed b.val →
      (∀ sums tot, sum = (t, .inr (sums, tot)) →
        exec (.sumStage b) s = .next ((t.finishSum b.val (s.bucketSlots b.val) sums tot).keeping s)) ∧
      (∀ reason re, sum = (t, .inl (reason, re)) →
        exec (.sumStage b) s = .next (((t.bucketFail b.val reason).walkKill t.agateJob agateSrc re).keeping s))) ∧
    (s.phase = .up → s.agateOpen = true → s.get (Reg.AGATE.BUCKET_VALID b.val) = 1 →
      s.get (Reg.AGATE.BUCKET_STATE b.val) = 1 → s.completeIn s.runNow b.val ≠ s.needed b.val →
      exec (.bucketDeadline b) s = .next (((s.passTo (s.get Reg.AGATE.T_OPEN +
        s.get (Reg.AGATE.BUCKET_DEADLINE_US b.val) * 1000)).bucketFail b.val 1).keeping s)) ∧
    (s.phase = .up → s.agateOpen = true → s.get (Reg.AGATE.BUCKET_STATE b.val) = 3 →
      ((s.bucketSlots b.val).all fun r => s.epochClosed r.dev r.epoch) = true →
      (s.checks.any fun c => c.src == agateSrc && c.bucket == b.val) = false →
      exec (.bucketSuccess b) s = .next (((s.put (Reg.AGATE.BUCKET_STATE b.val) 4).sendReport b.val 0
        (lookupD 0 b.val s.agate.summed)).keeping s)) ∧
    (let u := (s.countRx d.val h p).ledgerAdd d.val h []
     s.takes d.val 4 h p → h.addr.toNat % 8 = 2 →
      (u.namesRun h.addr.toNat = true → u.isMember = false →
        exec (.report d h p) s = .next ((u.takeReport ⟨bitsOf h.addr.toNat 45 30, h.src.toNat / 65536, natOf (slice 0 8 p),
          (p.getD 8 0).toNat⟩).keeping s)) ∧
      (u.namesRun h.addr.toNat = false ∨ u.isMember = true →
        exec (.report d h p) s = .next ((u.inc Reg.AGATE.DISCARD 1).keeping s))) ∧
    (∀ dev, s.phase = .up → s.agateOpen = true → s.isMember = false → s.missingDevice = some dev →
      let t := s.passTo (s.get Reg.AGATE.T_OPEN + ((s.buckets.map fun k => s.get (Reg.AGATE.BUCKET_DEADLINE_US k)).foldl max 0 +
        max 1 (s.get Reg.AGATE.VERDICT_TIMEOUT_US)) * 1000)
      exec .verdictTimeout s = .next ((t.draw.postVerdict 2 9 (Config.openValue 28 t.freeCtr % 1024) dev).keeping s)) ∧
    (let u := (s.countRx d.val h p).ledgerAdd d.val h []
     let kind := (p.getD 8 0).toNat
     let taken := u.namesRun h.addr.toNat = true ∧ u.isMember = true ∧ (kind = 1 ∨ kind = 2)
     s.takes d.val 4 h p → h.addr.toNat % 8 = 3 →
      (taken → exec (.verdict d h p) s = .next ((u.applyVerdict kind (p.getD 9 0).toNat (natOf (slice 10 2 p))
        (p.getD 12 0).toNat (natOf (slice 0 8 p))).keeping s)) ∧
      (¬taken → exec (.verdict d h p) s = .next ((u.inc Reg.AGATE.DISCARD 1).keeping s)))

/-! ### Snapshots (chapter 16) -/

/-- What the commands of an open snapshot do (R431, R434 to R440, R443): a parked job's snapshot opens at the state that the
device has then, or completes its command as NO_SPACE, or as NOT_PARKED after 1 ms; the sweep and the touched blocks are copied
in the order the chapter gives, their reads through the windows; a block's held writes go on when its last read has returned, and
what the sweep has copied waits behind the blocks of the reserve, which drains from its oldest; a complete snapshot becomes the
current image, with its cost and its notification, and a lead or a device alone computes the advice; one that is given up lets its
held writes go on. -/
def Obligations.SnapshotsAct : Prop :=
  ∀ (i : Nat) (cost : BitVec 64) (cause : BitVec 3) (s : State), s.phase = .up →
    (∀ a, s.snap.asked = some a →
      (a.at_ + 1000000 < s.now → exec .snapPark s = .next ((s.refuseOpen a stNOTPARKED).keeping s)) ∧
      (s.now ≤ a.at_ + 1000000 → s.isParked a.r.job.toNat = false → exec .snapPark s = .next s) ∧
      (s.now ≤ a.at_ + 1000000 → s.isParked a.r.job.toNat = true →
        (s.snapRoom a.r.job.toNat a.ranges = true → exec .snapPark s = .next ((s.openSnap a).keeping s)) ∧
        (s.snapRoom a.r.job.toNat a.ranges = false →
          exec .snapPark s = .next ((s.refuseOpen a stNOSPACE).keeping s)))) ∧
    (∀ a, s.snap.asked = some a → (s.passTo (a.at_ + 1000000)).isParked a.r.job.toNat = false →
      exec .snapParkTimeout s = .next (((s.passTo (a.at_ + 1000000)).refuseOpen a stNOTPARKED).keeping s)) ∧
    (∀ k b, s.snap.isOpen = true → s.snap.reserve = [] → s.readRoom = true →
      (s.reserveRoom = false ∨ (s.snap.blocks.any Block.urgent) = false) →
      s.snap.blocks.findIdx? (fun b => b.state == 0 && !b.touched) = some k → s.snap.blocks[k]? = some b →
      exec .snapSweepCopy s = .next (((s.setBlock k 1).issueReads (s.get Reg.SNAP.STATUS_JOB) b.pa).keeping s)) ∧
    (∀ b, s.snap.isOpen = true → s.snap.blocks[i]? = some b → b.urgent = true → s.touchNext = some b.va →
      s.reserveRoom = true → s.readRoom = true →
      exec (.snapTouchCopy i) s = .next (((((s.setBlock i 3).issueReads (s.get Reg.SNAP.STATUS_JOB) b.pa).inc
        Reg.SNAP.TOUCH_COPIES 1).noteReserve).keeping s)) ∧
    (∀ b, s.snap.isOpen = true → s.snap.blocks[i]? = some b → s.readsOut b.pa = false →
      let c := s.captureBlock (s.get Reg.SNAP.STATUS_JOB) b.va b.pa b.bad
      let u := (c.1.setBlock i 2).put Reg.SNAP.BLOCKS_COPIED (c.1.get Reg.SNAP.BLOCKS_COPIED + 1)
      let done := fun (t : State) => Host.Outcome.next ((((t.releaseHeld b.va).settleAll).noteReserve).keeping s)
      (b.state = 1 → u.snap.reserve = [] → exec (.snapBlockDone i) s = done (u.sendBlock c.2)) ∧
      (b.state = 1 → u.snap.reserve ≠ [] →
        exec (.snapBlockDone i) s = done { u with snap := { u.snap with ready := u.snap.ready ++ [c.2] } }) ∧
      (b.state = 3 → exec (.snapBlockDone i) s = done (u.toReserve c.2))) ∧
    (∀ k b rest, s.snap.isOpen = true → s.snap.reserve = (k, b) :: rest → s.readRoom = true →
      let x := s.fromReserve (s.placeAt k) b
      let t := ((s.issueReads 0 (s.placeAt k)).inc (Reg.MOVER.READ_BYTES 9) (2 ^ 21)).inc Reg.SNAP.POISONED_SECT
        (x.poison.length - b.poison.length)
      let u := ({ t with snap := { t.snap with reserve := rest } } : State).sendBlock x
      (u.snap.reserve = [] → exec .reserveDrain s = .next (((u.snap.ready.foldl State.sendBlock
        { u with snap := { u.snap with ready := [] } }).noteReserve).keeping s)) ∧
      (u.snap.reserve ≠ [] → exec .reserveDrain s = .next (u.noteReserve.keeping s))) ∧
    (∀ x, s.snap.isOpen = true → s.snap.reserve = [] → s.snap.ready = [] → s.snap.acks = [] →
      (s.snap.blocks.any fun b => b.state != 2) = false → s.snap.image = some x →
      let own := s.get Reg.SNAP.PARK_NS + s.snap.heldNs + s.snap.bytes / 24580
      let t := (({ s with snap := { s.snap.closed with current := some x } } : State).puts [(Reg.SNAP.STATUS_STATE, 0),
          (Reg.SNAP.LAST_VALID, 1), (Reg.SNAP.LAST_SLOT, x.slot), (Reg.SNAP.LAST_SNAP_ID, x.snapId), (Reg.SNAP.T_COMPLETE, s.now),
          (Reg.SNAP.COST_NS, own)]).inc Reg.SNAP.COMPLETED 1
      let u := if t.get Reg.SNAP.NOTIFY_V = 1 then t.sendLatch 0x404 (t.get Reg.SNAP.NOTIFY) true none else t
      exec (.snapComplete cost) s = .next ((if u.isMember = true then u else u.advise (max own cost.toNat)).keeping s)) ∧
    (cause = 1 → exec (.snapAbandon cause) s = .next ((((({ s.abandonSnap true with snap := { (s.abandonSnap true).snap with
      current := none } } : State).put Reg.SNAP.LAST_VALID 0).put Reg.SNAP.BUDDY_LOST 1).settleAll).keeping s)) ∧
    (cause = 2 →
      (∀ a, s.snap.asked = some a → exec (.snapAbandon cause) s = .next ((s.refuseOpen a stNOTPARKED).settleAll.keeping s)) ∧
      (s.snap.asked = none → s.snap.isOpen = true →
        let t := s.snap.blocks.foldl (fun (t : State) b => t.releaseHeld b.va) s
        exec (.snapAbandon cause) s =
          .next ((({ t with snap := t.snap.closed } : State).put Reg.SNAP.STATUS_STATE 0).settleAll.keeping s)) ∧
      (s.snap.asked = none → s.snap.isOpen = false → exec (.snapAbandon cause) s = .next (s.settleAll.keeping s))) ∧
    (cause ≠ 1 → cause ≠ 2 → exec (.snapAbandon cause) s = .next ((s.abandonSnap false).settleAll.keeping s))

/-! ### The port, registers, invalidation and keys (chapters 8, 17 and 19) -/

/-- What the port's rings do (R457 to R463, R468): the entry that is next by priority is picked up, where there is one; a
completion is written, held while its queue is full, and dropped while the link is down; a good doorbell moves its index, a
bad one is counted, and so is one on a member, and in D3hot none acts; ring 0 is enabled and stopped by its control register. -/
def Obligations.RingsAct : Prop :=
  ∀ (q : BitVec 16) (v : BitVec 64) (s : State),
    (∀ c id x e, s.phase = .up → s.get Reg.GEN.READY = 1 → s.host.sillDown = false → s.serveNext = some (c, id) →
      s.ring? id = some x → x.entry = some e → exec .entryPickup s = .next ((s.pickUp x e).keeping s)) ∧
    (s.phase = .up → s.get Reg.GEN.READY = 0 ∨ s.host.sillDown = true ∨ s.serveNext = none →
      exec .entryPickup s = .next s) ∧
    (s.phase = .up → (∀ y ∈ s.host.due, y.ring ≠ q.toNat) → exec (.completionWrite q) s = .next s) ∧
    (∀ a c b x, s.phase = .up → splitFirst (fun (y : Completion) => y.ring == q.toNat) s.host.due = some (a, c, b) →
      s.ring? q.toNat = some x →
      let u : State := { s with host := { s.host with due := a ++ b } }
      let one := fun (y : Ring) => { y with inProgress := y.inProgress - 1 }
      (s.get Reg.GEN.LINK_UP = 1 → x.cqUsed < x.size → exec (.completionWrite q) s =
        .next (((((u.writeCpl x c).endHandler c).mapRing q.toNat one).endRing q.toNat).keeping s)) ∧
      (s.get Reg.GEN.LINK_UP = 1 → x.size ≤ x.cqUsed → exec (.completionWrite q) s = .next s) ∧
      (s.get Reg.GEN.LINK_UP = 0 → exec (.completionWrite q) s =
        .next (((((u.inc Reg.GEN.CPL_DROP 1).endHandler c).mapRing q.toNat one).endRing q.toNat).keeping s))) ∧
    (s.phase = .up → s.host.d3hot = false → s.isMember = false →
      (∀ x, s.ring? q.toNat = some x → x.rings = true → v.toNat < x.size →
        exec (.doorbellSqTail q v) s = .next ((s.newTail x v.toNat).keeping s) ∧
        exec (.doorbellCqHead q v) s = .next ((s.newHead x v.toNat).keeping s)) ∧
      ((s.ring? q.toNat = none ∨ ∃ x, s.ring? q.toNat = some x ∧ (x.rings = false ∨ x.size ≤ v.toNat)) →
        exec (.doorbellSqTail q v) s = .next (((s.inc Reg.GEN.DB_ERR 1).put Reg.GEN.DB_ERR_LAST q.toNat).keeping s) ∧
        exec (.doorbellCqHead q v) s = .next (((s.inc Reg.GEN.DB_ERR 1).put Reg.GEN.DB_ERR_LAST q.toNat).keeping s))) ∧
    (s.phase = .up → s.host.d3hot = false → s.isMember = true →
      exec (.doorbellSqTail q v) s = .next ((s.inc Reg.GEN.DB_IGNORED 1).keeping s) ∧
      exec (.doorbellCqHead q v) s = .next ((s.inc Reg.GEN.DB_IGNORED 1).keeping s)) ∧
    (s.phase = .up → s.host.d3hot = true → exec (.doorbellSqTail q v) s = .next s ∧
      exec (.doorbellCqHead q v) s = .next s ∧ exec (.ring0CtlWrite v) s = .next s) ∧
    (s.phase = .up → s.host.d3hot = false →
      (s.get Reg.GEN.RING0_EN ≠ 1 →
        let t := s.puts [(Reg.GEN.RING0_EN, bitsOf v.toNat 63 63), (Reg.GEN.RING0_VEC, bitsOf v.toNat 23 16),
          (Reg.GEN.RING0_IRQ, bitsOf v.toNat 15 14), (Reg.GEN.RING0_LOG2_SIZE, bitsOf v.toNat 4 0)]
        (bitOf v.toNat 63 = true → exec (.ring0CtlWrite v) s = .next ({ t with host := { t.host with
          rings := t.ring0 :: t.host.rings.filter fun r => r.id ≠ 0 } }.keeping s)) ∧
        (bitOf v.toNat 63 = false → exec (.ring0CtlWrite v) s = .next (t.keeping s))) ∧
      (s.get Reg.GEN.RING0_EN = 1 → bitOf v.toNat 63 = false →
        exec (.ring0CtlWrite v) s = .next (((s.put Reg.GEN.RING0_EN 0).mapRing 0 Ring.stop).keeping s)) ∧
      (s.get Reg.GEN.RING0_EN = 1 → bitOf v.toNat 63 = true → exec (.ring0CtlWrite v) s = .next s)) ∧
    (∀ b, s.phase = .up → exec (.d3hot b) s = .next { s with host := { s.host with d3hot := b } })

/-- What a read of host memory does when it comes back (R264, R276, R279, R449, R461, R474, R475, R497): an entry waits for its
pickup; one that fails is read once more, and then stops its ring; a mover's data is delivered, with poison where it is bad, and the
read that makes sure that a burst's writes have arrived completes the burst; data of a HOST_COPY is written, and counted where it is
poisoned, unless its job is not valid any more, a read of it that fails is read once more, and then the reads that waited for the
limit go out. A read with this number that is not among the first 1,024 that are out changes nothing but what AER notes. Which of
its codes a stopped ring's record bears is the model's free value (log entry 46). -/
def Obligations.HostReadsComeBack : Prop :=
  ∀ (id : Nat) (data : Bytes) (res : CplResult) (s : State), s.phase = .up →
    let heard := if res = .poisoned then s.noteAer 12 else s
    let late := s.noteAer 14
    ((∀ x ∈ s.host.reads, x.id ≠ id) → exec (.pcieReadCompletion id data res) s = .next (heard.keeping s) ∧
      exec (.completionTimeout id) s = .next (late.keeping s)) ∧
    ∀ (a b : List HostRead) (r : HostRead),
    splitFirst (fun (x : HostRead) => x.id == id) s.host.reads = some (a, r, b) →
    let off := fun (t : State) => ({ t with host := { t.host with reads := a ++ b } } : State)
    let u := off heard
    let z := off late
    (1024 ≤ a.length → exec (.pcieReadCompletion id data res) s = .next (heard.keeping s) ∧
      exec (.completionTimeout id) s = .next (late.keeping s)) ∧
    (a.length < 1024 →
      (∀ ring tried x, r.use = .entry ring tried → s.ring? ring = some x → x.reading = true →
        let failed := fun (t : State) => if tried then (((t.mapRing ring Ring.stop).addRec
            (mkRec 0x401 0x14 1 0 (hostCodes.getD (Config.openValue 46 s.freeCtr % 15) 0x2E) 0)).draw)
          else t.hostRead r.addr r.len (.entry ring true)
        (res = .good → exec (.pcieReadCompletion id data res) s =
          .next ((u.mapRing ring fun y => { y with reading := false, entry := some (slice 0 64 data) }).keeping s)) ∧
        (res ≠ .good → exec (.pcieReadCompletion id data res) s = .next ((failed u).keeping s)) ∧
        exec (.completionTimeout id) s = .next ((failed z).keeping s)) ∧
      (∀ m ch n pa y, r.use = .burst m ch n pa → s.run? m ch = some y →
        (¬(y.burstNo = n ∧ y.flushed = true) →
          exec (.pcieReadCompletion id data res) s =
            .next (((u.deliverPiece m ch n pa (slice 0 64 data) (res != .good)).settleMover m).keeping s) ∧
          exec (.completionTimeout id) s =
            .next (((z.deliverPiece m ch n pa (slice 0 64 []) true).settleMover m).keeping s)) ∧
        (y.burstNo = n → y.flushed = true →
          exec (.pcieReadCompletion id data res) s = .next (((u.ackRun m ch).settleMover m).keeping s) ∧
          exec (.completionTimeout id) s = .next (((z.ackRun m ch).settleMover m).keeping s))) ∧
      (∀ n va tried c, r.use = .copy n va tried → s.host.copies.find? (fun x => x.n == n) = some c →
        let job := c.r.job.toNat
        let then_ := fun (t : State) => Host.Outcome.next ((State.feedCopies (ceilDiv r.len 64) t).keeping s)
        let again := fun (t : State) => if tried then t.copyPart n 0x19 [] else t.hostRead r.addr r.len (.copy n va true)
        (s.get (Reg.XLAT.JOB_VALID job) = 0 → exec (.pcieReadCompletion id data res) s = then_ (u.copyStops c) ∧
          exec (.completionTimeout id) s = then_ (z.copyStops c)) ∧
        (s.get (Reg.XLAT.JOB_VALID job) ≠ 0 →
          (res = .error → exec (.pcieReadCompletion id data res) s = then_ (again u)) ∧
          exec (.completionTimeout id) s = then_ (again z) ∧
          (res ≠ .error →
            let v := if res = .poisoned then u.inc (Reg.MOVER.MOVER_POISON 8) (ceilDiv r.len 64) else u
            let w := v.writeVa 0x401 job va (slice 0 r.len data) (res = .poisoned)
            exec (.pcieReadCompletion id data res) s = then_ (match w.2 with
              | .done => w.1.copyPart n stSUCCESS (unitsOf va r.len)
              | .bad _ re _ => (w.1.walkKill job 0x401 re).copyPart n stADDRESS []
              | .poison x => ((w.1.countKill job).unitConsume job 0x401 0x14 x).copyPart n stPOISON [])))) ∧
      (∀ m, r.use = .dropped m → exec (.pcieReadCompletion id data res) s =
          .next ((State.feedCopies (ceilDiv r.len 64) (u.settleMover m)).keeping s) ∧
        exec (.completionTimeout id) s = .next ((State.feedCopies (ceilDiv r.len 64) (z.settleMover m)).keeping s)))

/-- What accesses to the BARs do (R8 to R10, R413, R451, R453 to R455, R550): a read answers the register's value and clears what
it reads of a read-clear field; a write changes each field by its access code, and one that would change a field reserved to
Sill firmware is recorded; other sizes are refused and counted; the aperture reads and writes through the translation of its
job, a poisoned read is recorded and answered with all ones, and one that fails translation with completer abort. -/
def Obligations.BarAccessesAct : Prop :=
  ∀ (off : BitVec 26) (size : BitVec 4) (v : BitVec 64) (o : BitVec 35) (n : BitVec 13) (data : Bytes) (s : State),
    s.phase = .up →
    (s.host.d3hot = false → goodAccess off.toNat size.toNat = true →
      exec (.registerReadClear off size) s = .next (((s.seat.readReg off.toNat size.toNat).1.sendCpl
        (bytesOf size.toNat (s.seat.readReg off.toNat size.toNat).2) 0).keeping s)) ∧
    (s.host.d3hot = false → goodAccess off.toNat size.toNat = false →
      exec (.registerReadClear off size) s = .next (((s.inc Reg.GEN.BAR_ERR 1).sendCpl [] 3).keeping s)) ∧
    (∀ sill, (s.host.d3hot = false ∨ sill = true) → goodAccess off.toNat size.toNat = false →
      exec (.registerWrite off size v sill) s = .next ((s.inc Reg.GEN.BAR_ERR 1).keeping s)) ∧
    (s.host.d3hot = true → exec (.registerReadClear off size) s = .next ((s.sendCpl [] 3).keeping s) ∧
      exec (.registerWrite off size v false) s = .next s ∧ exec (.bar4Read o n) s = .next ((s.sendCpl [] 3).keeping s) ∧
      exec (.bar4Write o data) s = .next s) ∧
    (let r := off.toNat / 8 * 8
     let x := v.toNat % 2 ^ (8 * size.toNat) * 2 ^ (8 * (off.toNat % 8))
     let m := coverMask off.toNat size.toNat
     ∀ sill, (s.host.d3hot = false ∨ sill = true) → goodAccess off.toNat size.toNat = true →
      (s.absentAt r = true → exec (.registerWrite off size v sill) s = .next s) ∧
      (s.absentAt r = false →
        (∀ t, s.writeSpecial r x m sill = some t → exec (.registerWrite off size v sill) s = .next (t.keeping s)) ∧
        (s.writeSpecial r x m sill = none →
          let fs := Reg.fieldsAt r
          let put := fun (t : State) => ((fs.foldl (fun t f => t.writeField x m sill f) t).unmasked r).capWritten r
          (sill = true → exec (.registerWrite off size v sill) s = .next (((put s).sillAct r x m).keeping s)) ∧
          (sill = false → fs.any (s.wouldChange x m) = false →
            exec (.registerWrite off size v sill) s = .next ((put s).keeping s)) ∧
          (sill = false → fs.any (s.wouldChange x m) = true →
            exec (.registerWrite off size v sill) s = .next ((put (s.hostRefused r (x &&& m))).keeping s))))) ∧
    (s.host.d3hot = false → o.toNat + n.toNat ≤ 2 ^ 32 →
      let job := s.get Reg.GEN.BAR4_JOB
      let a := s.readAperture job (sectorsOf (s.apertureVa o.toNat) n.toNat)
      (s.apertureOn = false → exec (.bar4Read o n) s = .next ((s.sendCpl [] 2).keeping s)) ∧
      (s.apertureOn = true →
        (∀ bytes, a.2 = .inr (bytes, false) → exec (.bar4Read o n) s = .next ((a.1.sendCpl bytes 0).keeping s)) ∧
        (∀ bytes, a.2 = .inr (bytes, true) → exec (.bar4Read o n) s = .next (((a.1.addRec
          (mkRec 0x401 0x14 1 job cPOISON (a.1.apertureVa o.toNat))).sendCpl (List.replicate n.toNat 0xFF) 1).keeping s)) ∧
        (∀ re, a.2 = .inl re → exec (.bar4Read o n) s = .next (((a.1.walkKill job 0x401 re).sendCpl [] 2).keeping s)))) ∧
    (s.host.d3hot = false →
      (s.apertureOn = true → o.toNat + data.length ≤ 2 ^ 32 →
        let job := s.get Reg.GEN.BAR4_JOB
        let w := s.writeVa 0x401 job (s.apertureVa o.toNat) data false
        exec (.bar4Write o data) s = .next ((match w.2 with
          | .bad _ re _ => w.1.walkKill job 0x401 re
          | _ => w.1).keeping s)) ∧
      (s.apertureOn = false → exec (.bar4Write o data) s = .next s))

/-- How one field takes a write, by its access code (R9), with the bits that the write covers given by a mask: the field's
new value, every other field as it was, and a field reserved to Sill firmware left by the host (R550). -/
def Obligations.FieldsTakeWritesByTheirCode : Prop :=
  ∀ (f g : Fld) (v m : Nat) (s : State), s.get f < 2 ^ f.w → g.key ≠ f.key →
    let t := s.writeField v m true f
    (f.acc = .rw → t.get f = merged (s.get f) (f.part v) (f.part m)) ∧
    (f.acc = .w1c → t.get f = s.get f - (s.get f &&& (f.part v &&& f.part m))) ∧
    (f.acc = .w1s → t.get f = s.get f ||| (f.part v &&& f.part m)) ∧
    (f.acc = .ro ∨ f.acc = .wo ∨ f.acc = .rc → t.get f = s.get f) ∧
    t.get g = s.get g ∧
    s.writeField v m false f = (if f.sill then s else t)

/-- What an invalidation, a write of a generator's state, and the security block's messages do (R89, R187, R188, R445, R480, R485,
R514, R550): Sill firmware's write starts an invalidation, or finds one busy; it ends when no instruction and no access through
a dropped entry is left, its command completes, the next that waits begins, and a restore that waited for it writes its blocks, up
to the first whose tag fails, and then its record; a lane's state is written at once on an idle core, and kept for the end of its
window on another; each message of a key exchange, whose slot is read through the windows, has its step; a device that does not
answer ends the forming. Which block's tag fails is the model's free value (log entry 63). -/
def Obligations.KeysAndInvalidationsAct : Prop :=
  ∀ (v : BitVec 64) (c : CoreIx) (l : Fin 256) (peer dev : BitVec 6) (step : BitVec 3) (ok : Bool) (cmd : BitVec 32) (s : State),
    s.phase = .up →
    (s.get Reg.XLAT.BUSY ≠ 1 → exec (.invalCmd v true) s = .next ((s.beginInval (bitsOf v.toNat 5 0) (bitOf v.toNat 6)
      (s.get Reg.XLAT.INVAL_VA) (s.get Reg.XLAT.INVAL_PAGES) none).keeping s)) ∧
    (s.get Reg.XLAT.BUSY = 1 → exec (.invalCmd v true) s = .next ((s.put Reg.XLAT.OVERRUN 1).keeping s)) ∧
    (s.host.d3hot = false →
      (v.toNat % 128 = 0 → exec (.invalCmd v false) s = .next s) ∧
      (v.toNat % 128 ≠ 0 → exec (.invalCmd v false) s =
        .next ((s.hostRefused Reg.XLAT.INVAL_JOB.off v.toNat).keeping s))) ∧
    (s.inval = none → exec .invalidationDone s = .next s) ∧
    (∀ x, s.inval = some x →
      let u := ({ s with inval := none } : State).puts [(Reg.XLAT.BUSY, 0),
        (Reg.XLAT.DONE_CNT, s.get Reg.XLAT.DONE_CNT + 1 + x.more)]
      (x.users.any s.stillUsed = true → exec .invalidationDone s = .next s) ∧
      (x.users.any s.stillUsed = false →
        (x.req = none → exec .invalidationDone s = .next (u.nextInval.goOnRestore.keeping s)) ∧
        (∀ r, x.req = some r → exec .invalidationDone s = .next ((u.finish r 0 0 0).nextInval.goOnRestore.keeping s)))) ∧
    (∀ t : State, (t.snap.restoring = none → t.goOnRestore = t) ∧
      ∀ y, t.snap.restoring = some y →
        let v := ({ t with snap := { t.snap with restoring := none } } : State).put Reg.SNAP.STATUS_STATE 0
        (y.fails = none → t.goOnRestore = ((y.image.blocks.foldl (State.restoreBlock y.r.job.toNat) v).applyRecord y.image
          y.tResume).finish y.r stSUCCESS 0 0) ∧
        (∀ k, y.fails = some k → t.goOnRestore =
          ((y.image.blocks.take k).foldl (State.restoreBlock y.r.job.toNat) v).finish y.r stAUTH 0 0)) ∧
    (s.present c.val = true →
      ((s.core c.val).window = [] → exec (.generatorStateWrite c l v true) s =
        .next ((s.put (Reg.CORE.LANE_STATE c.val l.val) (genLoad v.toNat)).keeping s)) ∧
      ((s.core c.val).window ≠ [] → exec (.generatorStateWrite c l v true) s =
        .next ((s.setCore c.val { s.core c.val with
          heldGen := (s.core c.val).heldGen ++ [(l.val, BitVec.ofNat 64 v.toNat)] }).keeping s)) ∧
      (s.host.d3hot = false → s.get (Reg.CORE.LANE_STATE c.val l.val) ≠ v.toNat →
        exec (.generatorStateWrite c l v false) s =
          .next ((s.hostRefused (Reg.CORE.LANE_STATE c.val l.val).off v.toNat).keeping s)) ∧
      (s.host.d3hot = false → s.get (Reg.CORE.LANE_STATE c.val l.val) = v.toNat →
        exec (.generatorStateWrite c l v false) s = .next s)) ∧
    (s.present c.val = false → exec (.generatorStateWrite c l v true) s = .next s ∧
      exec (.generatorStateWrite c l v false) s = .next s) ∧
    (s.host.d3hot = true → exec (.invalCmd v false) s = .next s ∧ exec (.generatorStateWrite c l v false) s = .next s) ∧
    (s.get Reg.SEC.READY = 0 → exec (.peerMessage peer step ok) s = .next s) ∧
    (s.get Reg.SEC.READY ≠ 0 →
      let head := s.slotBytesAt peer.toNat 0 64
      let h := s.slotRead peer.toNat 0 64
      let u := h.slotRead peer.toNat 64 (min 8128 (field head 4 4))
      let fits := slice 0 1 head = bytesOf 1 step.toNat ∧ h.peerStep peer.toNat = step.toNat
      (¬fits → exec (.peerMessage peer step ok) s = .next (h.keeping s)) ∧
      (fits →
        (step = 1 → exec (.peerMessage peer step ok) s = .next ((u.sendM2 peer.toNat).keeping s)) ∧
        (step = 2 →
          (u.outKey = none → exec (.peerMessage peer step ok) s = .next ((u.dropPeer peer.toNat).keeping s)) ∧
          (∀ key, u.outKey = some key → ok = true → exec (.peerMessage peer step ok) s =
            .next (((u.inc Reg.SEC.VERIFY_CNT 2).sendM3 peer.toNat key).keeping s)) ∧
          (∀ key, u.outKey = some key → ok = false → exec (.peerMessage peer step ok) s =
            .next ((match (u.peerFails peer.toNat).host.forming with
              | some f => (u.peerFails peer.toNat).partDone f.r.ring.toNat f.r.cmdId.toNat peer.toNat stAUTH 0 0
              | none => u.peerFails peer.toNat).keeping s))) ∧
        (step = 3 → exec (.peerMessage peer step ok) s = .next ((u.gotM3 peer.toNat ok).keeping s)))) ∧
    (∀ f, s.host.forming = some f → f.r.cmdId = cmd → s.isMember = false →
      let u := s.passTo (f.since + 10000000)
      (f.missing.contains dev.toNat = true → exec (.noRoute cmd dev) s =
        .next ((({ u with host := { u.host with forming := none } } : State).finish f.r stNOROUTE 0 0).keeping s)) ∧
      (f.missing.contains dev.toNat = false →
        ((s.host.relayed.any fun x => x.of f.r.ring.toNat cmd.toNat && x.waiting.contains dev.toNat) = true →
          exec (.noRoute cmd dev) s = .next (((u.dropPeer dev.toNat).partDone f.r.ring.toNat cmd.toNat dev.toNat
            stNOROUTE 0 0).keeping s)) ∧
        ((s.host.relayed.any fun x => x.of f.r.ring.toNat cmd.toNat && x.waiting.contains dev.toNat) = false →
          exec (.noRoute cmd dev) s = .next s))) ∧
    ((s.host.forming = none ∨ s.isMember = true ∨ ∃ f, s.host.forming = some f ∧ f.r.cmdId ≠ cmd) →
      exec (.noRoute cmd dev) s = .next s)

/-! ### The commands of Sill firmware (chapter 18) -/

/-- Where a command of Sill firmware is performed (R325, R468, R472, R477): a member performs none but those that its lead sends;
the lead, or a device alone, relays a command for another device of the configuration, refuses one that no route reaches or
that the scope does not allow, and sends one for a tray or for every member to each of them; in the FE state only queries are
performed, and a device whose Sill firmware has failed performs and answers none (R428). -/
def Obligations.CommandsGoWhereTheirScopeSays : Prop :=
  ∀ (c : Instr) (r : Req) (sc : Scope) (query : Bool) (s : State), commandRow c = some (r, sc, query) → s.phase = .up →
    (s.isMember = true → exec c s = .next s) ∧
    (s.isMember = false →
      (sc = .target → r.target.toNat ≠ s.dev →
        (s.members.contains r.target.toNat = true → (s.route r.target.toNat).isSome = true →
          ∃ e, exec c s = .next ((s.relayTo r e [r.target.toNat] false).keeping s)) ∧
        ((s.members.contains r.target.toNat = false ∨ s.route r.target.toNat = none) →
          exec c s = .next ((s.finish r stNOTARGET 0 0).keeping s))) ∧
      (sc = .lead → r.target.toNat ≠ s.dev → exec c s = .next ((s.finish r stBADPARAM 0 0).keeping s)) ∧
      ((sc = .all ∨ ∃ t, sc = .tray t) →
        (s.group sc = [] → exec c s = .next ((s.finish r stBADPARAM 0 0).keeping s)) ∧
        (s.group sc ≠ [] → ∃ e,
          let u := s.relayTo r e (s.group sc) true
          ((s.group sc).contains u.dev = false → exec c s = .next (u.keeping s)) ∧
          ((s.group sc).contains u.dev = true → u.fe = true → u.host.sillDown = false →
            exec c s = .next ((u.finish r stFESTATE 0 0).keeping s)) ∧
          ((s.group sc).contains u.dev = true → u.host.sillDown = true → exec c s = .next (u.keeping s)))) ∧
      ((∀ a l t, c = .patchLoad r a l t → s.otherHandlers r = false) → (sc = .target ∨ sc = .lead) → r.target.toNat = s.dev →
        (s.fe = true → s.host.sillDown = false → query = false → exec c s = .next ((s.finish r stFESTATE 0 0).keeping s)) ∧
        (s.host.sillDown = true → exec c s = .next s)))

/-- How a part of a command ends (R326, R472, R505): a member sends its completion to its lead; on the lead or a device alone
it is due on the command's ring, unless the command waits for other parts. -/
def Obligations.PartsEndInOneCompletion : Prop :=
  ∀ (r : Req) (st r0 r1 : Nat) (s : State),
    (s.isMember = true → s.finish r st r0 r1 = s.sendPkt 9 (s.hdr 0x400 s.lead r.job.toNat (2 + 16 * r.ring.toNat) 1)
      (completionBytes r.cmdId.toNat st 0 r.ring.toNat s.dev r0 r1 false ++ bytesOf 32 0)) ∧
    (s.isMember = false → (∀ x ∈ s.host.relayed, x.of r.ring.toNat r.cmdId.toNat = false) →
      (s.finish r st r0 r1).host.due =
        s.host.due ++ [⟨r.ring.toNat, r.cmdId.toNat, st, r0 % 2 ^ 64, r1 % 2 ^ 32, s.dev, r.irq⟩]) ∧
    (∀ x, s.isMember = false → s.host.relayed = [x] → x.of r.ring.toNat r.cmdId.toNat = true → x.waiting = [s.dev] →
      x.whole = true → x.status = 0 → st = 0 → s.host.forming = none →
      (s.finish r st r0 r1).host.relayed = [] ∧
      (s.finish r st r0 r1).host.due = s.host.due ++
        [⟨x.r.ring.toNat, x.r.cmdId.toNat, 0, (x.result0 ||| r0) % 2 ^ 64, (x.result1 ||| r1) % 2 ^ 32, s.dev, x.r.irq⟩])

/-- What the queries answer, and the commands on latches, halts and batches (R490 to R492, R494): STATUS and LINK_STATUS give
their words, ERRLOG_READ sends the records that are still there, REG_READ reads with the effects of a host's read; LATCH_OP
sends a message for each latch; STREAM_HALT halts the job's named running streams; JOB_KILL kills the job; BATCH_CANCEL
cancels the batch and says whether it was open; packets held at the doors may then have room (log entry 103). Each with a bad
parameter completes with BAD_PARAM. -/
def Obligations.QueriesAndKillsAct : Prop :=
  ∀ (r : Req) (a first : BitVec 64) (max : BitVec 16) (off : BitVec 32) (op : BitVec 8) (l n : BitVec 16) (mask : BitVec 8)
    (all : Bool) (gen : BitVec 16) (tray : BitVec 8) (s u : State),
    (s.serves r .target u →
      exec (.status r) s = .next ((u.finish r 0 u.statusWords.1 u.statusWords.2).keeping s) ∧
      exec (.linkStatus r) s = .next ((u.finish r 0 u.linkWords.1 u.linkWords.2).keeping s) ∧
      (a.toNat % 64 = 0 → 0 < max.toNat → max.toNat ≤ 512 →
        let next := u.get Reg.ERR.LOG_SEQ
        let lo := Nat.max first.toNat (Nat.max 1 (next - 512))
        let k := min max.toNat (next - lo)
        exec (.errlogRead r a first max) s = .next ((((List.range k).foldl (fun t i =>
          t.hostPost (a.toNat + 64 * i) (t.logBytes (lo + i))) u).finish r 0 lo k).keeping s)) ∧
      (a.toNat % 64 ≠ 0 ∨ max.toNat = 0 ∨ 512 < max.toNat →
        exec (.errlogRead r a first max) s = .next ((u.finish r stBADPARAM 0 0).keeping s)) ∧
      (off.toNat % 8 = 0 → off.toNat < 2 ^ 26 → exec (.regRead r off) s =
        .next (((u.seat.readReg off.toNat 8).1.finish r 0 (u.seat.readReg off.toNat 8).2 0).keeping s)) ∧
      (off.toNat % 8 ≠ 0 ∨ 2 ^ 26 ≤ off.toNat → exec (.regRead r off) s =
        .next ((u.finish r stBADPARAM 0 0).keeping s)) ∧
      (op.toNat ≤ 1 → l.toNat + n.toNat ≤ 0x3FFF → exec (.latchOp r op l n) s =
        .next ((((List.range (n.toNat + 1)).foldl (fun t i => t.sendLatch hostSrc (l.toNat + i) (op.toNat = 0) none)
          u).finish r 0 0 0).keeping s)) ∧
      (1 < op.toNat ∨ 0x3FFF < l.toNat + n.toNat → exec (.latchOp r op l n) s =
        .next ((u.finish r stBADPARAM 0 0).keeping s))) ∧
    (s.serves r (if all then .all else .target) u (fun d => mkEntry 0x0005 r d [(16, 1, mask.toNat), (17, 1, ofBool all)]) →
      (r.job = 0 → exec (.streamHalt r mask all) s = .next ((u.finish r stBADPARAM 0 0).keeping s)) ∧
      (r.job ≠ 0 →
        let cores := u.runningOf mask.toNat r.job.toNat
        let t := cores.foldl State.haltStream u
        exec (.streamHalt r mask all) s = .next (((if cores.isEmpty then t else t.jobHalted r.job.toNat).seat.finish r 0
          (cores.map fun k => 2 ^ k).sum 0).keeping s))) ∧
    (s.serves r .all u (fun d => mkEntry 0x0006 r d []) →
      (r.job = 0 → exec (.jobKill r) s = .next ((u.finish r stBADPARAM 0 0).keeping s)) ∧
      (r.job ≠ 0 → exec (.jobKill r) s = .next (((if u.isMember then u.gotKill r.job.toNat 0
        else u.killJob r.job.toNat hostSrc 0 true).seat.finish r 0 0 0).keeping s))) ∧
    (s.serves r (.tray tray.toNat) u (fun d => mkEntry 0x0007 r d [(16, 2, gen.toNat), (18, 1, tray.toNat)]) →
      exec (.batchCancel r gen tray) s =
        .next ((((u.cancelGen gen.toNat).seat).finish r 0 (ofBool (u.batch? gen.toNat).isSome) 0).keeping s))

/-- What the commands on rings, events, the job-0 area and jobs do (R174, R456, R481 to R484): each, where its parameters are
good, makes its change and completes as SUCCESS, and otherwise completes with the status of the first check that it fails;
RING_DESTROY completes when nothing of its ring is in progress. -/
def Obligations.SetupCommandsAct : Prop :=
  ∀ (r : Req) (ring : BitVec 16) (log2 cls vec irq : BitVec 8) (a b c : BitVec 64) (en : Bool) (s u : State),
    let fails := fun (t : State) (st : Nat) => Host.Outcome.next ((t.finish r st 0 0).keeping s)
    (s.serves r .lead u →
      (let bad := badRing log2.toNat cls.toNat vec.toNat irq.toNat a.toNat b.toNat
       (ring ≠ 0 → bad = false → u.ring? ring.toNat = none →
        let x : Ring := { id := ring.toNat, log2 := log2.toNat, cls := cls.toNat, job := r.job.toNat, vec := vec.toNat,
                          irq := irq.toNat, sqBase := a.toNat, cqBase := b.toNat, sqHead := 0, sqTail := 0, cqTail := 0,
                          cqHead := 0, cqUsed := 0, phase := true, stopped := false, inProgress := 0, bells := [],
                          entry := none, reading := false, destroying := none }
        exec (.ringCreate r ring log2 cls vec irq a b) s = .next (({ u with host := { u.host with
          rings := u.host.rings ++ [x] } }.finish r 0 0 0).keeping s)) ∧
       (ring = 0 ∨ bad = true → exec (.ringCreate r ring log2 cls vec irq a b) s = fails u stBADPARAM) ∧
       (ring ≠ 0 → bad = false → (u.ring? ring.toNat).isSome = true →
        exec (.ringCreate r ring log2 cls vec irq a b) s = fails u stBUSY)) ∧
      (u.ring? ring.toNat = none ∨ ring = 0 ∨ ring = r.ring → exec (.ringDestroy r ring) s = fails u stBADPARAM) ∧
      (∀ x, u.ring? ring.toNat = some x → ring ≠ 0 → ring ≠ r.ring →
        (x.destroying ≠ none → exec (.ringDestroy r ring) s = fails u stBUSY) ∧
        (x.destroying = none → exec (.ringDestroy r ring) s = .next ((((u.letWait r).mapRing ring.toNat fun y =>
          { y.stop with sqHead := y.sqTail, destroying := some r }).endRing ring.toNat).keeping s))) ∧
      (a.toNat % 64 = 0 → 6 ≤ log2.toNat → log2.toNat ≤ 16 →
        exec (.eventRing r a log2 vec en) s = .next (({ u with host := { u.host with
          evAddr := a.toNat, evLog2 := log2.toNat, evVec := vec.toNat, evEn := en } }.finish r 0 0 0).keeping s)) ∧
      (a.toNat % 64 ≠ 0 ∨ log2.toNat < 6 ∨ 16 < log2.toNat → exec (.eventRing r a log2 vec en) s = fails u stBADPARAM)) ∧
    (s.serves r .target u →
      (let bad := a.toNat % 2 ^ 21 ≠ 0 ∨ b.toNat % 2 ^ 21 ≠ 0 ∨ c.toNat % 2 ^ 21 ≠ 0 ∨ u.memTop / 2 < a.toNat + b.toNat + c.toNat
       (bad → exec (.memLayout r a b c) s = fails u stBADPARAM) ∧
       (¬bad → (∃ k, 1 ≤ k ∧ k < 64 ∧ u.jobValid k = true) → exec (.memLayout r a b c) s = fails u stBUSY) ∧
       (¬bad → (∀ k, 1 ≤ k → k < 64 → u.jobValid k = false) →
        exec (.memLayout r a b c) s = .next (((u.setLayout a.toNat b.toNat c.toNat).finish r 0 0 0).keeping s))) ∧
      (r.job = 0 ∨ a.toNat % 4096 ≠ 0 → exec (.jobCreate r a) s = fails u stBADPARAM) ∧
      (r.job ≠ 0 → a.toNat % 4096 = 0 →
        (u.jobValid r.job.toNat = true → exec (.jobCreate r a) s = fails u stNOJOB) ∧
        (u.jobValid r.job.toNat = false →
          (u.memTop = 0 ∨ u.takeTable r.job.toNat = none → exec (.jobCreate r a) s = fails u stNOTABLES) ∧
          (∀ t p, u.memTop ≠ 0 → u.takeTable r.job.toNat = some (t, p) →
            let v := t.puts [(Reg.XLAT.JOB_ROOT r.job.toNat, p / 4096), (Reg.XLAT.JOB_HOST_BASE r.job.toNat, a.toNat / 4096),
              (Reg.XLAT.JOB_VALID r.job.toNat, 1)]
            exec (.jobCreate r a) s = .next (({ v with host := { v.host with
              killed := setErase r.job.toNat v.host.killed } }.finish r 0 0 0).keeping s)))) ∧
      (r.job = 0 → exec (.jobDestroy r) s = fails u stBADPARAM) ∧
      (r.job ≠ 0 → u.jobValid r.job.toNat = false → exec (.jobDestroy r) s = fails u stNOJOB) ∧
      (r.job ≠ 0 → u.jobValid r.job.toNat = true → u.jobInUse r.job.toNat = true → exec (.jobDestroy r) s = fails u stBUSY) ∧
      (r.job ≠ 0 → u.jobValid r.job.toNat = true → u.jobInUse r.job.toNat = false →
        exec (.jobDestroy r) s = .next ((((({ u with host := { u.host with
          tables := u.host.tables.filter fun t => t.2 ≠ r.job.toNat } } : State).clearChannels r.job.toNat).dropJob
            r.job.toNat).finish r 0 0 0).keeping s)))

/-- What MAP, UNMAP and PROTECT, and the owner table and channel commands do (R14, R174, R265, R485, R486): each of the three
reads the entries that stand on the ways to its pages, with requests to the windows; MAP writes the leaves of its pages where none stands, or, with REPLACE, in place of those that do, and then completes with an invalidation; UNMAP
and PROTECT change every leaf of their range and complete with an invalidation; without a valid job, or with an open snapshot
of it, none of the three changes a page. OWNER_TABLE keeps a good table; CHANNEL_SET writes the context of an idle channel. -/
def Obligations.MappingCommandsAct : Prop :=
  ∀ (r : Req) (va : BitVec 64) (pa : BitVec 48) (flags : BitVec 8) (count : BitVec 32) (m : BitVec 8) (ch : BitVec 16)
    (w0 : BitVec 64) (clear : Bool) (s u : State),
    let fails := fun (t : State) (st : Nat) => Host.Outcome.next ((t.finish r st 0 0).keeping s)
    let job := r.job.toNat
    (s.serves r .target u → flags.toNat < 64 →
      (∀ st, u.jobFails r = some st → exec (.map r va pa flags count) s = fails u st ∧
        exec (.unmap r va count) s = fails u st ∧
        (flags.toNat % 2 = 0 → flags.toNat < 32 → exec (.protect r va flags count) s = fails u st)) ∧
      (u.jobFails r = none → u.snapOf job = true → exec (.map r va pa flags count) s = fails u stSNAPOPEN ∧
        exec (.unmap r va count) s = fails u stSNAPOPEN ∧
        (flags.toNat % 2 = 0 → flags.toNat < 32 → exec (.protect r va flags count) s = fails u stSNAPOPEN))) ∧
    (s.serves r .target u → 64 ≤ flags.toNat → exec (.map r va pa flags count) s = fails u stBADENTRY) ∧
    (s.serves r .target u → flags.toNat % 2 = 1 ∨ 32 ≤ flags.toNat → exec (.protect r va flags count) s = fails u stBADENTRY) ∧
    (s.serves r .target u → u.jobFails r = none → u.snapOf job = false →
      let pages := mapPages va.toNat pa.toNat flags.toNat count.toNat
      let giant : Bool := flags.toNat % 2 = 1
      let size := 2 ^ (21 + 9 * (flags.toNat % 2))
      let found := pages.map fun p => u.mapSlot job p.1 giant
      let x := u.readPlaces job giant (pages.map fun p => p.1)
      let bad := count = 0 ∨ va.toNat % size ≠ 0 ∨ pa.toNat % size ≠ 0 ∨ 2 ^ 57 < va.toNat + count.toNat * size ∨
        u.goodRange pa.toNat (count.toNat * size) giant = false
      (flags.toNat < 64 →
        (bad → exec (.map r va pa flags count) s = fails u stBADPARAM) ∧
        (¬bad → found.contains .bad = true → exec (.map r va pa flags count) s = fails x stBADPARAM) ∧
        (¬bad → found.contains .bad = false →
          (x.meetsArea pa.toNat (count.toNat * size) = true → exec (.map r va pa flags count) s = fails x stRESERVED) ∧
          (x.meetsArea pa.toNat (count.toNat * size) = false →
            (found.contains .taken = true → bitOf flags.toNat 5 = false →
              exec (.map r va pa flags count) s = fails x stMAPPED) ∧
            (found.contains .taken = false ∨ bitOf flags.toNat 5 = true →
              (x.putLeaves job pages = none → exec (.map r va pa flags count) s = fails x stNOTABLES) ∧
              (∀ t, x.putLeaves job pages = some t →
                (found.contains .taken = false → exec (.map r va pa flags count) s = .next ((t.finish r 0 0 0).keeping s)) ∧
                (found.contains .taken = true → exec (.map r va pa flags count) s =
                  .next (((t.letWait r).invalFor r job (va.toNat / 2 ^ 21) (count.toNat * size / 2 ^ 21)).keeping s))))))) ∧
      (let first := va.toNat / 2 ^ 21
       let units := (List.range count.toNat).map (first + ·)
       let y := u.readPaths job units
       let new := fun (f : Nat → Nat) =>
         Host.Outcome.next ((((y.changeLeaves job units f).letWait r).invalFor r job first count.toNat).keeping s)
       let keep := flags.toNat % 2 = 0 ∧ flags.toNat < 32
       let wrong := count = 0 ∨ va.toNat % 2 ^ 21 ≠ 0 ∨ 2 ^ 57 < va.toNat + count.toNat * 2 ^ 21
       (wrong → exec (.unmap r va count) s = fails u stBADPARAM ∧
        (keep → exec (.protect r va flags count) s = fails u stBADPARAM)) ∧
       (¬wrong → (∃ x ∈ units, u.leafOf job x = none) → exec (.unmap r va count) s = fails y stNOTMAPPED ∧
        (keep → exec (.protect r va flags count) s = fails y stNOTMAPPED)) ∧
       (¬wrong → (∀ x ∈ units, u.leafOf job x ≠ none) →
        (∃ x ∈ units, ∃ l t e, u.leafOf job x = some (l, t, e) ∧ leafInside first count.toNat x l = false) →
        exec (.unmap r va count) s = fails y stBADPARAM ∧ (keep → exec (.protect r va flags count) s = fails y stBADPARAM)) ∧
       (¬wrong → (∀ x ∈ units, ∃ l t e, u.leafOf job x = some (l, t, e) ∧ leafInside first count.toNat x l = true) →
        exec (.unmap r va count) s = new (fun _ => 0) ∧
        (keep → exec (.protect r va flags count) s = new (protectEntry flags.toNat))))) ∧
    (s.serves r .lead u →
      (count.toNat < 56 → exec (.ownerTable r va count) s = fails u stBADPARAM) ∧
      (56 ≤ count.toNat →
        let p := u.readParam r va.toNat count.toNat
        (∀ st, p.2 = .inl st → exec (.ownerTable r va count) s = fails p.1 st) ∧
        (∀ b, p.2 = .inr b → p.1.ownerOk b count.toNat = false → exec (.ownerTable r va count) s = fails p.1 stBADPARAM) ∧
        (∀ b, p.2 = .inr b → p.1.ownerOk b count.toNat = true → exec (.ownerTable r va count) s =
          .next (({ p.1 with host := { p.1.host with owners := assocPut (field b 0 2) b p.1.host.owners } }.finish
            r 0 0 0).keeping s)))) ∧
    (s.serves r .target u →
      (7 < m.toNat ∨ 4095 < ch.toNat → exec (.channelSet r m ch w0 clear) s = fails u stBADPARAM) ∧
      (m.toNat ≤ 7 → ch.toNat ≤ 4095 →
        (u.present m.toNat = false → exec (.channelSet r m ch w0 clear) s = fails u stNOCORE) ∧
        (u.present m.toNat = true → u.chanIdle m.toNat ch.toNat = false → exec (.channelSet r m ch w0 clear) s = fails u stBUSY) ∧
        (u.present m.toNat = true → u.chanIdle m.toNat ch.toNat = true →
          (bitOf w0.toNat 63 = true → u.jobValid (w0.toNat % 64) = false →
            exec (.channelSet r m ch w0 clear) s = fails u stNOJOB) ∧
          ((bitOf w0.toNat 63 = true → u.jobValid (w0.toNat % 64) = true) →
            let t := u.setCtx m.toNat ch.toNat 0 (ctxMask w0.toNat)
            exec (.channelSet r m ch w0 clear) s = .next (((if clear then [2, 3, 4, 5, 6].foldl (fun x k =>
              x.setCtx m.toNat ch.toNat k 0) t else t).finish r 0 0 0).keeping s)))))

/-- What the commands that configure units do (R30, R332, R375, R376, R397, R398, R493, R496, R498): PLACEMENT and
REDUCE_CONFIG write their images' registers, REDUCE_START and STEP_REPLAY open their run, REDUCE_STOP stops Agate, BUDGET
writes the power manager's registers, MCAST_SET a group, and REG_WRITE the permitted bits of a register; and each, where a
check of it fails, completes with that check's status. Whether a batch is open on another device of the tray, where there is one,
is the model's free value (log entry 111). -/
def Obligations.ConfigurationCommandsAct : Prop :=
  ∀ (r : Req) (va v mask : BitVec 64) (tray : BitVec 8) (step dieW dwell uncore : BitVec 16) (tj hyst : BitVec 8)
    (lend : Bool) (g : BitVec 8) (off : BitVec 32) (s u : State),
    let fails := fun (t : State) (st : Nat) => Host.Outcome.next ((t.finish r st 0 0).keeping s)
    (s.serves r (.tray tray.toNat) u (fun d => mkEntry 0x0117 r d [(16, 8, va.toNat), (24, 1, tray.toNat)]) →
      let p := u.readParam r va.toNat 520
      (∀ st, p.2 = .inl st → exec (.placement r va tray) s = fails p.1 st) ∧
      (∀ b, p.2 = .inr b →
        (p.1.placementOk b = false → exec (.placement r va tray) s = fails p.1 stBADPARAM) ∧
        (p.1.placementOk b = true → p.1.trayBatch = true → exec (.placement r va tray) s = fails p.1.draw stBUSY) ∧
        (p.1.placementOk b = true → p.1.trayBatch = false → exec (.placement r va tray) s =
          .next (((((List.range 64).foldl (fun x e => x.setReg (0x390100 + 8 * e) (word b e)) p.1.draw).setReg 0x390000
            (word b 64)).finish r 0 0 0).keeping s)) ∧
        (p.1.batches ≠ [] → p.1.trayBatch = true)) ∧
      ((u.trayPositions.length ≤ 1 → u.batches = [] → u.trayBatch = false))) ∧
    (s.serves r .all u (fun d => mkEntry 0x0118 r d [(16, 8, va.toNat)]) →
      let p := u.readParam r va.toNat 32776
      (∀ st, p.2 = .inl st → exec (.reduceConfig r va) s = fails p.1 st) ∧
      (∀ b, p.2 = .inr b →
        (p.1.get Reg.AGATE.STEP_STATE ≠ 0 → exec (.reduceConfig r va) s = fails p.1 stBUSY) ∧
        (p.1.get Reg.AGATE.STEP_STATE = 0 → (∃ k < 1024, bucketOk (word b (1 + 4 * k)) = false) →
          exec (.reduceConfig r va) s = fails p.1 stBADPARAM) ∧
        (p.1.get Reg.AGATE.STEP_STATE = 0 → (∀ k < 1024, bucketOk (word b (1 + 4 * k)) = true) →
          exec (.reduceConfig r va) s = .next ((((List.range 4096).foldl (fun x k => x.setReg (0x388000 + 8 * k)
            (word b (1 + k))) (p.1.setReg 0x380000 (word b 0))).finish r 0 0 0).keeping s)))) ∧
    (s.serves r .all u (fun d => mkEntry 0x0119 r d [(16, 2, step.toNat)]) →
      (u.get Reg.AGATE.STEP_STATE = 0 → u.get Reg.AGATE.CTL_EN ≠ 0 →
        exec (.reduceStart r step) s = .next (((u.openRun step.toNat 0 false).finish r 0 0 0).keeping s)) ∧
      (u.get Reg.AGATE.STEP_STATE ≠ 0 ∨ u.get Reg.AGATE.CTL_EN = 0 → exec (.reduceStart r step) s = fails u stBUSY)) ∧
    (s.serves r .all u (fun d => mkEntry 0x011A r d []) →
      exec (.reduceStop r) s = .next ((u.agateStop.finish r 0 0 0).keeping s)) ∧
    (s.serves r .all u (fun d => mkEntry 0x0204 r d [(16, 2, step.toNat)]) →
      let busy := (∃ n ∈ u.coresOf r.job.toNat, u.streamState n = 1 ∨ (u.core n).window ≠ []) ∨ u.agateOpen = true
      (r.job = 0 → exec (.stepReplay r step) s = fails u stBADPARAM) ∧
      (r.job ≠ 0 → busy → exec (.stepReplay r step) s = fails u stBUSY) ∧
      (r.job ≠ 0 → ¬busy →
        exec (.stepReplay r step) s = .next (((u.openRun step.toNat (u.runNow + 1) true).finish r 0 0 0).keeping s))) ∧
    (s.serves r .target u →
      (let t := u.puts [(Reg.PWR.DIE_W, dieW.toNat), (Reg.PWR.TJ_CEIL, tj.toNat), (Reg.PWR.HYST, hyst.toNat),
        (Reg.PWR.HOLD_DWELL, dwell.toNat), (Reg.PWR.LEND_EN, ofBool lend)]
       (uncore.toNat = 0 → exec (.budget r dieW tj hyst dwell lend uncore) s = .next ((t.finish r 0 0 0).keeping s)) ∧
       (uncore.toNat ≠ 0 → exec (.budget r dieW tj hyst dwell lend uncore) s =
        .next (((t.setUncore uncore.toNat).finish r 0 0 0).keeping s))) ∧
      (31 < g.toNat ∨ 2 ^ 36 ≤ v.toNat → exec (.mcastSet r g lend v) s = fails u stBADPARAM) ∧
      (g.toNat ≤ 31 → v.toNat < 2 ^ 36 →
        (u.get (Reg.LATCH.MCAST_INFLIGHT g.toNat) = 0 → exec (.mcastSet r g lend v) s =
          .next (((u.mcastWrite g.toNat (ofBool lend * 2 ^ 63 + v.toNat) true).finish r 0 0 0).keeping s)) ∧
        (u.get (Reg.LATCH.MCAST_INFLIGHT g.toNat) ≠ 0 → exec (.mcastSet r g lend v) s =
          .next ({ u.letWait r with host := { (u.letWait r).host with
            mcasts := (u.letWait r).host.mcasts ++ [(r, g.toNat, ofBool lend * 2 ^ 63 + v.toNat)] } }.keeping s))) ∧
      (off.toNat % 8 ≠ 0 ∨ 2 ^ 26 ≤ off.toNat → exec (.regWrite r off v mask) s = fails u stBADPARAM) ∧
      (off.toNat % 8 = 0 → off.toNat < 2 ^ 26 →
        (permittedBits off.toNat ≠ 0 → exec (.regWrite r off v mask) s =
          .next (((u.writeWord off.toNat v.toNat (mask.toNat &&& permittedBits off.toNat) (extraReg off.toNat)).finish
            r 0 0 0).keeping s)) ∧
        (permittedBits off.toNat = 0 → exec (.regWrite r off v mask) s = fails u stNOTPERMITTED)))

/-- What the commands on streams and data do (R194, R294, R474, R475, R487 to R489, R497): STREAM_START starts every named core at
the program's address and STREAM_RESUME resumes it there, or at its PC where the address is 0; PROGRAM_LOAD fills descriptor
slots and marks them; HOST_COPY sends a range of memory to the host, sector by sector up to a poisoned one, or issues the reads
for one, and completes at once for no bytes. A command that fails a check completes with that check's status. -/
def Obligations.StreamCommandsAct : Prop :=
  ∀ (r : Req) (cores core dir : BitVec 8) (va hostAt len : BitVec 64) (first count : BitVec 16) (s u : State),
    let fails := fun (t : State) (st : Nat) => Host.Outcome.next ((t.finish r st 0 0).keeping s)
    s.serves r .target u →
    (r.job = 0 → exec (.streamStart r cores va) s = fails u stBADPARAM ∧
      exec (.programLoad r core first count va) s = fails u stBADPARAM) ∧
    (∀ st, r.job ≠ 0 → u.startFails r (maskCores cores.toNat) va.toNat = some st →
      exec (.streamStart r cores va) s = fails u st) ∧
    (r.job ≠ 0 → u.startFails r (maskCores cores.toNat) va.toNat = none →
      exec (.streamStart r cores va) s = .next ((((maskCores cores.toNat).foldl (State.startStream r.job.toNat va.toNat)
        { u with host := { u.host with killed := setErase r.job.toNat u.host.killed } }).finish r 0 0 0).keeping s)) ∧
    (∀ st, u.resumeFails (maskCores cores.toNat) va.toNat = some st → exec (.streamResume r cores va) s = fails u st) ∧
    (u.resumeFails (maskCores cores.toNat) va.toNat = none →
      exec (.streamResume r cores va) s = .next ((((maskCores cores.toNat).foldl (fun t n =>
        t.runFrom n (if va.toNat = 0 then t.get (Reg.CORE.PC n) else va.toNat)) u).finish r 0 0 0).keeping s)) ∧
    (r.job ≠ 0 →
      (7 < core.toNat ∨ count = 0 ∨ 4096 < first.toNat + count.toNat →
        exec (.programLoad r core first count va) s = fails u stBADPARAM) ∧
      (core.toNat ≤ 7 → count ≠ 0 → first.toNat + count.toNat ≤ 4096 →
        (u.present core.toNat = false → exec (.programLoad r core first count va) s = fails u stNOCORE) ∧
        (u.present core.toNat = true →
          let p := u.readParam r va.toNat (128 * count.toNat)
          (∀ st, p.2 = .inl st → exec (.programLoad r core first count va) s = fails p.1 st) ∧
          (∀ b, p.2 = .inr b →
            let v := p.1.loadSlots core.toNat first.toNat count.toNat b
            exec (.programLoad r core first count va) s = .next (((v.setCore core.toNat { v.core core.toNat with
              marks := (List.range count.toNat).foldl (fun l k => setInsert (first.toNat + k) l)
                (v.core core.toNat).marks }).finish r 0 0 0).keeping s))))) ∧
    (∀ st, u.jobFails r = some st → exec (.hostCopy r dir hostAt va len) s = fails u st) ∧
    (u.jobFails r = none →
      let job := r.job.toNat
      let secs := sectorsOf va.toNat len.toNat
      let bad := 1 < dir.toNat ∨ hostAt.toNat % 64 ≠ 0 ∨ 2 ^ 57 < va.toNat + len.toNat
      let x := u.reachable job (dir.toNat = 1) (dir.toNat = 0) secs
      (bad → exec (.hostCopy r dir hostAt va len) s = fails u stBADPARAM) ∧
      (¬bad →
        (∀ st, x.2 = some st → exec (.hostCopy r dir hostAt va len) s = fails x.1 st) ∧
        (x.2 = none →
          (len = 0 → exec (.hostCopy r dir hostAt va len) s = fails x.1 stSUCCESS) ∧
          (len ≠ 0 →
            (dir = 1 → exec (.hostCopy r dir hostAt va len) s =
              fails (x.1.copyOut job hostAt.toNat va.toNat secs).1 (x.1.copyOut job hostAt.toNat va.toNat secs).2) ∧
            (dir = 0 → exec (.hostCopy r dir hostAt va len) s =
              .next (((x.1.letWait r).copyIn r hostAt.toNat va.toNat len.toNat).keeping s))))))

/-- What the commands on snapshots, tests and security do (R420 to R424, R431, R444 to R446, R480, R495, R496, R499 to R504,
R515, R519): SNAP_OPEN asks for the snapshot and waits; RESTORE writes the image's tree and waits for the invalidation behind
which its blocks and record follow; TEST and CALIBRATE ask for a test; RETIRE retires a tile or a core, or ends the stored
retirements of one; ATTEST sends a signed report; PATCH_LOAD puts a table whose signature verifies in force, once no other handler
runs; CONFIG_FORM begins the forming of a configuration, or the return of lost members, once every device has answered. A command
that fails a check completes with that check's status; whether a signature or an image's tag verifies, and whether the job is halted
on other devices, are the model's free values (log entries 26 and 63). -/
def Obligations.ServiceCommandsAct : Prop :=
  ∀ (r : Req) (id : BitVec 32) (va a b t1 : BitVec 64) (src kind core tile mode : BitVec 8) (windows : BitVec 32)
    (cal : BitVec 16) (nonce table : Bytes) (len : BitVec 32) (dup : Bool) (feeds : BitVec 256) (s u : State),
    let fails := fun (t : State) (st : Nat) => Host.Outcome.next ((t.finish r st 0 0).keeping s)
    let job := r.job.toNat
    (s.serves r .all u (fun d => mkEntry 0x0202 r d [(16, 4, id.toNat), (24, 8, va.toNat), (32, 8, a.toNat), (40, 8, b.toNat),
        (48, 8, s.now)]) →
      (a.toNat % 64 ≠ 0 → exec (.snapOpen r id va a b) s = fails u stBADPARAM) ∧
      (a.toNat % 64 = 0 →
        (∀ st, u.jobFails r = some st → exec (.snapOpen r id va a b) s = fails u st) ∧
        (u.jobFails r = none → u.snapBusy = true → exec (.snapOpen r id va a b) s = fails u stBUSY) ∧
        (u.jobFails r = none → u.snapBusy = false →
          let p := u.readParam r va.toNat 64
          (∀ st, p.2 = .inl st → exec (.snapOpen r id va a b) s = fails p.1 st) ∧
          (∀ x, p.2 = .inr x →
            let ranges := (List.range 16).map fun k => field x (4 * k) 4
            let y := p.1.readTables job
            let v := y.letWait r
            (rangesOk ranges = false → exec (.snapOpen r id va a b) s = fails y stBADPARAM) ∧
            (rangesOk ranges = true → y.snapRoom job ranges = false →
              exec (.snapOpen r id va a b) s = fails y stNOSPACE) ∧
            (rangesOk ranges = true → y.snapRoom job ranges = true →
              exec (.snapOpen r id va a b) s = .next (({ v with snap := { y.snap with
                asked := some ⟨r, id.toNat, ranges, a.toNat, b.toNat, s.now, y.now⟩ } }.puts [(Reg.SNAP.STATUS_STATE, 1),
                  (Reg.SNAP.STATUS_JOB, job), (Reg.SNAP.STATUS_SNAP_ID, id.toNat)]).keeping s)))))) ∧
    (s.serves r .target u →
      (1 < src.toNat ∨ src = 1 ∧ a.toNat % 64 ≠ 0 → exec (.restore r id src a t1) s = fails u stBADPARAM) ∧
      (src = 0 ∨ src = 1 ∧ a.toNat % 64 = 0 →
        let halted := ∀ n ∈ u.coresOf job, u.streamState n ≠ 1 ∧ (u.core n).window = []
        (∀ st, u.jobFails r = some st → exec (.restore r id src a t1) s = fails u st) ∧
        (u.jobFails r = none → u.snapBusy = true → exec (.restore r id src a t1) s = fails u stBUSY) ∧
        (u.jobFails r = none → u.snapBusy = false →
          (¬halted → exec (.restore r id src a t1) s = fails u stNOTHALTED) ∧
          (halted → u.haltedElsewhere = false → exec (.restore r id src a t1) s = fails u.draw stNOTHALTED) ∧
          (halted → u.haltedElsewhere = true → u.imageAt src.toNat a.toNat = none →
            exec (.restore r id src a t1) s = fails u.draw stMISMATCH) ∧
          (∀ x, halted → u.haltedElsewhere = true → u.imageAt src.toNat a.toNat = some x →
            let bad := u.failingUnit x.blocks.length
            (u.imageFits x job id.toNat = false → exec (.restore r id src a t1) s = fails u.draw stMISMATCH) ∧
            (u.imageFits x job id.toNat = true →
              (x.key = none ∨ x.key ≠ u.sec.csk ∨ bad < 3 → exec (.restore r id src a t1) s = fails u.draw stAUTH) ∧
              (x.key ≠ none → x.key = u.sec.csk → 3 ≤ bad →
                (u.draw.restoreTree job x.tree = none → exec (.restore r id src a t1) s = fails u.draw stNOTABLES) ∧
                (∀ t, u.draw.restoreTree job x.tree = some t → exec (.restore r id src a t1) s =
                  .next (({ t.letWait r with snap := { (t.letWait r).snap with restoring := some ⟨r, x, t1.toNat,
                    if bad < x.blocks.length + 3 then some (bad - 3) else none⟩ } } : State).put
                      Reg.SNAP.STATUS_STATE 3 |>.keeping s))))))) ∧
      (∀ st, u.testFails kind.toNat core.toNat tile.toNat windows.toNat = some st →
        exec (.test r kind core tile windows) s = fails u st) ∧
      (u.testFails kind.toNat core.toNat tile.toNat windows.toNat = none → exec (.test r kind core tile windows) s =
        .next ((u.askTest ⟨some r, kind.toNat, core.toNat, tile.toNat, windows.toNat, false⟩).keeping s)) ∧
      (cal = 0 → exec (.calibrate r cal) s = fails u stSUCCESS) ∧
      (cal ≠ 0 → exec (.calibrate r cal) s =
        .next ((u.askTest ⟨some r, 5, 0, 0, cal.toNat, false⟩).keeping s)) ∧
      (kind = 0 ∨ 3 < kind.toNat ∨ 7 < core.toNat ∨ kind = 1 ∧ 7 < tile.toNat →
        exec (.retire r kind core tile) s = fails u stBADPARAM) ∧
      (kind = 1 ∧ tile.toNat ≤ 7 ∨ kind = 2 ∨ kind = 3 → core.toNat ≤ 7 → u.present core.toNat = false →
        exec (.retire r kind core tile) s = fails u stNOCORE) ∧
      (core.toNat ≤ 7 → u.present core.toNat = true →
        let gone := (u.core core.toNat).retired
        let still := u.streamState core.toNat ≠ 1 ∧ (u.core core.toNat).window = []
        (tile.toNat ≤ 7 →
          (gone = true ∨ u.tileState core.toNat tile.toNat = 3 → exec (.retire r 1 core tile) s = fails u stRETIRED) ∧
          (gone = false → u.tileState core.toNat tile.toNat ≠ 3 →
            exec (.retire r 1 core tile) s = .next (((u.retireTile core.toNat tile.toNat
              (u.recentEvents core.toNat 2 tile.toNat)).finish r 0 0 0).keeping s))) ∧
        (¬still → exec (.retire r 2 core tile) s = fails u stBUSY) ∧
        (still → gone = true → exec (.retire r 2 core tile) s = fails u stRETIRED) ∧
        (still → gone = false →
          exec (.retire r 2 core tile) s = .next (((u.retireCore core.toNat).finish r 0 0 0).keeping s)) ∧
        exec (.retire r 3 core tile) s = .next (((u.clearRetired core.toNat).finish r 0 0 0).keeping s)) ∧
      (a.toNat % 64 ≠ 0 → exec (.attest r nonce a) s = fails u stBADPARAM) ∧
      (a.toNat % 64 = 0 →
        (u.sec.akSeed = none ∨ u.get Reg.SEC.AK_VALID = 0 → exec (.attest r nonce a) s = fails u stAUTH) ∧
        (∀ seed, u.sec.akSeed = some seed → u.get Reg.SEC.AK_VALID ≠ 0 →
          exec (.attest r nonce a) s = .next (((((u.draw.inc Reg.SEC.SIGN_CNT 1).hostPost a.toNat
            (u.report nonce seed))).finish r 0 4864 0).keeping s))) ∧
      (s.otherHandlers r = true → exec (.patchLoad r a len table) s = .next s) ∧
      (s.otherHandlers r = false →
        let t := slice 0 len.toNat table
        let v := u.inc Reg.SEC.VERIFY_CNT 1
        (a.toNat % 64 ≠ 0 → exec (.patchLoad r a len table) s = fails u stBADPARAM) ∧
        (∀ st, a.toNat % 64 = 0 → u.patchFails t len.toNat = some st → exec (.patchLoad r a len table) s = fails u st) ∧
        (a.toNat % 64 = 0 → u.patchFails t len.toNat = none →
          exec (.patchLoad r a len table) s = .next ((if Config.verifies 7 t then
            ({ v with host := { v.host with patch := some t } }.put Reg.SEC.VERSION (field t 4 4)).finish r 0 0 0
            else (v.verifyFail 1 0 2).finish r stAUTH 0 0).keeping s)))) ∧
    (s.phase = .up → s.host.sillDown = true → exec (.configForm r va mode a dup b feeds) s = .next s) ∧
    (s.phase = .up → s.host.sillDown = false →
      (∀ st, s.formFails r va.toNat mode.toNat dup = some st →
        exec (.configForm r va mode a dup b feeds) s = .next ((s.pushDue r st 0 0 s.dev).keeping s)) ∧
      (s.formFails r va.toNat mode.toNat dup = none →
        let all := if mode.toNat = 0 then va.toNat ||| 2 ^ s.dev else va.toNat
        let missing := (devicesOf all).filter fun d => d ≠ s.dev && !(bitOf a.toNat d && (s.route d).isSome)
        let f : Forming := ⟨r, all, missing, b.toNat, s.ownFeeds feeds.toNat, s.now⟩
        let v := s.letWait r
        (missing ≠ [] → exec (.configForm r va mode a dup b feeds) s =
          .next ({ v with host := { v.host with forming := some f } }.keeping s)) ∧
        (missing = [] → mode.toNat = 0 →
          exec (.configForm r va mode a dup b feeds) s = .next ((v.beginForm f).keeping s)) ∧
        (missing = [] → mode.toNat ≠ 0 →
          exec (.configForm r va mode a dup b feeds) s = .next ((v.rejoin f).keeping s))))

/-! ### Rules of the whole machine -/

/-- The map of main memory (R252): the formula for window, channel and sector; each sector of main memory has a place of its
own; within a block every channel of the map receives exactly one granule; consecutive granules of a block go to
consecutive windows. -/
def Obligations.MapIsOneToOne : Prop :=
  ∀ s : State, s.get (Reg.WIN.MAP_W 0) = s.activeWins.length → s.activeWins ≠ [] →
    let w := s.activeWins.length
    let c := 40 * w
    let l := s.get (Reg.WIN.MAP_L 0)
    let key := s.get (Reg.WIN.HASH_KEY 0)
    (∀ pa, (pa >>> 8) / c < 2 ^ l →
      let b := (pa >>> 8) / c
      let x := b ^^^ key
      let f := (x ^^^ x >>> 16 ^^^ x >>> 32 ^^^ x >>> 48) &&& 0xFFFF
      let q := ((pa >>> 8) % c + f) % c
      s.locate pa = (s.activeWins.getD (q % w) 0, q / w, (q / w) <<< (l + 2) ||| b <<< 2 ||| pa >>> 6 &&& 3)) ∧
    (∀ x y, x / 256 / c < 2 ^ l → y / 256 / c < 2 ^ l → s.locate x = s.locate y → x / 64 = y / 64) ∧
    (∀ b j ch, j < w → ch < 40 →
      ∃ g, g / c = b ∧ (s.locate (256 * g)).1 = s.activeWins.getD j 0 ∧ (s.locate (256 * g)).2.1 = ch ∧
        ∀ g', g' / c = b → (s.locate (256 * g')).1 = s.activeWins.getD j 0 → (s.locate (256 * g')).2.1 = ch → g' = g) ∧
    (∀ g, g % c + 1 < c → ∃ j, j < w ∧ (s.locate (256 * g)).1 = s.activeWins.getD j 0 ∧
      (s.locate (256 * (g + 1))).1 = s.activeWins.getD ((j + 1) % w) 0)

/-- The injectivity check (R168): with the dimensions of size above 1 in an ascending order of the magnitude of their strides,
whichever, it passes exactly when every stride reaches the extent of those before it; a descriptor with no such dimension
passes, and one with such a dimension of stride 0 fails. -/
def Obligations.InjectivityCheckFollowsItsRule : Prop :=
  ∀ (d : TD) (l : List (Nat × Nat)),
    let dims := ((d.sizes.zip d.strides).filter fun e => decide (1 < e.1)).map fun e => (e.2.natAbs, e.1)
    (l.Perm dims → l.Pairwise (fun x y => x.1 ≤ y.1) →
      (d.injective = true ↔ ∀ j, ∀ h : j < l.length, 1 + ((l.take j).map fun e => e.1 * (e.2 - 1)).sum ≤ l[j].1)) ∧
    (dims = [] → d.injective = true) ∧
    (∀ n, (n, (0 : Int)) ∈ d.sizes.zip d.strides → 1 < n → d.injective = false)

/-- What the check is for (R168 to R170): two different elements of a descriptor that passes it never share a bit, so no
element that an instruction writes through it replaces another. -/
def Obligations.PassedDescriptorsNeverMeet : Prop :=
  ∀ (d : TD) (x y : List Nat), d.il = none → d.injective = true → d.sizes.length = d.strides.length →
    x.length = d.sizes.length → y.length = d.sizes.length →
    (∀ k, x.getD k 0 < d.size k) → (∀ k, y.getD k 0 < d.size k) →
    0 ≤ (d.base * 8 : Nat) + (d.wbits : Int) * offsetOf d.sizes d.strides x →
    0 ≤ (d.base * 8 : Nat) + (d.wbits : Int) * offsetOf d.sizes d.strides y → x ≠ y →
    d.bitAddr x + d.wbits ≤ d.bitAddr y ∨ d.bitAddr y + d.wbits ≤ d.bitAddr x

/-- A value that a type represents converts to that type as its own code, under every rounding mode, and counts nothing
(R57, R71, R78): no bit of a number format is dropped. -/
def Obligations.CodesSurviveConversion : Prop :=
  ∀ (t code : Nat) (r : Rnd), t ∈ valueTypes ++ [13] → code < 2 ^ typeBits t → decodeNum t code ≠ .nan →
    convert t r (decodeNum t code) = (code, Cnt.none)

/-- bsort's order (R134): the keys with their positions, in ascending or descending order, equal keys in the order of their
positions. -/
def Obligations.SortIsStable : Prop :=
  ∀ (desc : Bool) (l : List Int),
    let out := sortKeys desc l
    (out.map Prod.snd).Perm (List.range l.length) ∧ (∀ e ∈ out, l[e.2]? = some e.1) ∧
      out.Pairwise fun x y => (if desc then y.1 < x.1 else x.1 < y.1) ∨ (x.1 = y.1 ∧ x.2 < y.2)

/-- The lane generators (R75): a draw's steps, that no generator holds zero, what it holds after PERST#, and what it holds
where a state of zero is written. -/
def Obligations.GeneratorsAreNeverZero : Prop :=
  (∀ x : BitVec 64,
    let a := x ^^^ x <<< 13
    let b := a ^^^ a >>> 7
    let y := b ^^^ b <<< 17
    genNext x.toNat = y.toNat ∧ genDraw (genNext x.toNat) = ((y >>> 48) &&& 0xFFFF).toNat ∧
      (x ≠ 0 → genNext x.toNat ≠ 0)) ∧
  (∀ n l, n < 8 → l < 256 → State.reset.get (Reg.CORE.LANE_STATE n l) = 0x9E3779B97F4A7C15) ∧
  (∀ (c : CoreIx) (l : Fin 256) (s : State), s.phase = .up → s.present c.val = true → (s.core c.val).window = [] →
    ∃ t, exec (.generatorStateWrite c l 0 true) s = .next t ∧
      t.get (Reg.CORE.LANE_STATE c.val l.val) = 0x9E3779B97F4A7C15)

/-- How doors are cabled (R306, and the cabling of R307): which device, door and pair a link arrives at; the same cable seen
from its other end; three pairs of a door below 15 are one link; a packet leaves on a link that arrives at its device where
that link is up. -/
def Obligations.DoorsAreCabledInPairs : Prop :=
  ∀ (s u : State) (d k : Nat), d < 16 → k < 3 →
    let p := s.dev % 16
    let q := d + (if p ≤ d then 1 else 0)
    (d < 15 → s.peerOf d k = (s.dev / 16 * 16 + q, p - (if q < p then 1 else 0), 0) ∧
      s.linkUsable d k = s.linkUsable d 0) ∧
    s.peerOf 15 k = ((s.dev / 16 + k + 1) % 4 * 16 + p, 15, 2 - k) ∧
    ((s.peerOf d k).1 = u.dev →
      u.peerOf (s.peerOf d k).2.1 (s.peerOf d k).2.2 = (s.dev, d, if d = 15 then k else 0)) ∧
    (∀ dst, dst < 64 → (s.peerOf d k).1 = dst → s.linkUsable d k = true →
      ∃ e j, s.route dst = some (e, j) ∧ (s.peerOf e j).1 = dst)

/-- What a host write through the aperture stores (R454, R455), for data inside one sector whose page is in main memory or a
core store, while no write of another unit waits at a window (such a write would act first; log entry 8): its bytes at the
translated address, where no snapshot holds the write and the FE state does not drop it, and no other byte whatever happens. -/
def Obligations.StoresTouchOnlyTheirBytes : Prop :=
  ∀ (o : BitVec 35) (data : Bytes) (s u : State) (pa : Nat) (kill snap : Bool),
    let va := s.apertureVa o.toNat
    let job := s.get Reg.GEN.BAR4_JOB
    s.phase = .up → s.host.d3hot = false → s.apertureOn = true → o.toNat + data.length ≤ 2 ^ 32 → data ≠ [] →
    va % 64 + data.length ≤ 64 → (∀ w, ((s.win w).queue.any fun r => r.write && !r.applied) = false) →
    s.xlat 0x401 job va false true = (u, .ok pa kill snap) → inHost pa = false →
    ∃ t, exec (.bar4Write o data) s = .next t ∧
      (∀ a, a < pa ∨ pa + data.length ≤ a → t.byte a = s.byte a) ∧
      (snap = false → u.fe = false → ∀ i, ∀ h : i < data.length, t.byte (pa + i) = data[i])

/-- Commands that touch one unit only: the port's own commands change nothing but the port and the registers of GEN; an
instruction that only controls its core changes nothing of memory, the windows or another core, and no register outside
its core's block. -/
def Obligations.SmallCommandsTouchOneUnit : Prop :=
  ∀ (q : BitVec 16) (v : BitVec 64) (en : Bool) (c : CoreIx) (r : Instr) (i : Insn) (s t : State),
    ((r = .doorbellSqTail q v ∨ r = .doorbellCqHead q v ∨ r = .ring0CtlWrite v ∨ r = .entryPickup ∨ r = .d3hot en) →
      exec r s = .next t →
      t = { s with host := t.host, regs := t.regs } ∧ ∀ f : Fld, 0x8000 * 64 ≤ f.key → t.get f = s.get f) ∧
    ((r = .nop c ∧ s.goes c.val 0x00 i ∨ r = .endInstr c ∧ s.goes c.val 0x01 i ∨ r = .sync c ∧ s.goes c.val 0x04 i ∨
        r = .cnt c ∧ s.goes c.val 0x03 i ∨ r = .dmod c ∧ s.goes c.val 0x09 i ∧ i.mod 35 34 = 0 ∧
          1 ≤ (parseTD i.dA).rank ∧ (parseTD i.dA).rank ≤ 6 ∧ (∃ b : Nat, b < 2 ^ 57 ∧ (b : Int) = (bitsOf i.dA.toNat 56 0 : Int) + 64 * signed 34 (i.mod 33 0)) ∨
        r = .slotset c ∧ s.goes c.val 0x0B i ∧ i.mod 31 30 = 3) →
      exec r s = .next t →
      t = { s with cores := t.cores, regs := t.regs } ∧ (∀ m, m ≠ c.val → t.core m = s.core m) ∧
        ∀ f : Fld, (f.key < (0x100000 + 0x20000 * c.val) * 64 ∨ (0x120000 + 0x20000 * c.val) * 64 ≤ f.key) →
          t.get f = s.get f)
end

