-- ==== Sys2Proof/Laws/Sparse.lean ====
section
/-!
SUPPORT. Laws/Sparse.lean: what reading, writing and the canonical form of a sparse list come to.
-/

namespace Sys2Proof.Machine

theorem sparseGet_filter_ne {α : Type} (d : α) (k j : Nat) (l : List (Nat × α)) (h : j ≠ k) :
    sparseGet d j (l.filter fun e => decide (e.1 ≠ k)) = sparseGet d j l := by
  induction l with
  | nil => rfl
  | cons e r ih =>
    obtain ⟨a, v⟩ := e
    by_cases ha : a = k
    · subst ha; simp [sparseGet, Ne.symm h] at ih ⊢; exact ih
    · by_cases hj : a = j
      · subst hj; simp [sparseGet, ha]
      · simp [sparseGet, ha, hj] at ih ⊢; exact ih

theorem sparseGet_filter_self {α : Type} (d : α) (k : Nat) (l : List (Nat × α)) :
    sparseGet d k (l.filter fun e => decide (e.1 ≠ k)) = d := by
  induction l with
  | nil => rfl
  | cons e r ih =>
    obtain ⟨a, v⟩ := e
    by_cases ha : a = k
    · subst ha; simpa using ih
    · simp [sparseGet, ha] at ih ⊢; exact ih

theorem sparseGet_insert_self {α : Type} (d : α) (k : Nat) (v : α) (l : List (Nat × α))
    (hk : ∀ e ∈ l, e.1 ≠ k) : sparseGet d k (sparseInsert k v l) = v := by
  induction l with
  | nil => simp [sparseInsert, sparseGet]
  | cons e r ih =>
    obtain ⟨a, w⟩ := e
    have ha : a ≠ k := hk (a, w) (by simp)
    by_cases hlt : k < a
    · simp [sparseInsert, sparseGet, hlt]
    · simp [sparseInsert, sparseGet, hlt, ha]
      exact ih fun e he => hk e (by simp [he])

theorem sparseGet_insert_ne {α : Type} (d : α) (k j : Nat) (v : α) (l : List (Nat × α)) (h : j ≠ k) :
    sparseGet d j (sparseInsert k v l) = sparseGet d j l := by
  induction l with
  | nil => simp [sparseInsert, sparseGet, Ne.symm h]
  | cons e r ih =>
    obtain ⟨a, w⟩ := e
    by_cases hlt : k < a
    · simp [sparseInsert, sparseGet, hlt, Ne.symm h]
    · simp [sparseInsert, sparseGet, hlt, ih]

/-- What is read at the key that was written. -/
theorem sparseGet_set_self {α : Type} [DecidableEq α] (d : α) (k : Nat) (v : α) (l : List (Nat × α)) :
    sparseGet d k (sparseSet d k v l) = v := by
  unfold sparseSet
  split
  · rename_i h; rw [sparseGet_filter_self, h]
  · apply sparseGet_insert_self
    intro e he; simpa using (List.mem_filter.mp he).2

/-- What is read at any other key. -/
theorem sparseGet_set_ne {α : Type} [DecidableEq α] (d d' : α) (k j : Nat) (v : α) (l : List (Nat × α)) (h : j ≠ k) :
    sparseGet d j (sparseSet d' k v l) = sparseGet d j l := by
  unfold sparseSet
  split
  · exact sparseGet_filter_ne d k j l h
  · rw [sparseGet_insert_ne d k j v _ h, sparseGet_filter_ne d k j l h]

/-- The canonical form, as rising keys and no listed default. -/
theorem sparseWf_iff {α : Type} [DecidableEq α] (d : α) (l : List (Nat × α)) :
    sparseWf d l = true ↔ (l.Pairwise fun a b => a.1 < b.1) ∧ ∀ e ∈ l, e.2 ≠ d := by
  induction l with
  | nil => simp [sparseWf]
  | cons e r ih =>
    obtain ⟨a, v⟩ := e
    cases r with
    | nil => simp [sparseWf]
    | cons e' r' =>
      obtain ⟨b, w⟩ := e'
      simp only [sparseWf, Bool.and_eq_true, decide_eq_true_eq, ih]
      constructor
      · rintro ⟨⟨hv, hab⟩, hp, hd⟩
        refine ⟨List.pairwise_cons.mpr ⟨?_, hp⟩, ?_⟩
        · intro e he
          rcases List.mem_cons.mp he with rfl | he
          · exact hab
          · exact lt_trans hab ((List.pairwise_cons.mp hp).1 e he)
        · intro e he
          rcases List.mem_cons.mp he with rfl | he
          · exact hv
          · exact hd e he
      · rintro ⟨hp, hd⟩
        obtain ⟨h1, h2⟩ := List.pairwise_cons.mp hp
        exact ⟨⟨hd (a, v) (by simp), h1 (b, w) (by simp)⟩, h2, fun e he => hd e (List.mem_cons_of_mem _ he)⟩

theorem mem_sparseInsert {α : Type} (k : Nat) (v : α) (l : List (Nat × α)) (e : Nat × α) :
    e ∈ sparseInsert k v l ↔ e = (k, v) ∨ e ∈ l := by
  induction l with
  | nil => simp [sparseInsert]
  | cons x r ih =>
    obtain ⟨a, w⟩ := x
    by_cases h : k < a
    · simp [sparseInsert, h]
    · simp only [sparseInsert, h, if_false, List.mem_cons, ih]; tauto

theorem sparseInsert_rising {α : Type} (k : Nat) (v : α) (l : List (Nat × α)) (h : l.Pairwise fun a b => a.1 < b.1)
    (hk : ∀ e ∈ l, e.1 ≠ k) : (sparseInsert k v l).Pairwise fun a b => a.1 < b.1 := by
  induction l with
  | nil => simp [sparseInsert]
  | cons x r ih =>
    obtain ⟨a, w⟩ := x
    obtain ⟨h1, h2⟩ := List.pairwise_cons.mp h
    have hak : a ≠ k := hk (a, w) (by simp)
    by_cases hlt : k < a
    · simp only [sparseInsert, hlt, if_true]
      refine List.pairwise_cons.mpr ⟨fun e he => ?_, h⟩
      rcases List.mem_cons.mp he with rfl | he
      · exact hlt
      · exact lt_trans hlt (h1 e he)
    · simp only [sparseInsert, hlt, if_false]
      refine List.pairwise_cons.mpr ⟨fun e he => ?_, ih h2 fun e he => hk e (by simp [he])⟩
      rcases (mem_sparseInsert k v r e).mp he with rfl | he
      · exact lt_of_le_of_ne (not_lt.mp hlt) hak
      · exact h1 e he

/-- Removing entries keeps the canonical form. -/
theorem sparseWf_filter {α : Type} [DecidableEq α] (d : α) (p : Nat × α → Bool) (l : List (Nat × α))
    (h : sparseWf d l = true) : sparseWf d (l.filter p) = true := by
  rw [sparseWf_iff] at h ⊢
  exact ⟨h.1.filter p, fun e he => h.2 e (List.mem_filter.mp he).1⟩

/-- A write keeps the canonical form. -/
theorem sparseWf_set {α : Type} [DecidableEq α] (d : α) (k : Nat) (v : α) (l : List (Nat × α))
    (h : sparseWf d l = true) : sparseWf d (sparseSet d k v l) = true := by
  unfold sparseSet
  split
  · exact sparseWf_filter d _ l h
  · rename_i hv
    have hf := sparseWf_filter d (fun e => decide (e.1 ≠ k)) l h
    rw [sparseWf_iff] at hf ⊢
    refine ⟨sparseInsert_rising k v _ hf.1 fun e he => by simpa using (List.mem_filter.mp he).2, fun e he => ?_⟩
    rcases (mem_sparseInsert k v _ e).mp he with rfl | he
    · exact hv
    · exact hf.2 e he

end Sys2Proof.Machine
end

