-- ==== Sys2Proof/Laws/State.lean ====
section
/-!
SUPPORT. Laws/State.lean: what an update of one field leaves of the others; reading a register after writing one; what no
command but the resets changes.
-/

namespace Sys2Proof.Machine

/-! ### put -/
@[simp] theorem State.put_phase (s : State) (f : Fld) (v : Nat) : (s.put f v).phase = s.phase := rfl
@[simp] theorem State.put_kept (s : State) (f : Fld) (v : Nat) : (s.put f v).kept = s.kept := rfl
@[simp] theorem State.put_mem (s : State) (f : Fld) (v : Nat) : (s.put f v).mem = s.mem := rfl
@[simp] theorem State.put_poison (s : State) (f : Fld) (v : Nat) : (s.put f v).poison = s.poison := rfl
@[simp] theorem State.put_cores (s : State) (f : Fld) (v : Nat) : (s.put f v).cores = s.cores := rfl
@[simp] theorem State.put_net (s : State) (f : Fld) (v : Nat) : (s.put f v).net = s.net := rfl
@[simp] theorem State.put_slices (s : State) (f : Fld) (v : Nat) : (s.put f v).slices = s.slices := rfl
@[simp] theorem State.put_inval (s : State) (f : Fld) (v : Nat) : (s.put f v).inval = s.inval := rfl
@[simp] theorem State.put_later (s : State) (f : Fld) (v : Nat) : (s.put f v).later = s.later := rfl
@[simp] theorem State.put_links (s : State) (f : Fld) (v : Nat) : (s.put f v).links = s.links := rfl
@[simp] theorem State.put_wins (s : State) (f : Fld) (v : Nat) : (s.put f v).wins = s.wins := rfl
@[simp] theorem State.put_contexts (s : State) (f : Fld) (v : Nat) : (s.put f v).contexts = s.contexts := rfl
@[simp] theorem State.put_runs (s : State) (f : Fld) (v : Nat) : (s.put f v).runs = s.runs := rfl
@[simp] theorem State.put_runOrder (s : State) (f : Fld) (v : Nat) : (s.put f v).runOrder = s.runOrder := rfl
@[simp] theorem State.put_doors (s : State) (f : Fld) (v : Nat) : (s.put f v).doors = s.doors := rfl
@[simp] theorem State.put_batches (s : State) (f : Fld) (v : Nat) : (s.put f v).batches = s.batches := rfl
@[simp] theorem State.put_agate (s : State) (f : Fld) (v : Nat) : (s.put f v).agate = s.agate := rfl
@[simp] theorem State.put_snap (s : State) (f : Fld) (v : Nat) : (s.put f v).snap = s.snap := rfl
@[simp] theorem State.put_host (s : State) (f : Fld) (v : Nat) : (s.put f v).host = s.host := rfl
@[simp] theorem State.put_checks (s : State) (f : Fld) (v : Nat) : (s.put f v).checks = s.checks := rfl
@[simp] theorem State.put_sec (s : State) (f : Fld) (v : Nat) : (s.put f v).sec = s.sec := rfl
@[simp] theorem State.put_pwr (s : State) (f : Fld) (v : Nat) : (s.put f v).pwr = s.pwr := rfl
@[simp] theorem State.put_freeCtr (s : State) (f : Fld) (v : Nat) : (s.put f v).freeCtr = s.freeCtr := rfl
@[simp] theorem State.put_pending (s : State) (f : Fld) (v : Nat) : (s.put f v).pending = s.pending := rfl

/-! ### inc -/

@[simp] theorem State.inc_phase (s : State) (f : Fld) (n : Nat) : (s.inc f n).phase = s.phase := rfl
@[simp] theorem State.inc_kept (s : State) (f : Fld) (n : Nat) : (s.inc f n).kept = s.kept := rfl
@[simp] theorem State.inc_mem (s : State) (f : Fld) (n : Nat) : (s.inc f n).mem = s.mem := rfl
@[simp] theorem State.inc_poison (s : State) (f : Fld) (n : Nat) : (s.inc f n).poison = s.poison := rfl
@[simp] theorem State.inc_cores (s : State) (f : Fld) (n : Nat) : (s.inc f n).cores = s.cores := rfl
@[simp] theorem State.inc_net (s : State) (f : Fld) (n : Nat) : (s.inc f n).net = s.net := rfl
@[simp] theorem State.inc_slices (s : State) (f : Fld) (n : Nat) : (s.inc f n).slices = s.slices := rfl
@[simp] theorem State.inc_inval (s : State) (f : Fld) (n : Nat) : (s.inc f n).inval = s.inval := rfl
@[simp] theorem State.inc_later (s : State) (f : Fld) (n : Nat) : (s.inc f n).later = s.later := rfl
@[simp] theorem State.inc_links (s : State) (f : Fld) (n : Nat) : (s.inc f n).links = s.links := rfl
@[simp] theorem State.inc_wins (s : State) (f : Fld) (n : Nat) : (s.inc f n).wins = s.wins := rfl
@[simp] theorem State.inc_contexts (s : State) (f : Fld) (n : Nat) : (s.inc f n).contexts = s.contexts := rfl
@[simp] theorem State.inc_runs (s : State) (f : Fld) (n : Nat) : (s.inc f n).runs = s.runs := rfl
@[simp] theorem State.inc_runOrder (s : State) (f : Fld) (n : Nat) : (s.inc f n).runOrder = s.runOrder := rfl
@[simp] theorem State.inc_doors (s : State) (f : Fld) (n : Nat) : (s.inc f n).doors = s.doors := rfl
@[simp] theorem State.inc_batches (s : State) (f : Fld) (n : Nat) : (s.inc f n).batches = s.batches := rfl
@[simp] theorem State.inc_agate (s : State) (f : Fld) (n : Nat) : (s.inc f n).agate = s.agate := rfl
@[simp] theorem State.inc_snap (s : State) (f : Fld) (n : Nat) : (s.inc f n).snap = s.snap := rfl
@[simp] theorem State.inc_host (s : State) (f : Fld) (n : Nat) : (s.inc f n).host = s.host := rfl
@[simp] theorem State.inc_checks (s : State) (f : Fld) (n : Nat) : (s.inc f n).checks = s.checks := rfl
@[simp] theorem State.inc_sec (s : State) (f : Fld) (n : Nat) : (s.inc f n).sec = s.sec := rfl
@[simp] theorem State.inc_pwr (s : State) (f : Fld) (n : Nat) : (s.inc f n).pwr = s.pwr := rfl
@[simp] theorem State.inc_freeCtr (s : State) (f : Fld) (n : Nat) : (s.inc f n).freeCtr = s.freeCtr := rfl
@[simp] theorem State.inc_pending (s : State) (f : Fld) (n : Nat) : (s.inc f n).pending = s.pending := rfl

/-! ### setCore, setWin, setCtx, setByte, draw -/

@[simp] theorem State.setCore_phase (s : State) (n : Nat) (c : CoreSt) : (s.setCore n c).phase = s.phase := rfl
@[simp] theorem State.setCore_kept (s : State) (n : Nat) (c : CoreSt) : (s.setCore n c).kept = s.kept := rfl
@[simp] theorem State.setCore_regs (s : State) (n : Nat) (c : CoreSt) : (s.setCore n c).regs = s.regs := rfl
@[simp] theorem State.setCore_mem (s : State) (n : Nat) (c : CoreSt) : (s.setCore n c).mem = s.mem := rfl
@[simp] theorem State.setCore_poison (s : State) (n : Nat) (c : CoreSt) : (s.setCore n c).poison = s.poison := rfl
@[simp] theorem State.setCore_net (s : State) (n : Nat) (c : CoreSt) : (s.setCore n c).net = s.net := rfl
@[simp] theorem State.setCore_slices (s : State) (n : Nat) (c : CoreSt) : (s.setCore n c).slices = s.slices := rfl
@[simp] theorem State.setCore_inval (s : State) (n : Nat) (c : CoreSt) : (s.setCore n c).inval = s.inval := rfl
@[simp] theorem State.setCore_later (s : State) (n : Nat) (c : CoreSt) : (s.setCore n c).later = s.later := rfl
@[simp] theorem State.setCore_links (s : State) (n : Nat) (c : CoreSt) : (s.setCore n c).links = s.links := rfl
@[simp] theorem State.setCore_wins (s : State) (n : Nat) (c : CoreSt) : (s.setCore n c).wins = s.wins := rfl
@[simp] theorem State.setCore_contexts (s : State) (n : Nat) (c : CoreSt) : (s.setCore n c).contexts = s.contexts := rfl
@[simp] theorem State.setCore_runs (s : State) (n : Nat) (c : CoreSt) : (s.setCore n c).runs = s.runs := rfl
@[simp] theorem State.setCore_runOrder (s : State) (n : Nat) (c : CoreSt) : (s.setCore n c).runOrder = s.runOrder := rfl
@[simp] theorem State.setCore_doors (s : State) (n : Nat) (c : CoreSt) : (s.setCore n c).doors = s.doors := rfl
@[simp] theorem State.setCore_batches (s : State) (n : Nat) (c : CoreSt) : (s.setCore n c).batches = s.batches := rfl
@[simp] theorem State.setCore_agate (s : State) (n : Nat) (c : CoreSt) : (s.setCore n c).agate = s.agate := rfl
@[simp] theorem State.setCore_snap (s : State) (n : Nat) (c : CoreSt) : (s.setCore n c).snap = s.snap := rfl
@[simp] theorem State.setCore_host (s : State) (n : Nat) (c : CoreSt) : (s.setCore n c).host = s.host := rfl
@[simp] theorem State.setCore_checks (s : State) (n : Nat) (c : CoreSt) : (s.setCore n c).checks = s.checks := rfl
@[simp] theorem State.setCore_sec (s : State) (n : Nat) (c : CoreSt) : (s.setCore n c).sec = s.sec := rfl
@[simp] theorem State.setCore_pwr (s : State) (n : Nat) (c : CoreSt) : (s.setCore n c).pwr = s.pwr := rfl
@[simp] theorem State.setCore_freeCtr (s : State) (n : Nat) (c : CoreSt) : (s.setCore n c).freeCtr = s.freeCtr := rfl
@[simp] theorem State.setCore_pending (s : State) (n : Nat) (c : CoreSt) : (s.setCore n c).pending = s.pending := rfl
@[simp] theorem State.setWin_phase (s : State) (n : Nat) (x : WinSt) : (s.setWin n x).phase = s.phase := rfl
@[simp] theorem State.setWin_kept (s : State) (n : Nat) (x : WinSt) : (s.setWin n x).kept = s.kept := rfl
@[simp] theorem State.setWin_regs (s : State) (n : Nat) (x : WinSt) : (s.setWin n x).regs = s.regs := rfl
@[simp] theorem State.setWin_mem (s : State) (n : Nat) (x : WinSt) : (s.setWin n x).mem = s.mem := rfl
@[simp] theorem State.setWin_poison (s : State) (n : Nat) (x : WinSt) : (s.setWin n x).poison = s.poison := rfl
@[simp] theorem State.setWin_cores (s : State) (n : Nat) (x : WinSt) : (s.setWin n x).cores = s.cores := rfl
@[simp] theorem State.setWin_net (s : State) (n : Nat) (x : WinSt) : (s.setWin n x).net = s.net := rfl
@[simp] theorem State.setWin_slices (s : State) (n : Nat) (x : WinSt) : (s.setWin n x).slices = s.slices := rfl
@[simp] theorem State.setWin_inval (s : State) (n : Nat) (x : WinSt) : (s.setWin n x).inval = s.inval := rfl
@[simp] theorem State.setWin_later (s : State) (n : Nat) (x : WinSt) : (s.setWin n x).later = s.later := rfl
@[simp] theorem State.setWin_links (s : State) (n : Nat) (x : WinSt) : (s.setWin n x).links = s.links := rfl
@[simp] theorem State.setWin_contexts (s : State) (n : Nat) (x : WinSt) : (s.setWin n x).contexts = s.contexts := rfl
@[simp] theorem State.setWin_runs (s : State) (n : Nat) (x : WinSt) : (s.setWin n x).runs = s.runs := rfl
@[simp] theorem State.setWin_runOrder (s : State) (n : Nat) (x : WinSt) : (s.setWin n x).runOrder = s.runOrder := rfl
@[simp] theorem State.setWin_doors (s : State) (n : Nat) (x : WinSt) : (s.setWin n x).doors = s.doors := rfl
@[simp] theorem State.setWin_batches (s : State) (n : Nat) (x : WinSt) : (s.setWin n x).batches = s.batches := rfl
@[simp] theorem State.setWin_agate (s : State) (n : Nat) (x : WinSt) : (s.setWin n x).agate = s.agate := rfl
@[simp] theorem State.setWin_snap (s : State) (n : Nat) (x : WinSt) : (s.setWin n x).snap = s.snap := rfl
@[simp] theorem State.setWin_host (s : State) (n : Nat) (x : WinSt) : (s.setWin n x).host = s.host := rfl
@[simp] theorem State.setWin_checks (s : State) (n : Nat) (x : WinSt) : (s.setWin n x).checks = s.checks := rfl
@[simp] theorem State.setWin_sec (s : State) (n : Nat) (x : WinSt) : (s.setWin n x).sec = s.sec := rfl
@[simp] theorem State.setWin_pwr (s : State) (n : Nat) (x : WinSt) : (s.setWin n x).pwr = s.pwr := rfl
@[simp] theorem State.setWin_freeCtr (s : State) (n : Nat) (x : WinSt) : (s.setWin n x).freeCtr = s.freeCtr := rfl
@[simp] theorem State.setWin_pending (s : State) (n : Nat) (x : WinSt) : (s.setWin n x).pending = s.pending := rfl
@[simp] theorem State.setCtx_phase (s : State) (m ch k v : Nat) : (s.setCtx m ch k v).phase = s.phase := rfl
@[simp] theorem State.setCtx_kept (s : State) (m ch k v : Nat) : (s.setCtx m ch k v).kept = s.kept := rfl
@[simp] theorem State.setCtx_regs (s : State) (m ch k v : Nat) : (s.setCtx m ch k v).regs = s.regs := rfl
@[simp] theorem State.setCtx_mem (s : State) (m ch k v : Nat) : (s.setCtx m ch k v).mem = s.mem := rfl
@[simp] theorem State.setCtx_poison (s : State) (m ch k v : Nat) : (s.setCtx m ch k v).poison = s.poison := rfl
@[simp] theorem State.setCtx_cores (s : State) (m ch k v : Nat) : (s.setCtx m ch k v).cores = s.cores := rfl
@[simp] theorem State.setCtx_net (s : State) (m ch k v : Nat) : (s.setCtx m ch k v).net = s.net := rfl
@[simp] theorem State.setCtx_slices (s : State) (m ch k v : Nat) : (s.setCtx m ch k v).slices = s.slices := rfl
@[simp] theorem State.setCtx_inval (s : State) (m ch k v : Nat) : (s.setCtx m ch k v).inval = s.inval := rfl
@[simp] theorem State.setCtx_later (s : State) (m ch k v : Nat) : (s.setCtx m ch k v).later = s.later := rfl
@[simp] theorem State.setCtx_links (s : State) (m ch k v : Nat) : (s.setCtx m ch k v).links = s.links := rfl
@[simp] theorem State.setCtx_wins (s : State) (m ch k v : Nat) : (s.setCtx m ch k v).wins = s.wins := rfl
@[simp] theorem State.setCtx_runs (s : State) (m ch k v : Nat) : (s.setCtx m ch k v).runs = s.runs := rfl
@[simp] theorem State.setCtx_runOrder (s : State) (m ch k v : Nat) : (s.setCtx m ch k v).runOrder = s.runOrder := rfl
@[simp] theorem State.setCtx_doors (s : State) (m ch k v : Nat) : (s.setCtx m ch k v).doors = s.doors := rfl
@[simp] theorem State.setCtx_batches (s : State) (m ch k v : Nat) : (s.setCtx m ch k v).batches = s.batches := rfl
@[simp] theorem State.setCtx_agate (s : State) (m ch k v : Nat) : (s.setCtx m ch k v).agate = s.agate := rfl
@[simp] theorem State.setCtx_snap (s : State) (m ch k v : Nat) : (s.setCtx m ch k v).snap = s.snap := rfl
@[simp] theorem State.setCtx_host (s : State) (m ch k v : Nat) : (s.setCtx m ch k v).host = s.host := rfl
@[simp] theorem State.setCtx_checks (s : State) (m ch k v : Nat) : (s.setCtx m ch k v).checks = s.checks := rfl
@[simp] theorem State.setCtx_sec (s : State) (m ch k v : Nat) : (s.setCtx m ch k v).sec = s.sec := rfl
@[simp] theorem State.setCtx_pwr (s : State) (m ch k v : Nat) : (s.setCtx m ch k v).pwr = s.pwr := rfl
@[simp] theorem State.setCtx_freeCtr (s : State) (m ch k v : Nat) : (s.setCtx m ch k v).freeCtr = s.freeCtr := rfl
@[simp] theorem State.setCtx_pending (s : State) (m ch k v : Nat) : (s.setCtx m ch k v).pending = s.pending := rfl
@[simp] theorem State.setByte_phase (s : State) (pa : Nat) (b : Byte) : (s.setByte pa b).phase = s.phase := rfl
@[simp] theorem State.setByte_kept (s : State) (pa : Nat) (b : Byte) : (s.setByte pa b).kept = s.kept := rfl
@[simp] theorem State.setByte_regs (s : State) (pa : Nat) (b : Byte) : (s.setByte pa b).regs = s.regs := rfl
@[simp] theorem State.setByte_poison (s : State) (pa : Nat) (b : Byte) : (s.setByte pa b).poison = s.poison := rfl
@[simp] theorem State.setByte_cores (s : State) (pa : Nat) (b : Byte) : (s.setByte pa b).cores = s.cores := rfl
@[simp] theorem State.setByte_net (s : State) (pa : Nat) (b : Byte) : (s.setByte pa b).net = s.net := rfl
@[simp] theorem State.setByte_slices (s : State) (pa : Nat) (b : Byte) : (s.setByte pa b).slices = s.slices := rfl
@[simp] theorem State.setByte_inval (s : State) (pa : Nat) (b : Byte) : (s.setByte pa b).inval = s.inval := rfl
@[simp] theorem State.setByte_later (s : State) (pa : Nat) (b : Byte) : (s.setByte pa b).later = s.later := rfl
@[simp] theorem State.setByte_links (s : State) (pa : Nat) (b : Byte) : (s.setByte pa b).links = s.links := rfl
@[simp] theorem State.setByte_wins (s : State) (pa : Nat) (b : Byte) : (s.setByte pa b).wins = s.wins := rfl
@[simp] theorem State.setByte_contexts (s : State) (pa : Nat) (b : Byte) : (s.setByte pa b).contexts = s.contexts := rfl
@[simp] theorem State.setByte_runs (s : State) (pa : Nat) (b : Byte) : (s.setByte pa b).runs = s.runs := rfl
@[simp] theorem State.setByte_runOrder (s : State) (pa : Nat) (b : Byte) : (s.setByte pa b).runOrder = s.runOrder := rfl
@[simp] theorem State.setByte_doors (s : State) (pa : Nat) (b : Byte) : (s.setByte pa b).doors = s.doors := rfl
@[simp] theorem State.setByte_batches (s : State) (pa : Nat) (b : Byte) : (s.setByte pa b).batches = s.batches := rfl
@[simp] theorem State.setByte_agate (s : State) (pa : Nat) (b : Byte) : (s.setByte pa b).agate = s.agate := rfl
@[simp] theorem State.setByte_snap (s : State) (pa : Nat) (b : Byte) : (s.setByte pa b).snap = s.snap := rfl
@[simp] theorem State.setByte_host (s : State) (pa : Nat) (b : Byte) : (s.setByte pa b).host = s.host := rfl
@[simp] theorem State.setByte_checks (s : State) (pa : Nat) (b : Byte) : (s.setByte pa b).checks = s.checks := rfl
@[simp] theorem State.setByte_sec (s : State) (pa : Nat) (b : Byte) : (s.setByte pa b).sec = s.sec := rfl
@[simp] theorem State.setByte_pwr (s : State) (pa : Nat) (b : Byte) : (s.setByte pa b).pwr = s.pwr := rfl
@[simp] theorem State.setByte_freeCtr (s : State) (pa : Nat) (b : Byte) : (s.setByte pa b).freeCtr = s.freeCtr := rfl
@[simp] theorem State.setByte_pending (s : State) (pa : Nat) (b : Byte) : (s.setByte pa b).pending = s.pending := rfl
@[simp] theorem State.draw_phase (s : State) : (s.draw).phase = s.phase := rfl
@[simp] theorem State.draw_kept (s : State) : (s.draw).kept = s.kept := rfl
@[simp] theorem State.draw_regs (s : State) : (s.draw).regs = s.regs := rfl
@[simp] theorem State.draw_mem (s : State) : (s.draw).mem = s.mem := rfl
@[simp] theorem State.draw_poison (s : State) : (s.draw).poison = s.poison := rfl
@[simp] theorem State.draw_cores (s : State) : (s.draw).cores = s.cores := rfl
@[simp] theorem State.draw_net (s : State) : (s.draw).net = s.net := rfl
@[simp] theorem State.draw_slices (s : State) : (s.draw).slices = s.slices := rfl
@[simp] theorem State.draw_inval (s : State) : (s.draw).inval = s.inval := rfl
@[simp] theorem State.draw_later (s : State) : (s.draw).later = s.later := rfl
@[simp] theorem State.draw_links (s : State) : (s.draw).links = s.links := rfl
@[simp] theorem State.draw_wins (s : State) : (s.draw).wins = s.wins := rfl
@[simp] theorem State.draw_contexts (s : State) : (s.draw).contexts = s.contexts := rfl
@[simp] theorem State.draw_runs (s : State) : (s.draw).runs = s.runs := rfl
@[simp] theorem State.draw_runOrder (s : State) : (s.draw).runOrder = s.runOrder := rfl
@[simp] theorem State.draw_doors (s : State) : (s.draw).doors = s.doors := rfl
@[simp] theorem State.draw_batches (s : State) : (s.draw).batches = s.batches := rfl
@[simp] theorem State.draw_agate (s : State) : (s.draw).agate = s.agate := rfl
@[simp] theorem State.draw_snap (s : State) : (s.draw).snap = s.snap := rfl
@[simp] theorem State.draw_host (s : State) : (s.draw).host = s.host := rfl
@[simp] theorem State.draw_checks (s : State) : (s.draw).checks = s.checks := rfl
@[simp] theorem State.draw_sec (s : State) : (s.draw).sec = s.sec := rfl
@[simp] theorem State.draw_pwr (s : State) : (s.draw).pwr = s.pwr := rfl
@[simp] theorem State.draw_pending (s : State) : (s.draw).pending = s.pending := rfl

/-! ### setLink -/

@[simp] theorem State.setLink_phase (s : State) (n : Nat) (x : LinkSt) : (s.setLink n x).phase = s.phase := rfl
@[simp] theorem State.setLink_kept (s : State) (n : Nat) (x : LinkSt) : (s.setLink n x).kept = s.kept := rfl
@[simp] theorem State.setLink_regs (s : State) (n : Nat) (x : LinkSt) : (s.setLink n x).regs = s.regs := rfl
@[simp] theorem State.setLink_mem (s : State) (n : Nat) (x : LinkSt) : (s.setLink n x).mem = s.mem := rfl
@[simp] theorem State.setLink_poison (s : State) (n : Nat) (x : LinkSt) : (s.setLink n x).poison = s.poison := rfl
@[simp] theorem State.setLink_cores (s : State) (n : Nat) (x : LinkSt) : (s.setLink n x).cores = s.cores := rfl
@[simp] theorem State.setLink_net (s : State) (n : Nat) (x : LinkSt) : (s.setLink n x).net = s.net := rfl
@[simp] theorem State.setLink_slices (s : State) (n : Nat) (x : LinkSt) : (s.setLink n x).slices = s.slices := rfl
@[simp] theorem State.setLink_inval (s : State) (n : Nat) (x : LinkSt) : (s.setLink n x).inval = s.inval := rfl
@[simp] theorem State.setLink_wins (s : State) (n : Nat) (x : LinkSt) : (s.setLink n x).wins = s.wins := rfl
@[simp] theorem State.setLink_later (s : State) (n : Nat) (x : LinkSt) : (s.setLink n x).later = s.later := rfl
@[simp] theorem State.setLink_contexts (s : State) (n : Nat) (x : LinkSt) : (s.setLink n x).contexts = s.contexts := rfl
@[simp] theorem State.setLink_runs (s : State) (n : Nat) (x : LinkSt) : (s.setLink n x).runs = s.runs := rfl
@[simp] theorem State.setLink_runOrder (s : State) (n : Nat) (x : LinkSt) : (s.setLink n x).runOrder = s.runOrder := rfl
@[simp] theorem State.setLink_doors (s : State) (n : Nat) (x : LinkSt) : (s.setLink n x).doors = s.doors := rfl
@[simp] theorem State.setLink_batches (s : State) (n : Nat) (x : LinkSt) : (s.setLink n x).batches = s.batches := rfl
@[simp] theorem State.setLink_agate (s : State) (n : Nat) (x : LinkSt) : (s.setLink n x).agate = s.agate := rfl
@[simp] theorem State.setLink_snap (s : State) (n : Nat) (x : LinkSt) : (s.setLink n x).snap = s.snap := rfl
@[simp] theorem State.setLink_host (s : State) (n : Nat) (x : LinkSt) : (s.setLink n x).host = s.host := rfl
@[simp] theorem State.setLink_checks (s : State) (n : Nat) (x : LinkSt) : (s.setLink n x).checks = s.checks := rfl
@[simp] theorem State.setLink_sec (s : State) (n : Nat) (x : LinkSt) : (s.setLink n x).sec = s.sec := rfl
@[simp] theorem State.setLink_pwr (s : State) (n : Nat) (x : LinkSt) : (s.setLink n x).pwr = s.pwr := rfl
@[simp] theorem State.setLink_freeCtr (s : State) (n : Nat) (x : LinkSt) : (s.setLink n x).freeCtr = s.freeCtr := rfl
@[simp] theorem State.setLink_pending (s : State) (n : Nat) (x : LinkSt) : (s.setLink n x).pending = s.pending := rfl

/-! ### keeping -/

@[simp] theorem State.keeping_phase (t s : State) : (t.keeping s).phase = s.phase := rfl
@[simp] theorem State.keeping_pending (t s : State) : (t.keeping s).pending = s.pending := rfl
@[simp] theorem State.keeping_kept (t s : State) : (t.keeping s).kept = t.kept := rfl
@[simp] theorem State.keeping_regs (t s : State) : (t.keeping s).regs = t.regs := rfl
@[simp] theorem State.keeping_mem (t s : State) : (t.keeping s).mem = t.mem := rfl
@[simp] theorem State.keeping_poison (t s : State) : (t.keeping s).poison = t.poison := rfl
@[simp] theorem State.keeping_cores (t s : State) : (t.keeping s).cores = t.cores := rfl
@[simp] theorem State.keeping_net (t s : State) : (t.keeping s).net = t.net := rfl
@[simp] theorem State.keeping_slices (t s : State) : (t.keeping s).slices = t.slices := rfl
@[simp] theorem State.keeping_inval (t s : State) : (t.keeping s).inval = t.inval := rfl
@[simp] theorem State.keeping_later (t s : State) : (t.keeping s).later = t.later := rfl
@[simp] theorem State.keeping_links (t s : State) : (t.keeping s).links = t.links := rfl
@[simp] theorem State.keeping_wins (t s : State) : (t.keeping s).wins = t.wins := rfl
@[simp] theorem State.keeping_contexts (t s : State) : (t.keeping s).contexts = t.contexts := rfl
@[simp] theorem State.keeping_runs (t s : State) : (t.keeping s).runs = t.runs := rfl
@[simp] theorem State.keeping_runOrder (t s : State) : (t.keeping s).runOrder = t.runOrder := rfl
@[simp] theorem State.keeping_doors (t s : State) : (t.keeping s).doors = t.doors := rfl
@[simp] theorem State.keeping_batches (t s : State) : (t.keeping s).batches = t.batches := rfl
@[simp] theorem State.keeping_agate (t s : State) : (t.keeping s).agate = t.agate := rfl
@[simp] theorem State.keeping_snap (t s : State) : (t.keeping s).snap = t.snap := rfl
@[simp] theorem State.keeping_host (t s : State) : (t.keeping s).host = t.host := rfl
@[simp] theorem State.keeping_checks (t s : State) : (t.keeping s).checks = t.checks := rfl
@[simp] theorem State.keeping_sec (t s : State) : (t.keeping s).sec = t.sec := rfl
@[simp] theorem State.keeping_pwr (t s : State) : (t.keeping s).pwr = t.pwr := rfl
@[simp] theorem State.keeping_freeCtr (t s : State) : (t.keeping s).freeCtr = t.freeCtr := rfl
/-- A state with the phase and the queue of another is what keeping leaves. -/
theorem State.keeping_eq (t s : State) (hp : t.phase = s.phase) (hq : t.pending = s.pending) : t.keeping s = t := by
  cases t; cases s; cases hp; cases hq; rfl

@[simp] theorem State.keeping_self (s : State) : s.keeping s = s := rfl
@[simp] theorem State.keeping_get (t s : State) (f : Fld) : (t.keeping s).get f = t.get f := rfl
@[simp] theorem State.keeping_core (t s : State) (n : Nat) : (t.keeping s).core n = t.core n := rfl
@[simp] theorem State.keeping_win (t s : State) (n : Nat) : (t.keeping s).win n = t.win n := rfl
@[simp] theorem State.keeping_byte (t s : State) (pa : Nat) : (t.keeping s).byte pa = t.byte pa := rfl
@[simp] theorem State.keeping_put (t s : State) (f : Fld) (v : Nat) : (t.put f v).keeping s = (t.keeping s).put f v := rfl
@[simp] theorem State.keeping_inc (t s : State) (f : Fld) (n : Nat) : (t.inc f n).keeping s = (t.keeping s).inc f n := rfl

@[simp] theorem State.keeping_puts (t s : State) (l : List (Fld × Nat)) :
    (t.puts l).keeping s = (t.keeping s).puts l := by
  induction l generalizing t with
  | nil => rfl
  | cons e r ih => exact ih (t.put e.1 e.2)

/-! ### Reading a register after a write -/

@[simp] theorem State.get_put_self (s : State) (f : Fld) (v : Nat) : (s.put f v).get f = v % 2 ^ f.w :=
  sparseGet_set_self _ _ _ _

theorem State.get_put_ne (s : State) (f g : Fld) (v : Nat) (h : g.key ≠ f.key) : (s.put f v).get g = s.get g :=
  sparseGet_set_ne _ _ _ _ _ _ h

theorem State.get_inc_ne (s : State) (f g : Fld) (n : Nat) (h : g.key ≠ f.key) : (s.inc f n).get g = s.get g :=
  sparseGet_set_ne _ _ _ _ _ _ h

/-- A counter that is below its maximum by at least n counts n. -/
theorem State.get_inc_self (s : State) (f : Fld) (n : Nat) :
    (s.inc f n).get f = min (s.get f + n) (2 ^ f.w - 1) % 2 ^ f.w := State.get_put_self _ _ _

/-- A register that is at no place of a list of writes keeps its value. -/
theorem State.get_puts_ne (s : State) (l : List (Fld × Nat)) (g : Fld) (h : ∀ e ∈ l, g.key ≠ e.1.key) :
    (s.puts l).get g = s.get g := by
  induction l generalizing s with
  | nil => rfl
  | cons e r ih =>
    have : (s.puts (e :: r)).get g = ((s.put e.1 e.2).puts r).get g := rfl
    rw [this, ih _ fun x hx => h x (by simp [hx]), State.get_put_ne _ _ _ _ (h e (by simp))]

/-! ### Cores, windows, contexts, bytes -/

@[simp] theorem State.core_setCore_self (s : State) (n : Nat) (c : CoreSt) : (s.setCore n c).core n = c :=
  sparseGet_set_self _ _ _ _

theorem State.core_setCore_ne (s : State) (n m : Nat) (c : CoreSt) (h : m ≠ n) : (s.setCore n c).core m = s.core m :=
  sparseGet_set_ne _ _ _ _ _ _ h

@[simp] theorem State.win_setWin_self (s : State) (n : Nat) (x : WinSt) : (s.setWin n x).win n = x :=
  sparseGet_set_self _ _ _ _

theorem State.win_setWin_ne (s : State) (n m : Nat) (x : WinSt) (h : m ≠ n) : (s.setWin n x).win m = s.win m :=
  sparseGet_set_ne _ _ _ _ _ _ h

/-- A byte that is read after it was written. -/
@[simp] theorem State.byte_setByte_self (s : State) (pa : Nat) (b : Byte) : (s.setByte pa b).byte pa = b :=
  sparseGet_set_self _ _ _ _

/-- A write leaves every other byte. -/
theorem State.byte_setByte_ne (s : State) (pa a : Nat) (b : Byte) (h : a ≠ pa) : (s.setByte pa b).byte a = s.byte a :=
  sparseGet_set_ne _ _ _ _ _ _ h

/-! ### When a command has effect -/

/-- Out of reset a command does its work, and keeps the phase and the queue. -/
theorem whenLive_up {s : State} (h : s.phase = .up) (f : State → State) : whenLive s f = .next ((f s).keeping s) := by
  simp [whenLive, State.live, h]

/-- In reset a command does nothing. -/
theorem whenLive_reset {s : State} (h : s.phase ≠ .up) (f : State → State) : whenLive s f = .next s := by
  simp [whenLive, State.live, h]

/-- A write to a BAR out of reset, and not in D3hot or by Sill firmware. -/
theorem whenBar_up {s : State} (h : s.phase = .up) (sill : Bool) (hd : ¬ (s.host.d3hot = true ∧ (!sill) = true))
    (f : State → State) : whenBar s sill f = .next ((f s).keeping s) := by
  simp only [whenBar, whenLive_up h, if_neg hd]

end Sys2Proof.Machine
end

