-- ==== Sys2Proof/Laws/Exec.lean ====
section
/-!
SUPPORT. Laws/Exec.lean: the three shapes that the outcome of a command has.
-/

namespace Sys2Proof.Machine

/-- A packet command stops where it is ill-formed, and else does its work out of reset. -/
theorem packet_shape (d : DoorIx) (ty : Nat) (h : Hdr) (p : Bytes) (ok : Nat → Bool) (act : State → State) (s : State) :
    ((fits h p && ok h.addr.toNat) = true ∧ ∃ f, packet d ty h p ok act s = whenLive s f) ∨
      ((fits h p && ok h.addr.toNat) = false ∧ packet d ty h p ok act s = .fault .illFormed) := by
  unfold packet fits
  by_cases h1 : p.length = 64 * h.sectors.toNat
  · by_cases h2 : ok h.addr.toNat = true
    · exact .inl ⟨by simp [h1, h2], _, by rw [if_pos ⟨h1, h2⟩]⟩
    · exact .inr ⟨by simp [h2], by rw [if_neg fun x => h2 x.2]⟩
  · exact .inr ⟨by simp [h1], by rw [if_neg fun x => h1 x.1]⟩

/-- The outcome of a command is that of a reset command, or its work out of reset, or, where it is ill-formed, a stop. -/
def ExecShape (c : Instr) (s : State) : Prop :=
  actsInReset c = true ∨ (c.wellFormed = true ∧ ∃ f, exec c s = whenLive s f) ∨
    (c.wellFormed = false ∧ exec c s = .fault .illFormed)

/-- The shape of a packet command, from how its arm calls packet. -/
theorem shape_of_packet {c : Instr} {s : State} (d : DoorIx) (ty : Nat) (h : Hdr) (p : Bytes) (ok : Nat → Bool)
    (act : State → State) (hw : c.wellFormed = (fits h p && ok h.addr.toNat)) (he : exec c s = packet d ty h p ok act s) :
    ExecShape c s := by
  rcases packet_shape d ty h p ok act s with ⟨h1, f, h2⟩ | ⟨h1, h2⟩
  · exact .inr (.inl ⟨hw.trans h1, f, he.trans h2⟩)
  · exact .inr (.inr ⟨hw.trans h1, he.trans h2⟩)

/-- The same of a bulk packet's command. -/
theorem shape_of_bulk {c : Instr} {s : State} (d : DoorIx) (ty : Nat) (h : Hdr) (p : Bytes) (ok : Nat → Bool)
    (act : State → State) (hw : c.wellFormed = (fits h p && ok h.addr.toNat)) (he : exec c s = bulkPacket d ty h p ok act s) :
    ExecShape c s := by
  by_cases ht : p.length = 64 * h.sectors.toNat ∧ ok h.addr.toNat = true
  · exact .inr (.inl ⟨hw.trans (by simp [fits, ht.1, ht.2]), _, he.trans (by unfold bulkPacket; rw [if_pos ht])⟩)
  · refine .inr (.inr ⟨hw.trans ?_, he.trans (by unfold bulkPacket; rw [if_neg ht])⟩)
    simp only [fits, Bool.eq_false_iff]
    intro hc; apply ht; simpa using hc

theorem shape_relay (d : DoorIx) (ty : BitVec 8) (h : Hdr) (p : Bytes) (s : State) : ExecShape (.relay d ty h p) s := by
  by_cases ht : 1 ≤ ty.toNat ∧ ty.toNat ≤ 9 ∧ p.length = 64 * h.sectors.toNat
  · refine .inr (.inl ⟨?_, _, show execRelay d ty h p s = _ by unfold execRelay; rw [if_pos ht]⟩)
    simp [Instr.wellFormed, fits, ht.1, ht.2.1, ht.2.2]
  · refine .inr (.inr ⟨?_, show execRelay d ty h p s = _ by unfold execRelay; rw [if_neg ht]⟩)
    simp only [Instr.wellFormed, fits, Bool.eq_false_iff]
    intro hc; apply ht; simpa [and_assoc] using hc

/-- The shape of a command that works out of reset. -/
theorem shape_of_live {c : Instr} {s : State} {f : State → State} (hw : c.wellFormed = true) (h : exec c s = whenLive s f) :
    ExecShape c s := .inr (.inl ⟨hw, f, h⟩)

/-- The shape of a command that writes to a BAR. -/
theorem shape_of_bar {c : Instr} {s : State} {b : Bool} {f : State → State} (hw : c.wellFormed = true)
    (h : exec c s = whenBar s b f) : ExecShape c s := .inr (.inl ⟨hw, _, h⟩)

theorem shape_refLost : ∀ ns z, ExecShape (.refLost ns) z :=
  fun ns z => shape_of_live rfl (show execRefLost ns z = _ by unfold execRefLost; rfl)
theorem shape_securityReady : ∀ katOk romOk idOk z, ExecShape (.securityReady katOk romOk idOk) z :=
  fun katOk romOk idOk z => shape_of_live rfl (show execSecurityReady katOk romOk idOk z = _ by unfold execSecurityReady; rfl)
theorem shape_railsSet : ∀ z, ExecShape (.railsSet) z :=
  fun z => shape_of_live rfl (show execRailsSet z = _ by unfold execRailsSet; rfl)
theorem shape_casementCalibrateBoot : ∀ c aCdbm bCdbm z, ExecShape (.casementCalibrateBoot c aCdbm bCdbm) z :=
  fun c aCdbm bCdbm z => shape_of_live rfl (show execCasementCalibrateBoot c aCdbm bCdbm z = _ by unfold execCasementCalibrateBoot; rfl)
theorem shape_windowsStart : ∀ z, ExecShape (.windowsStart) z :=
  fun z => shape_of_live rfl (show execWindowsStart z = _ by unfold execWindowsStart; rfl)
theorem shape_windowLanesLocked : ∀ w sledId cap channels linkVer pairs certOk z, ExecShape (.windowLanesLocked w sledId cap channels linkVer pairs certOk) z :=
  fun w sledId cap channels linkVer pairs certOk z => shape_of_live rfl (show execWindowLanesLocked w sledId cap channels linkVer pairs certOk z = _ by unfold execWindowLanesLocked; rfl)
theorem shape_sledChallengeResponse : ∀ w sigOk z, ExecShape (.sledChallengeResponse w sigOk) z :=
  fun w sigOk z => shape_of_live rfl (show execSledChallengeResponse w sigOk z = _ by unfold execSledChallengeResponse; rfl)
theorem shape_sledVerifyTimeout : ∀ w z, ExecShape (.sledVerifyTimeout w) z :=
  fun w z => shape_of_live rfl (show execSledVerifyTimeout w z = _ by unfold execSledVerifyTimeout; rfl)
theorem shape_sledReady : ∀ w z, ExecShape (.sledReady w) z :=
  fun w z => shape_of_live rfl (show execSledReady w z = _ by unfold execSledReady; rfl)
theorem shape_bringupTimeout : ∀ w z, ExecShape (.bringupTimeout w) z :=
  fun w z => shape_of_live rfl (show execBringupTimeout w z = _ by unfold execBringupTimeout; rfl)
theorem shape_mapForm : ∀ z, ExecShape (.mapForm) z :=
  fun z => shape_of_live rfl (show execMapForm z = _ by unfold execMapForm; rfl)
theorem shape_bootReady : ∀ z, ExecShape (.bootReady) z :=
  fun z => shape_of_live rfl (show execBootReady z = _ by unfold execBootReady; rfl)
theorem shape_pcieLinkUp : ∀ speed width z, ExecShape (.pcieLinkUp speed width) z :=
  fun speed width z => shape_of_live rfl (show execPcieLinkUp speed width z = _ by unfold execPcieLinkUp; rfl)
theorem shape_pcieReset : ∀ kind z, ExecShape (.pcieReset kind) z :=
  fun kind z => shape_of_live rfl (show execPcieReset kind z = _ by unfold execPcieReset; rfl)
theorem shape_instructionFetch : ∀ c z, ExecShape (.instructionFetch c) z :=
  fun c z => shape_of_live rfl (show execInstructionFetch c z = _ by unfold execInstructionFetch; rfl)
theorem shape_admission : ∀ c z, ExecShape (.admission c) z :=
  fun c z => shape_of_live rfl (show execAdmission c z = _ by unfold execAdmission; rfl)
theorem shape_launchTimeReached : ∀ c tag z, ExecShape (.launchTimeReached c tag) z :=
  fun c tag z => shape_of_live rfl (show execLaunchTimeReached c tag z = _ by unfold execLaunchTimeReached; rfl)
theorem shape_instructionComplete : ∀ c tag z, ExecShape (.instructionComplete c tag) z :=
  fun c tag z => shape_of_live rfl (show execInstructionComplete c tag z = _ by unfold execInstructionComplete; rfl)
theorem shape_nop : ∀ c z, ExecShape (.nop c) z :=
  fun c z => shape_of_live rfl (show execNop c z = _ by unfold execNop; rfl)
theorem shape_endInstr : ∀ c z, ExecShape (.endInstr c) z :=
  fun c z => shape_of_live rfl (show execEnd c z = _ by unfold execEnd; rfl)
theorem shape_jmp : ∀ c z, ExecShape (.jmp c) z :=
  fun c z => shape_of_live rfl (show execJmp c z = _ by unfold execJmp; rfl)
theorem shape_cnt : ∀ c z, ExecShape (.cnt c) z :=
  fun c z => shape_of_live rfl (show execCnt c z = _ by unfold execCnt; rfl)
theorem shape_sync : ∀ c z, ExecShape (.sync c) z :=
  fun c z => shape_of_live rfl (show execSync c z = _ by unfold execSync; rfl)
theorem shape_dload : ∀ c z, ExecShape (.dload c) z :=
  fun c z => shape_of_live rfl (show execDload c z = _ by unfold execDload; rfl)
theorem shape_dmod : ∀ c z, ExecShape (.dmod c) z :=
  fun c z => shape_of_live rfl (show execDmod c z = _ by unfold execDmod; rfl)
theorem shape_dset : ∀ c z, ExecShape (.dset c) z :=
  fun c z => shape_of_live rfl (show execDset c z = _ by unfold execDset; rfl)
theorem shape_slotset : ∀ c z, ExecShape (.slotset c) z :=
  fun c z => shape_of_live rfl (show execSlotset c z = _ by unfold execSlotset; rfl)
theorem shape_rngld : ∀ c z, ExecShape (.rngld c) z :=
  fun c z => shape_of_live rfl (show execRngld c z = _ by unfold execRngld; rfl)
theorem shape_rngst : ∀ c z, ExecShape (.rngst c) z :=
  fun c z => shape_of_live rfl (show execRngst c z = _ by unfold execRngst; rfl)
theorem shape_gmm : ∀ c z, ExecShape (.gmm c) z :=
  fun c z => shape_of_live rfl (show execGmm c z = _ by unfold execGmm; rfl)
theorem shape_gact : ∀ c z, ExecShape (.gact c) z :=
  fun c z => shape_of_live rfl (show execGact c z = _ by unfold execGact; rfl)
theorem shape_tload : ∀ c z, ExecShape (.tload c) z :=
  fun c z => shape_of_live rfl (show execTload c z = _ by unfold execTload; rfl)
theorem shape_bgather : ∀ c z, ExecShape (.bgather c) z :=
  fun c z => shape_of_live rfl (show execBgather c z = _ by unfold execBgather; rfl)
theorem shape_bscatter : ∀ c z, ExecShape (.bscatter c) z :=
  fun c z => shape_of_live rfl (show execBscatter c z = _ by unfold execBscatter; rfl)
theorem shape_bsort : ∀ c z, ExecShape (.bsort c) z :=
  fun c z => shape_of_live rfl (show execBsort c z = _ by unfold execBsort; rfl)
theorem shape_bgroup : ∀ c z, ExecShape (.bgroup c) z :=
  fun c z => shape_of_live rfl (show execBgroup c z = _ by unfold execBgroup; rfl)
theorem shape_bragged : ∀ c z, ExecShape (.bragged c) z :=
  fun c z => shape_of_live rfl (show execBragged c z = _ by unfold execBragged; rfl)
theorem shape_bunpack : ∀ c z, ExecShape (.bunpack c) z :=
  fun c z => shape_of_live rfl (show execBunpack c z = _ by unfold execBunpack; rfl)
theorem shape_baudit : ∀ c z, ExecShape (.baudit c) z :=
  fun c z => shape_of_live rfl (show execBaudit c z = _ by unfold execBaudit; rfl)
theorem shape_mcopy : ∀ c z, ExecShape (.mcopy c) z :=
  fun c z => shape_of_live rfl (show execMcopy c z = _ by unfold execMcopy; rfl)
theorem shape_lop : ∀ c z, ExecShape (.lop c) z :=
  fun c z => shape_of_live rfl (show execLop c z = _ by unfold execLop; rfl)
theorem shape_barr : ∀ c z, ExecShape (.barr c) z :=
  fun c z => shape_of_live rfl (show execBarr c z = _ by unfold execBarr; rfl)
theorem shape_mwait : ∀ c z, ExecShape (.mwait c) z :=
  fun c z => shape_of_live rfl (show execMwait c z = _ by unfold execMwait; rfl)
theorem shape_agput : ∀ c z, ExecShape (.agput c) z :=
  fun c z => shape_of_live rfl (show execAgput c z = _ by unfold execAgput; rfl)
theorem shape_xdisp : ∀ c z, ExecShape (.xdisp c) z :=
  fun c z => shape_of_live rfl (show execXdisp c z = _ by unfold execXdisp; rfl)
theorem shape_xrecv : ∀ c z, ExecShape (.xrecv c) z :=
  fun c z => shape_of_live rfl (show execXrecv c z = _ by unfold execXrecv; rfl)
theorem shape_xret : ∀ c z, ExecShape (.xret c) z :=
  fun c z => shape_of_live rfl (show execXret c z = _ by unfold execXret; rfl)
theorem shape_burstIssue : ∀ m ch z, ExecShape (.burstIssue m ch) z :=
  fun m ch z => shape_of_live rfl (show execBurstIssue m ch z = _ by unfold execBurstIssue; rfl)
theorem shape_tagGrant : ∀ w z, ExecShape (.tagGrant w) z :=
  fun w z => shape_of_live rfl (show execTagGrant w z = _ by unfold execTagGrant; rfl)
theorem shape_rdd : ∀ w tag z, ExecShape (.rdd w tag) z :=
  fun w tag z => shape_of_live rfl (show execRdd w tag z = _ by unfold execRdd; rfl)
theorem shape_rdp : ∀ w tag z, ExecShape (.rdp w tag) z :=
  fun w tag z => shape_of_live rfl (show execRdp w tag z = _ by unfold execRdp; rfl)
theorem shape_wack : ∀ w tag z, ExecShape (.wack w tag) z :=
  fun w tag z => shape_of_live rfl (show execWack w tag z = _ by unfold execWack; rfl)
theorem shape_mgmt : ∀ w op whole z, ExecShape (.mgmt w op whole) z :=
  fun w op whole z => shape_of_live rfl (show execMgmt w op whole z = _ by unfold execMgmt; rfl)
theorem shape_flitCrcFail : ∀ flit z, ExecShape (.flitCrcFail flit) z :=
  fun flit z => shape_of_live rfl (show execFlitCrcFail flit z = _ by unfold execFlitCrcFail; rfl)
theorem shape_nakReceived : ∀ l resent z, ExecShape (.nakReceived l resent) z :=
  fun l resent z => shape_of_live rfl (show execNakReceived l resent z = _ by unfold execNakReceived; rfl)
theorem shape_retrain : ∀ l z, ExecShape (.retrain l) z :=
  fun l z => shape_of_live rfl (show execRetrain l z = _ by unfold execRetrain; rfl)
theorem shape_retrainDone : ∀ l ok usable z, ExecShape (.retrainDone l ok usable) z :=
  fun l ok usable z => shape_of_live rfl (show execRetrainDone l ok usable z = _ by unfold execRetrainDone; rfl)
theorem shape_linkDown : ∀ w z, ExecShape (.linkDown w) z :=
  fun w z => shape_of_live rfl (show execLinkDown w z = _ by unfold execLinkDown; rfl)
theorem shape_readTimeout : ∀ w tag z, ExecShape (.readTimeout w tag) z :=
  fun w tag z => shape_of_live rfl (show execReadTimeout w tag z = _ by unfold execReadTimeout; rfl)
theorem shape_writeTimeout : ∀ w tag z, ExecShape (.writeTimeout w tag) z :=
  fun w tag z => shape_of_live rfl (show execWriteTimeout w tag z = _ by unfold execWriteTimeout; rfl)
theorem shape_hotChannel : ∀ w ch z, ExecShape (.hotChannel w ch) z :=
  fun w ch z => shape_of_live rfl (show execHotChannel w ch z = _ by unfold execHotChannel; rfl)
theorem shape_latchMessage : ∀ i z, ExecShape (.latchMessage i) z :=
  fun i z => shape_of_live rfl (show execLatchMessage i z = _ by unfold execLatchMessage; rfl)
theorem shape_watch : ∀ i z, ExecShape (.watch i) z :=
  fun i z => shape_of_live rfl (show execWatch i z = _ by unfold execWatch; rfl)
theorem shape_latchNotification : ∀ i z, ExecShape (.latchNotification i) z :=
  fun i z => shape_of_live rfl (show execLatchNotification i z = _ by unfold execLatchNotification; rfl)
theorem shape_latchRead : ∀ i z, ExecShape (.latchRead i) z :=
  fun i z => shape_of_live rfl (show execLatchRead i z = _ by unfold execLatchRead; rfl)
theorem shape_barrierArrival : ∀ i z, ExecShape (.barrierArrival i) z :=
  fun i z => shape_of_live rfl (show execBarrierArrival i z = _ by unfold execBarrierArrival; rfl)
theorem shape_barrierRelease : ∀ i z, ExecShape (.barrierRelease i) z :=
  fun i z => shape_of_live rfl (show execBarrierRelease i z = _ by unfold execBarrierRelease; rfl)
theorem shape_barrierWithdrawal : ∀ i z, ExecShape (.barrierWithdrawal i) z :=
  fun i z => shape_of_live rfl (show execBarrierWithdrawal i z = _ by unfold execBarrierWithdrawal; rfl)
theorem shape_monitorWrite : ∀ i z, ExecShape (.monitorWrite i) z :=
  fun i z => shape_of_live rfl (show execMonitorWrite i z = _ by unfold execMonitorWrite; rfl)
theorem shape_mcastHoldRelease : ∀ g targets z, ExecShape (.mcastHoldRelease g targets) z :=
  fun g targets z => shape_of_live rfl (show execMcastHoldRelease g targets z = _ by unfold execMcastHoldRelease; rfl)
theorem shape_meshHeader : ∀ error z, ExecShape (.meshHeader error) z :=
  fun error z => shape_of_live rfl (show execMeshHeader error z = _ by unfold execMeshHeader; rfl)
theorem shape_residueVerdictFail : ∀ i parity path lane tile expected observed va last z, ExecShape (.residueVerdictFail i parity path lane tile expected observed va last) z :=
  fun i parity path lane tile expected observed va last z => shape_of_live rfl (show execResidueVerdictFail i parity path lane tile expected observed va last z = _ by unfold execResidueVerdictFail; rfl)
theorem shape_observationExpiry : ∀ unit z, ExecShape (.observationExpiry unit) z :=
  fun unit z => shape_of_live rfl (show execObservationExpiry unit z = _ by unfold execObservationExpiry; rfl)
theorem shape_csUncorr : ∀ c off z, ExecShape (.csUncorr c off) z :=
  fun c off z => shape_of_live rfl (show execCsUncorr c off z = _ by unfold execCsUncorr; rfl)
theorem shape_scrubPass : ∀ c z, ExecShape (.scrubPass c) z :=
  fun c z => shape_of_live rfl (show execScrubPass c z = _ by unfold execScrubPass; rfl)
theorem shape_poisonConsumption : ∀ job src unit va z, ExecShape (.poisonConsumption job src unit va) z :=
  fun job src unit va z => shape_of_live rfl (show execPoisonConsumption job src unit va z = _ by unfold execPoisonConsumption; rfl)
theorem shape_feState : ∀ src unit code synd z, ExecShape (.feState src unit code synd) z :=
  fun src unit code synd z => shape_of_live rfl (show execFeState src unit code synd z = _ by unfold execFeState; rfl)
theorem shape_epochClose : ∀ z, ExecShape (.epochClose) z :=
  fun z => shape_of_live rfl (show execEpochClose z = _ by unfold execEpochClose; rfl)
theorem shape_timeExchange : ∀ t1 t2 t3 t4 pathUp z, ExecShape (.timeExchange t1 t2 t3 t4 pathUp) z :=
  fun t1 t2 t3 t4 pathUp z => shape_of_live rfl (show execTimeExchange t1 t2 t3 t4 pathUp z = _ by unfold execTimeExchange; rfl)
theorem shape_hello : ∀ d pair peer peerDoor peerPair serial version pairs z, ExecShape (.hello d pair peer peerDoor peerPair serial version pairs) z :=
  fun d pair peer peerDoor peerPair serial version pairs z => shape_of_live rfl (show execHello d pair peer peerDoor peerPair serial version pairs z = _ by unfold execHello; rfl)
theorem shape_badPacketType : ∀ on ty kind sectors z, ExecShape (.badPacketType on ty kind sectors) z :=
  fun on ty kind sectors z => shape_of_live rfl (show execBadPacketType on ty kind sectors z = _ by unfold execBadPacketType; rfl)
theorem shape_doorDown : ∀ d pair cause z, ExecShape (.doorDown d pair cause) z :=
  fun d pair cause z => shape_of_live rfl (show execDoorDown d pair cause z = _ by unfold execDoorDown; rfl)
theorem shape_feedSwitch : ∀ c aCdbm bCdbm z, ExecShape (.feedSwitch c aCdbm bCdbm) z :=
  fun c aCdbm bCdbm z => shape_of_live rfl (show execFeedSwitch c aCdbm bCdbm z = _ by unfold execFeedSwitch; rfl)
theorem shape_calibrationDone : ∀ c z, ExecShape (.calibrationDone c) z :=
  fun c z => shape_of_live rfl (show execCalibrationDone c z = _ by unfold execCalibrationDone; rfl)
theorem shape_summarySend : ∀ gen z, ExecShape (.summarySend gen) z :=
  fun gen z => shape_of_live rfl (show execSummarySend gen z = _ by unfold execSummarySend; rfl)
theorem shape_batchClose : ∀ gen z, ExecShape (.batchClose gen) z :=
  fun gen z => shape_of_live rfl (show execBatchClose gen z = _ by unfold execBatchClose; rfl)
theorem shape_expertCancel : ∀ gen z, ExecShape (.expertCancel gen) z :=
  fun gen z => shape_of_live rfl (show execExpertCancel gen z = _ by unfold execExpertCancel; rfl)
theorem shape_runOpen : ∀ z, ExecShape (.runOpen) z :=
  fun z => shape_of_live rfl (show execRunOpen z = _ by unfold execRunOpen; rfl)
theorem shape_contributionTaken : ∀ z, ExecShape (.contributionTaken) z :=
  fun z => shape_of_live rfl (show execContributionTaken z = _ by unfold execContributionTaken; rfl)
theorem shape_sumStage : ∀ b z, ExecShape (.sumStage b) z :=
  fun b z => shape_of_live rfl (show execSumStage b z = _ by unfold execSumStage; rfl)
theorem shape_bucketDeadline : ∀ b z, ExecShape (.bucketDeadline b) z :=
  fun b z => shape_of_live rfl (show execBucketDeadline b z = _ by unfold execBucketDeadline; rfl)
theorem shape_bucketSuccess : ∀ b z, ExecShape (.bucketSuccess b) z :=
  fun b z => shape_of_live rfl (show execBucketSuccess b z = _ by unfold execBucketSuccess; rfl)
theorem shape_verdictTimeout : ∀ z, ExecShape (.verdictTimeout) z :=
  fun z => shape_of_live rfl (show execVerdictTimeout z = _ by unfold execVerdictTimeout; rfl)
theorem shape_snapPark : ∀ z, ExecShape (.snapPark) z :=
  fun z => shape_of_live rfl (show execSnapPark z = _ by unfold execSnapPark; rfl)
theorem shape_snapParkTimeout : ∀ z, ExecShape (.snapParkTimeout) z :=
  fun z => shape_of_live rfl (show execSnapParkTimeout z = _ by unfold execSnapParkTimeout; rfl)
theorem shape_snapSweepCopy : ∀ z, ExecShape (.snapSweepCopy) z :=
  fun z => shape_of_live rfl (show execSnapSweepCopy z = _ by unfold execSnapSweepCopy; rfl)
theorem shape_snapTouchCopy : ∀ i z, ExecShape (.snapTouchCopy i) z :=
  fun i z => shape_of_live rfl (show execSnapTouchCopy i z = _ by unfold execSnapTouchCopy; rfl)
theorem shape_snapBlockDone : ∀ i z, ExecShape (.snapBlockDone i) z :=
  fun i z => shape_of_live rfl (show execSnapBlockDone i z = _ by unfold execSnapBlockDone; rfl)
theorem shape_reserveDrain : ∀ z, ExecShape (.reserveDrain) z :=
  fun z => shape_of_live rfl (show execReserveDrain z = _ by unfold execReserveDrain; rfl)
theorem shape_snapComplete : ∀ memberCost z, ExecShape (.snapComplete memberCost) z :=
  fun memberCost z => shape_of_live rfl (show execSnapComplete memberCost z = _ by unfold execSnapComplete; rfl)
theorem shape_snapAbandon : ∀ cause z, ExecShape (.snapAbandon cause) z :=
  fun cause z => shape_of_live rfl (show execSnapAbandon cause z = _ by unfold execSnapAbandon; rfl)
theorem shape_heartbeatTimeout : ∀ z, ExecShape (.heartbeatTimeout) z :=
  fun z => shape_of_live rfl (show execHeartbeatTimeout z = _ by unfold execHeartbeatTimeout; rfl)
theorem shape_romCheck : ∀ ok z, ExecShape (.romCheck ok) z :=
  fun ok z => shape_of_live rfl (show execRomCheck ok z = _ by unfold execRomCheck; rfl)
theorem shape_periodicTileTest : ∀ c t z, ExecShape (.periodicTileTest c t) z :=
  fun c t z => shape_of_live rfl (show execPeriodicTileTest c t z = _ by unfold execPeriodicTileTest; rfl)
theorem shape_testStart : ∀ i z, ExecShape (.testStart i) z :=
  fun i z => shape_of_live rfl (show execTestStart i z = _ by unfold execTestStart; rfl)
theorem shape_testDone : ∀ i pass failing z, ExecShape (.testDone i pass failing) z :=
  fun i pass failing z => shape_of_live rfl (show execTestDone i pass failing z = _ by unfold execTestDone; rfl)
theorem shape_tileFenceEffect : ∀ c z, ExecShape (.tileFenceEffect c) z :=
  fun c z => shape_of_live rfl (show execTileFenceEffect c z = _ by unfold execTileFenceEffect; rfl)
theorem shape_holdStart : ∀ c z, ExecShape (.holdStart c) z :=
  fun c z => shape_of_live rfl (show execHoldStart c z = _ by unfold execHoldStart; rfl)
theorem shape_holdEnd : ∀ c z, ExecShape (.holdEnd c) z :=
  fun c z => shape_of_live rfl (show execHoldEnd c z = _ by unfold execHoldEnd; rfl)
theorem shape_lendingAdjust : ∀ lending z, ExecShape (.lendingAdjust lending) z :=
  fun lending z => shape_of_live rfl (show execLendingAdjust lending z = _ by unfold execLendingAdjust; rfl)
theorem shape_thermalCeiling : ∀ sensor tj z, ExecShape (.thermalCeiling sensor tj) z :=
  fun sensor tj z => shape_of_live rfl (show execThermalCeiling sensor tj z = _ by unfold execThermalCeiling; rfl)
theorem shape_overtemp : ∀ sensor tj z, ExecShape (.overtemp sensor tj) z :=
  fun sensor tj z => shape_of_live rfl (show execOvertemp sensor tj z = _ by unfold execOvertemp; rfl)
theorem shape_casementOvertemp : ∀ c tj z, ExecShape (.casementOvertemp c tj) z :=
  fun c tj z => shape_of_live rfl (show execCasementOvertemp c tj z = _ by unfold execCasementOvertemp; rfl)
theorem shape_beatRateSample : ∀ c mhz z, ExecShape (.beatRateSample c mhz) z :=
  fun c mhz z => shape_of_live rfl (show execBeatRateSample c mhz z = _ by unfold execBeatRateSample; rfl)
theorem shape_invalidationDone : ∀ z, ExecShape (.invalidationDone) z :=
  fun z => shape_of_live rfl (show execInvalidationDone z = _ by unfold execInvalidationDone; rfl)
theorem shape_entryPickup : ∀ z, ExecShape (.entryPickup) z :=
  fun z => shape_of_live rfl (show execEntryPickup z = _ by unfold execEntryPickup; rfl)
theorem shape_completionWrite : ∀ ring z, ExecShape (.completionWrite ring) z :=
  fun ring z => shape_of_live rfl (show execCompletionWrite ring z = _ by unfold execCompletionWrite; rfl)
theorem shape_doorbellSqTail : ∀ ring value z, ExecShape (.doorbellSqTail ring value) z :=
  fun ring value z => shape_of_live rfl (show execDoorbellSqTail ring value z = _ by unfold execDoorbellSqTail; rfl)
theorem shape_doorbellCqHead : ∀ ring value z, ExecShape (.doorbellCqHead ring value) z :=
  fun ring value z => shape_of_live rfl (show execDoorbellCqHead ring value z = _ by unfold execDoorbellCqHead; rfl)
theorem shape_ring0CtlWrite : ∀ value z, ExecShape (.ring0CtlWrite value) z :=
  fun value z => shape_of_bar rfl (show execRing0CtlWrite value z = _ by unfold execRing0CtlWrite; rfl)
theorem shape_bar4Read : ∀ off len z, ExecShape (.bar4Read off len) z :=
  fun off len z => shape_of_live rfl (show execBar4Read off len z = _ by unfold execBar4Read; rfl)
theorem shape_bar4Write : ∀ off data z, ExecShape (.bar4Write off data) z :=
  fun off data z => shape_of_bar rfl (show execBar4Write off data z = _ by unfold execBar4Write; rfl)
theorem shape_latchSetWrite : ∀ k value z, ExecShape (.latchSetWrite k value) z :=
  fun k value z => shape_of_bar rfl (show execLatchSetWrite k value z = _ by unfold execLatchSetWrite; rfl)
theorem shape_latchClrWrite : ∀ k value z, ExecShape (.latchClrWrite k value) z :=
  fun k value z => shape_of_bar rfl (show execLatchClrWrite k value z = _ by unfold execLatchClrWrite; rfl)
theorem shape_arriveWrite : ∀ value z, ExecShape (.arriveWrite value) z :=
  fun value z => shape_of_bar rfl (show execArriveWrite value z = _ by unfold execArriveWrite; rfl)
theorem shape_barrierCfgWrite : ∀ c value sill z, ExecShape (.barrierCfgWrite c value sill) z :=
  fun c value sill z => shape_of_bar rfl (show execBarrierCfgWrite c value sill z = _ by unfold execBarrierCfgWrite; rfl)
theorem shape_mcastWrite : ∀ g value sill z, ExecShape (.mcastWrite g value sill) z :=
  fun g value sill z => shape_of_bar rfl (show execMcastWrite g value sill z = _ by unfold execMcastWrite; rfl)
theorem shape_moverReqRaise : ∀ m value z, ExecShape (.moverReqRaise m value) z :=
  fun m value z => shape_of_bar rfl (show execMoverReqRaise m value z = _ by unfold execMoverReqRaise; rfl)
theorem shape_ctxDataWrite : ∀ m k value sill z, ExecShape (.ctxDataWrite m k value sill) z :=
  fun m k value sill z => shape_of_bar rfl (show execCtxDataWrite m k value sill z = _ by unfold execCtxDataWrite; rfl)
theorem shape_invalCmd : ∀ value sill z, ExecShape (.invalCmd value sill) z :=
  fun value sill z => shape_of_bar rfl (show execInvalCmd value sill z = _ by unfold execInvalCmd; rfl)
theorem shape_fenceReq : ∀ c mask sill z, ExecShape (.fenceReq c mask sill) z :=
  fun c mask sill z => shape_of_bar rfl (show execFenceReq c mask sill z = _ by unfold execFenceReq; rfl)
theorem shape_unfenceReq : ∀ c mask sill z, ExecShape (.unfenceReq c mask sill) z :=
  fun c mask sill z => shape_of_bar rfl (show execUnfenceReq c mask sill z = _ by unfold execUnfenceReq; rfl)
theorem shape_retireReq : ∀ c mask sill z, ExecShape (.retireReq c mask sill) z :=
  fun c mask sill z => shape_of_bar rfl (show execRetireReq c mask sill z = _ by unfold execRetireReq; rfl)
theorem shape_calReq : ∀ c sill z, ExecShape (.calReq c sill) z :=
  fun c sill z => shape_of_bar rfl (show execCalReq c sill z = _ by unfold execCalReq; rfl)
theorem shape_selReq : ∀ c sel sill z, ExecShape (.selReq c sel sill) z :=
  fun c sel sill z => shape_of_bar rfl (show execSelReq c sel sill z = _ by unfold execSelReq; rfl)
theorem shape_generatorStateWrite : ∀ c lane value sill z, ExecShape (.generatorStateWrite c lane value sill) z :=
  fun c lane value sill z => shape_of_bar rfl (show execGeneratorStateWrite c lane value sill z = _ by unfold execGeneratorStateWrite; rfl)
theorem shape_peerMessage : ∀ peer step ok z, ExecShape (.peerMessage peer step ok) z :=
  fun peer step ok z => shape_of_live rfl (show execPeerMessage peer step ok z = _ by unfold execPeerMessage; rfl)
theorem shape_registerWrite : ∀ off size value sill z, ExecShape (.registerWrite off size value sill) z :=
  fun off size value sill z => shape_of_bar rfl (show execRegisterWrite off size value sill z = _ by unfold execRegisterWrite; rfl)
theorem shape_registerReadClear : ∀ off size z, ExecShape (.registerReadClear off size) z :=
  fun off size z => shape_of_live rfl (show execRegisterReadClear off size z = _ by unfold execRegisterReadClear; rfl)
theorem shape_status : ∀ r z, ExecShape (.status r) z :=
  fun r z => shape_of_live rfl (show execStatus r z = _ by unfold execStatus; rfl)
theorem shape_errlogRead : ∀ r hostAddr firstSeq max z, ExecShape (.errlogRead r hostAddr firstSeq max) z :=
  fun r hostAddr firstSeq max z => shape_of_live rfl (show execErrlogRead r hostAddr firstSeq max z = _ by unfold execErrlogRead; rfl)
theorem shape_regRead : ∀ r off z, ExecShape (.regRead r off) z :=
  fun r off z => shape_of_live rfl (show execRegRead r off z = _ by unfold execRegRead; rfl)
theorem shape_latchOp : ∀ r op first countM1 z, ExecShape (.latchOp r op first countM1) z :=
  fun r op first countM1 z => shape_of_live rfl (show execLatchOp r op first countM1 z = _ by unfold execLatchOp; rfl)
theorem shape_streamHalt : ∀ r cores all z, ExecShape (.streamHalt r cores all) z :=
  fun r cores all z => shape_of_live rfl (show execStreamHalt r cores all z = _ by unfold execStreamHalt; rfl)
theorem shape_jobKill : ∀ r z, ExecShape (.jobKill r) z :=
  fun r z => shape_of_live rfl (show execJobKill r z = _ by unfold execJobKill; rfl)
theorem shape_batchCancel : ∀ r gen tray z, ExecShape (.batchCancel r gen tray) z :=
  fun r gen tray z => shape_of_live rfl (show execBatchCancel r gen tray z = _ by unfold execBatchCancel; rfl)
theorem shape_linkStatus : ∀ r z, ExecShape (.linkStatus r) z :=
  fun r z => shape_of_live rfl (show execLinkStatus r z = _ by unfold execLinkStatus; rfl)
theorem shape_configForm : ∀ r members mode answers dupNumber greatestNow feeds z, ExecShape (.configForm r members mode answers dupNumber greatestNow feeds) z :=
  fun r members mode answers dupNumber greatestNow feeds z => shape_of_live rfl (show execConfigForm r members mode answers dupNumber greatestNow feeds z = _ by unfold execConfigForm; rfl)
theorem shape_ringCreate : ∀ r ring log2 cls vec irq sqBase cqBase z, ExecShape (.ringCreate r ring log2 cls vec irq sqBase cqBase) z :=
  fun r ring log2 cls vec irq sqBase cqBase z => shape_of_live rfl (show execRingCreate r ring log2 cls vec irq sqBase cqBase z = _ by unfold execRingCreate; rfl)
theorem shape_ringDestroy : ∀ r ring z, ExecShape (.ringDestroy r ring) z :=
  fun r ring z => shape_of_live rfl (show execRingDestroy r ring z = _ by unfold execRingDestroy; rfl)
theorem shape_eventRing : ∀ r hostAddr log2 vec en z, ExecShape (.eventRing r hostAddr log2 vec en) z :=
  fun r hostAddr log2 vec en z => shape_of_live rfl (show execEventRing r hostAddr log2 vec en z = _ by unfold execEventRing; rfl)
theorem shape_memLayout : ∀ r pool reserve buddy z, ExecShape (.memLayout r pool reserve buddy) z :=
  fun r pool reserve buddy z => shape_of_live rfl (show execMemLayout r pool reserve buddy z = _ by unfold execMemLayout; rfl)
theorem shape_jobCreate : ∀ r hostBase z, ExecShape (.jobCreate r hostBase) z :=
  fun r hostBase z => shape_of_live rfl (show execJobCreate r hostBase z = _ by unfold execJobCreate; rfl)
theorem shape_jobDestroy : ∀ r z, ExecShape (.jobDestroy r) z :=
  fun r z => shape_of_live rfl (show execJobDestroy r z = _ by unfold execJobDestroy; rfl)
theorem shape_map : ∀ r va pa flags count z, ExecShape (.map r va pa flags count) z :=
  fun r va pa flags count z => shape_of_live rfl (show execMap r va pa flags count z = _ by unfold execMap; rfl)
theorem shape_unmap : ∀ r va count z, ExecShape (.unmap r va count) z :=
  fun r va count z => shape_of_live rfl (show execUnmap r va count z = _ by unfold execUnmap; rfl)
theorem shape_protect : ∀ r va flags count z, ExecShape (.protect r va flags count) z :=
  fun r va flags count z => shape_of_live rfl (show execProtect r va flags count z = _ by unfold execProtect; rfl)
theorem shape_ownerTable : ∀ r va length z, ExecShape (.ownerTable r va length) z :=
  fun r va length z => shape_of_live rfl (show execOwnerTable r va length z = _ by unfold execOwnerTable; rfl)
theorem shape_channelSet : ∀ r mover channel word0 clear z, ExecShape (.channelSet r mover channel word0 clear) z :=
  fun r mover channel word0 clear z => shape_of_live rfl (show execChannelSet r mover channel word0 clear z = _ by unfold execChannelSet; rfl)
theorem shape_placement : ∀ r va tray z, ExecShape (.placement r va tray) z :=
  fun r va tray z => shape_of_live rfl (show execPlacement r va tray z = _ by unfold execPlacement; rfl)
theorem shape_reduceConfig : ∀ r va z, ExecShape (.reduceConfig r va) z :=
  fun r va z => shape_of_live rfl (show execReduceConfig r va z = _ by unfold execReduceConfig; rfl)
theorem shape_reduceStart : ∀ r step z, ExecShape (.reduceStart r step) z :=
  fun r step z => shape_of_live rfl (show execReduceStart r step z = _ by unfold execReduceStart; rfl)
theorem shape_reduceStop : ∀ r z, ExecShape (.reduceStop r) z :=
  fun r z => shape_of_live rfl (show execReduceStop r z = _ by unfold execReduceStop; rfl)
theorem shape_budget : ∀ r dieW tjCeil hyst dwell lend uncoreMv z, ExecShape (.budget r dieW tjCeil hyst dwell lend uncoreMv) z :=
  fun r dieW tjCeil hyst dwell lend uncoreMv z => shape_of_live rfl (show execBudget r dieW tjCeil hyst dwell lend uncoreMv z = _ by unfold execBudget; rfl)
theorem shape_mcastSet : ∀ r group valid targets z, ExecShape (.mcastSet r group valid targets) z :=
  fun r group valid targets z => shape_of_live rfl (show execMcastSet r group valid targets z = _ by unfold execMcastSet; rfl)
theorem shape_regWrite : ∀ r off value mask z, ExecShape (.regWrite r off value mask) z :=
  fun r off value mask z => shape_of_live rfl (show execRegWrite r off value mask z = _ by unfold execRegWrite; rfl)
theorem shape_streamStart : ∀ r cores va z, ExecShape (.streamStart r cores va) z :=
  fun r cores va z => shape_of_live rfl (show execStreamStart r cores va z = _ by unfold execStreamStart; rfl)
theorem shape_streamResume : ∀ r cores va z, ExecShape (.streamResume r cores va) z :=
  fun r cores va z => shape_of_live rfl (show execStreamResume r cores va z = _ by unfold execStreamResume; rfl)
theorem shape_programLoad : ∀ r core firstSlot count va z, ExecShape (.programLoad r core firstSlot count va) z :=
  fun r core firstSlot count va z => shape_of_live rfl (show execProgramLoad r core firstSlot count va z = _ by unfold execProgramLoad; rfl)
theorem shape_hostCopy : ∀ r dir hostAddr va length z, ExecShape (.hostCopy r dir hostAddr va length) z :=
  fun r dir hostAddr va length z => shape_of_live rfl (show execHostCopy r dir hostAddr va length z = _ by unfold execHostCopy; rfl)
theorem shape_snapOpen : ∀ r snapId va hostAddr hostSize z, ExecShape (.snapOpen r snapId va hostAddr hostSize) z :=
  fun r snapId va hostAddr hostSize z => shape_of_live rfl (show execSnapOpen r snapId va hostAddr hostSize z = _ by unfold execSnapOpen; rfl)
theorem shape_restore : ∀ r snapId source hostAddr tResume z, ExecShape (.restore r snapId source hostAddr tResume) z :=
  fun r snapId source hostAddr tResume z => shape_of_live rfl (show execRestore r snapId source hostAddr tResume z = _ by unfold execRestore; rfl)
theorem shape_stepReplay : ∀ r step z, ExecShape (.stepReplay r step) z :=
  fun r step z => shape_of_live rfl (show execStepReplay r step z = _ by unfold execStepReplay; rfl)
theorem shape_test : ∀ r kind core tile windows z, ExecShape (.test r kind core tile windows) z :=
  fun r kind core tile windows z => shape_of_live rfl (show execTest r kind core tile windows z = _ by unfold execTest; rfl)
theorem shape_calibrate : ∀ r casements z, ExecShape (.calibrate r casements) z :=
  fun r casements z => shape_of_live rfl (show execCalibrate r casements z = _ by unfold execCalibrate; rfl)
theorem shape_retire : ∀ r kind core tile z, ExecShape (.retire r kind core tile) z :=
  fun r kind core tile z => shape_of_live rfl (show execRetire r kind core tile z = _ by unfold execRetire; rfl)
theorem shape_attest : ∀ r nonce hostAddr z, ExecShape (.attest r nonce hostAddr) z :=
  fun r nonce hostAddr z => shape_of_live rfl (show execAttest r nonce hostAddr z = _ by unfold execAttest; rfl)
theorem shape_patchLoad : ∀ r hostAddr length table z, ExecShape (.patchLoad r hostAddr length table) z :=
  fun r hostAddr length table z => shape_of_live rfl (show execPatchLoad r hostAddr length table z = _ by unfold execPatchLoad; rfl)
theorem shape_heartbeat : ∀ z, ExecShape (.heartbeat) z :=
  fun z => shape_of_live rfl (show execHeartbeat z = _ by unfold execHeartbeat; rfl)
theorem shape_sillMemoryEcc : ∀ check z, ExecShape (.sillMemoryEcc check) z :=
  fun check z => shape_of_live rfl (show execSillMemoryEcc check z = _ by unfold execSillMemoryEcc; rfl)
theorem shape_syncState : ∀ src corrected z, ExecShape (.syncState src corrected) z :=
  fun src corrected z => shape_of_live rfl (show execSyncState src corrected z = _ by unfold execSyncState; rfl)
theorem shape_xlatParity : ∀ src i z, ExecShape (.xlatParity src i) z :=
  fun src i z => shape_of_live rfl (show execXlatParity src i z = _ by unfold execXlatParity; rfl)
theorem shape_bufferParity : ∀ src pieces z, ExecShape (.bufferParity src pieces) z :=
  fun src pieces z => shape_of_live rfl (show execBufferParity src pieces z = _ by unfold execBufferParity; rfl)
theorem shape_csCorr : ∀ c off z, ExecShape (.csCorr c off) z :=
  fun c off z => shape_of_live rfl (show execCsCorr c off z = _ by unfold execCsCorr; rfl)
theorem shape_d3hot : ∀ enter z, ExecShape (.d3hot enter) z :=
  fun enter z => shape_of_live rfl (show execD3hot enter z = _ by unfold execD3hot; rfl)
theorem shape_noRoute : ∀ cmdId dev z, ExecShape (.noRoute cmdId dev) z :=
  fun cmdId dev z => shape_of_live rfl (show execNoRoute cmdId dev z = _ by unfold execNoRoute; rfl)
theorem shape_pcieReadCompletion : ∀ id data result z, ExecShape (.pcieReadCompletion id data result) z :=
  fun id data result z => shape_of_live rfl (show execPcieReadCompletion id data result z = _ by unfold execPcieReadCompletion; rfl)
theorem shape_completionTimeout : ∀ id z, ExecShape (.completionTimeout id) z :=
  fun id z => shape_of_live rfl (show execCompletionTimeout id z = _ by unfold execCompletionTimeout; rfl)

/-- The shape of every command. -/
theorem exec_shape (c : Instr) (s : State) : ExecShape c s := by
  cases c with
  | perstAssert ns => exact .inl rfl
  | effectiveRelease straps => exact .inl rfl
  | railDrop rail percent ns => exact .inl rfl
  | refLost ns => exact shape_refLost ns s
  | securityReady katOk romOk idOk => exact shape_securityReady katOk romOk idOk s
  | railsSet => exact shape_railsSet s
  | casementCalibrateBoot c aCdbm bCdbm => exact shape_casementCalibrateBoot c aCdbm bCdbm s
  | windowsStart => exact shape_windowsStart s
  | windowLanesLocked w sledId cap channels linkVer pairs certOk => exact shape_windowLanesLocked w sledId cap channels linkVer pairs certOk s
  | sledChallengeResponse w sigOk => exact shape_sledChallengeResponse w sigOk s
  | sledVerifyTimeout w => exact shape_sledVerifyTimeout w s
  | sledReady w => exact shape_sledReady w s
  | bringupTimeout w => exact shape_bringupTimeout w s
  | mapForm => exact shape_mapForm s
  | bootReady => exact shape_bootReady s
  | pcieLinkUp speed width => exact shape_pcieLinkUp speed width s
  | pcieReset kind => exact shape_pcieReset kind s
  | tamperTrip sensors => exact .inl rfl
  | instructionFetch c => exact shape_instructionFetch c s
  | admission c => exact shape_admission c s
  | launchTimeReached c tag => exact shape_launchTimeReached c tag s
  | instructionComplete c tag => exact shape_instructionComplete c tag s
  | nop c => exact shape_nop c s
  | endInstr c => exact shape_endInstr c s
  | jmp c => exact shape_jmp c s
  | cnt c => exact shape_cnt c s
  | sync c => exact shape_sync c s
  | dload c => exact shape_dload c s
  | dmod c => exact shape_dmod c s
  | dset c => exact shape_dset c s
  | slotset c => exact shape_slotset c s
  | rngld c => exact shape_rngld c s
  | rngst c => exact shape_rngst c s
  | gmm c => exact shape_gmm c s
  | gact c => exact shape_gact c s
  | tload c => exact shape_tload c s
  | bgather c => exact shape_bgather c s
  | bscatter c => exact shape_bscatter c s
  | bsort c => exact shape_bsort c s
  | bgroup c => exact shape_bgroup c s
  | bragged c => exact shape_bragged c s
  | bunpack c => exact shape_bunpack c s
  | baudit c => exact shape_baudit c s
  | mcopy c => exact shape_mcopy c s
  | lop c => exact shape_lop c s
  | barr c => exact shape_barr c s
  | mwait c => exact shape_mwait c s
  | agput c => exact shape_agput c s
  | xdisp c => exact shape_xdisp c s
  | xrecv c => exact shape_xrecv c s
  | xret c => exact shape_xret c s
  | burstIssue m ch => exact shape_burstIssue m ch s
  | tagGrant w => exact shape_tagGrant w s
  | rdd w tag => exact shape_rdd w tag s
  | rdp w tag => exact shape_rdp w tag s
  | wack w tag => exact shape_wack w tag s
  | mgmt w op whole => exact shape_mgmt w op whole s
  | flitCrcFail flit => exact shape_flitCrcFail flit s
  | nakReceived l resent => exact shape_nakReceived l resent s
  | retrain l => exact shape_retrain l s
  | retrainDone l ok usable => exact shape_retrainDone l ok usable s
  | linkDown w => exact shape_linkDown w s
  | readTimeout w tag => exact shape_readTimeout w tag s
  | writeTimeout w tag => exact shape_writeTimeout w tag s
  | hotChannel w ch => exact shape_hotChannel w ch s
  | latchMessage i => exact shape_latchMessage i s
  | watch i => exact shape_watch i s
  | latchNotification i => exact shape_latchNotification i s
  | latchRead i => exact shape_latchRead i s
  | barrierArrival i => exact shape_barrierArrival i s
  | barrierRelease i => exact shape_barrierRelease i s
  | barrierWithdrawal i => exact shape_barrierWithdrawal i s
  | monitorWrite i => exact shape_monitorWrite i s
  | mcastHoldRelease g targets => exact shape_mcastHoldRelease g targets s
  | meshHeader error => exact shape_meshHeader error s
  | residueVerdictFail i parity path lane tile expected observed va last => exact shape_residueVerdictFail i parity path lane tile expected observed va last s
  | observationExpiry unit => exact shape_observationExpiry unit s
  | csUncorr c off => exact shape_csUncorr c off s
  | scrubPass c => exact shape_scrubPass c s
  | poisonConsumption job src unit va => exact shape_poisonConsumption job src unit va s
  | feState src unit code synd => exact shape_feState src unit code synd s
  | epochClose => exact shape_epochClose s
  | write d h p => exact shape_of_bulk d 1 h p anyKind _ (Bool.and_true _).symm rfl
  | writeAck d h => exact shape_of_packet d 2 h [] anyKind _ (Bool.and_true _).symm rfl
  | latchPacket d h => exact shape_of_packet d 3 h [] anyKind _ (Bool.and_true _).symm rfl
  | retract d h => exact shape_of_packet d 6 h [] anyKind _ (Bool.and_true _).symm rfl
  | close d h => exact shape_of_packet d 7 h [] anyKind _ (Bool.and_true _).symm rfl
  | timeExchange t1 t2 t3 t4 pathUp => exact shape_timeExchange t1 t2 t3 t4 pathUp s
  | hello d pair peer peerDoor peerPair serial version pairs => exact shape_hello d pair peer peerDoor peerPair serial version pairs s
  | badPacketType on ty kind sectors => exact shape_badPacketType on ty kind sectors s
  | doorDown d pair cause => exact shape_doorDown d pair cause s
  | feedSwitch c aCdbm bCdbm => exact shape_feedSwitch c aCdbm bCdbm s
  | calibrationDone c => exact shape_calibrationDone c s
  | command d h p => exact shape_of_packet d 9 h p (kind4 1) _ rfl rfl
  | completion d h p => exact shape_of_packet d 9 h p (kind4 2) _ rfl rfl
  | record d h p => exact shape_of_packet d 9 h p (kind4 3) _ rfl rfl
  | kill d h p => exact shape_of_packet d 9 h p (kind4 4) _ rfl rfl
  | hostEdge d h p => exact shape_of_packet d 9 h p (kind4 5) _ rfl rfl
  | event d h p => exact shape_of_packet d 9 h p (kind4 6) _ rfl rfl
  | summarySend gen => exact shape_summarySend gen s
  | summary d h p => exact shape_of_bulk d 5 h p (kind4 1) _ rfl rfl
  | token d h p core choice index => exact shape_of_bulk d 5 h p (kind4 2) _ rfl rfl
  | returnPacket d h p => exact shape_of_bulk d 5 h p (kind4 3) _ rfl rfl
  | batchClose gen => exact shape_batchClose gen s
  | expertCancel gen => exact shape_expertCancel gen s
  | runOpen => exact shape_runOpen s
  | contributionTaken => exact shape_contributionTaken s
  | contrib d h p => exact shape_of_bulk d 4 h p (kind3 1) _ rfl rfl
  | sumStage b => exact shape_sumStage b s
  | bucketDeadline b => exact shape_bucketDeadline b s
  | bucketSuccess b => exact shape_bucketSuccess b s
  | report d h p => exact shape_of_packet d 4 h p (kind3 2) _ rfl rfl
  | verdictTimeout => exact shape_verdictTimeout s
  | verdict d h p => exact shape_of_packet d 4 h p (kind3 3) _ rfl rfl
  | snapPark => exact shape_snapPark s
  | snapParkTimeout => exact shape_snapParkTimeout s
  | snapSweepCopy => exact shape_snapSweepCopy s
  | snapTouchCopy i => exact shape_snapTouchCopy i s
  | snapBlockDone i => exact shape_snapBlockDone i s
  | reserveDrain => exact shape_reserveDrain s
  | snapComplete memberCost => exact shape_snapComplete memberCost s
  | snapAbandon cause => exact shape_snapAbandon cause s
  | heartbeatTimeout => exact shape_heartbeatTimeout s
  | romCheck ok => exact shape_romCheck ok s
  | periodicTileTest c t => exact shape_periodicTileTest c t s
  | testStart i => exact shape_testStart i s
  | testDone i pass failing => exact shape_testDone i pass failing s
  | tileFenceEffect c => exact shape_tileFenceEffect c s
  | holdStart c => exact shape_holdStart c s
  | holdEnd c => exact shape_holdEnd c s
  | lendingAdjust lending => exact shape_lendingAdjust lending s
  | thermalCeiling sensor tj => exact shape_thermalCeiling sensor tj s
  | overtemp sensor tj => exact shape_overtemp sensor tj s
  | casementOvertemp c tj => exact shape_casementOvertemp c tj s
  | beatRateSample c mhz => exact shape_beatRateSample c mhz s
  | invalidationDone => exact shape_invalidationDone s
  | entryPickup => exact shape_entryPickup s
  | completionWrite ring => exact shape_completionWrite ring s
  | doorbellSqTail ring value => exact shape_doorbellSqTail ring value s
  | doorbellCqHead ring value => exact shape_doorbellCqHead ring value s
  | ring0CtlWrite value => exact shape_ring0CtlWrite value s
  | bar4Read off len => exact shape_bar4Read off len s
  | bar4Write off data => exact shape_bar4Write off data s
  | latchSetWrite k value => exact shape_latchSetWrite k value s
  | latchClrWrite k value => exact shape_latchClrWrite k value s
  | arriveWrite value => exact shape_arriveWrite value s
  | barrierCfgWrite c value sill => exact shape_barrierCfgWrite c value sill s
  | mcastWrite g value sill => exact shape_mcastWrite g value sill s
  | moverReqRaise m value => exact shape_moverReqRaise m value s
  | ctxDataWrite m k value sill => exact shape_ctxDataWrite m k value sill s
  | invalCmd value sill => exact shape_invalCmd value sill s
  | fenceReq c mask sill => exact shape_fenceReq c mask sill s
  | unfenceReq c mask sill => exact shape_unfenceReq c mask sill s
  | retireReq c mask sill => exact shape_retireReq c mask sill s
  | calReq c sill => exact shape_calReq c sill s
  | selReq c sel sill => exact shape_selReq c sel sill s
  | generatorStateWrite c lane value sill => exact shape_generatorStateWrite c lane value sill s
  | peerMessage peer step ok => exact shape_peerMessage peer step ok s
  | registerWrite off size value sill => exact shape_registerWrite off size value sill s
  | registerReadClear off size => exact shape_registerReadClear off size s
  | status r => exact shape_status r s
  | errlogRead r hostAddr firstSeq max => exact shape_errlogRead r hostAddr firstSeq max s
  | regRead r off => exact shape_regRead r off s
  | latchOp r op first countM1 => exact shape_latchOp r op first countM1 s
  | streamHalt r cores all => exact shape_streamHalt r cores all s
  | jobKill r => exact shape_jobKill r s
  | batchCancel r gen tray => exact shape_batchCancel r gen tray s
  | linkStatus r => exact shape_linkStatus r s
  | configForm r members mode answers dupNumber greatestNow feeds => exact shape_configForm r members mode answers dupNumber greatestNow feeds s
  | ringCreate r ring log2 cls vec irq sqBase cqBase => exact shape_ringCreate r ring log2 cls vec irq sqBase cqBase s
  | ringDestroy r ring => exact shape_ringDestroy r ring s
  | eventRing r hostAddr log2 vec en => exact shape_eventRing r hostAddr log2 vec en s
  | memLayout r pool reserve buddy => exact shape_memLayout r pool reserve buddy s
  | jobCreate r hostBase => exact shape_jobCreate r hostBase s
  | jobDestroy r => exact shape_jobDestroy r s
  | map r va pa flags count => exact shape_map r va pa flags count s
  | unmap r va count => exact shape_unmap r va count s
  | protect r va flags count => exact shape_protect r va flags count s
  | ownerTable r va length => exact shape_ownerTable r va length s
  | channelSet r mover channel word0 clear => exact shape_channelSet r mover channel word0 clear s
  | placement r va tray => exact shape_placement r va tray s
  | reduceConfig r va => exact shape_reduceConfig r va s
  | reduceStart r step => exact shape_reduceStart r step s
  | reduceStop r => exact shape_reduceStop r s
  | budget r dieW tjCeil hyst dwell lend uncoreMv => exact shape_budget r dieW tjCeil hyst dwell lend uncoreMv s
  | mcastSet r group valid targets => exact shape_mcastSet r group valid targets s
  | regWrite r off value mask => exact shape_regWrite r off value mask s
  | streamStart r cores va => exact shape_streamStart r cores va s
  | streamResume r cores va => exact shape_streamResume r cores va s
  | programLoad r core firstSlot count va => exact shape_programLoad r core firstSlot count va s
  | hostCopy r dir hostAddr va length => exact shape_hostCopy r dir hostAddr va length s
  | snapOpen r snapId va hostAddr hostSize => exact shape_snapOpen r snapId va hostAddr hostSize s
  | restore r snapId source hostAddr tResume => exact shape_restore r snapId source hostAddr tResume s
  | stepReplay r step => exact shape_stepReplay r step s
  | test r kind core tile windows => exact shape_test r kind core tile windows s
  | calibrate r casements => exact shape_calibrate r casements s
  | retire r kind core tile => exact shape_retire r kind core tile s
  | attest r nonce hostAddr => exact shape_attest r nonce hostAddr s
  | patchLoad r hostAddr length table => exact shape_patchLoad r hostAddr length table s
  | relay d ty h p => exact shape_relay d ty h p s
  | heartbeat => exact shape_heartbeat s
  | sillMemoryEcc check => exact shape_sillMemoryEcc check s
  | syncState src corrected => exact shape_syncState src corrected s
  | xlatParity src i => exact shape_xlatParity src i s
  | bufferParity src pieces => exact shape_bufferParity src pieces s
  | csCorr c off => exact shape_csCorr c off s
  | d3hot enter => exact shape_d3hot enter s
  | vauxWithinRange => exact .inl rfl
  | noRoute cmdId dev => exact shape_noRoute cmdId dev s
  | pcieReadCompletion id data result => exact shape_pcieReadCompletion id data result s
  | completionTimeout id => exact shape_completionTimeout id s

end Sys2Proof.Machine
end

