-- ==== Sys2Proof/Laws/Dispatch.lean ====
section
/-!
SUPPORT. Laws/Dispatch.lean: what a command that dispatches an instruction does: everything the shared operation answers.
-/

namespace Sys2Proof.Machine

/-- Where no instruction is ready nothing changes. -/
theorem dispatch_waits (s : State) (n op : Nat) (acc : State → Insn → Bool) (run : State → Insn → State)
    (h : ∀ i, s.oldest n (queueOf op) = some i →
      ¬(s.streamState n = 1 ∧ i.op = op ∧ s.timely i = true ∧ acc s i = true)) : s.dispatch n op acc run = s := by
  unfold State.dispatch
  split
  · rfl
  · rename_i i hi
    rw [if_neg (h i hi)]

/-- A ready instruction that a hazard holds is counted the first time. -/
theorem dispatch_hazard (s : State) (n op : Nat) (acc : State → Insn → Bool) (run : State → Insn → State) (i : Insn)
    (ho : s.oldest n (queueOf op) = some i) (hr : s.streamState n = 1 ∧ i.op = op ∧ s.timely i = true ∧ acc s i = true)
    (hz : s.hazard n i = true) :
    s.dispatch n op acc run = if i.delayed then s
      else (s.mapInsn n i.tag fun x => { x with delayed := true }).inc (Reg.CORE.HAZARD_WAIT n) 1 := by
  unfold State.dispatch
  simp only [ho]
  rw [if_pos hr, if_pos hz]

/-- A ready instruction without a hazard whose window entry fails its parity check faults. -/
theorem dispatch_bad (s : State) (n op : Nat) (acc : State → Insn → Bool) (run : State → Insn → State) (i : Insn)
    (ho : s.oldest n (queueOf op) = some i) (hr : s.streamState n = 1 ∧ i.op = op ∧ s.timely i = true ∧ acc s i = true)
    (hz : s.hazard n i = false) (hb : i.bad = true) :
    s.dispatch n op acc run = s.takeFault n i ⟨cPOISON, 5, 0, 0⟩ := by
  unfold State.dispatch
  simp only [ho]
  rw [if_pos hr, if_neg (by simp [hz]), if_pos hb]

/-- A ready instruction without a hazard that is too late faults. -/
theorem dispatch_late (s : State) (n op : Nat) (acc : State → Insn → Bool) (run : State → Insn → State) (i : Insn)
    (ho : s.oldest n (queueOf op) = some i) (hr : s.streamState n = 1 ∧ i.op = op ∧ s.timely i = true ∧ acc s i = true)
    (hz : s.hazard n i = false) (hb : i.bad = false) (hl : s.tooLate n i = true) :
    s.dispatch n op acc run = (s.noteLate n i).takeFault n i (s.lateFlt i) := by
  unfold State.dispatch
  simp only [ho]
  rw [if_pos hr, if_neg (by simp [hz]), if_neg (by simp [hb]), if_pos hl]

/-- A ready instruction without a hazard that is not too late dispatches, and its unit takes it. -/
theorem dispatch_runs (s : State) (n op : Nat) (acc : State → Insn → Bool) (run : State → Insn → State) (i : Insn)
    (ho : s.oldest n (queueOf op) = some i) (hr : s.streamState n = 1 ∧ i.op = op ∧ s.timely i = true ∧ acc s i = true)
    (hz : s.hazard n i = false) (hb : i.bad = false) (hl : s.tooLate n i = false) :
    s.dispatch n op acc run = run ((s.noteLate n i).sent n i) i := by
  unfold State.dispatch State.sent
  simp only [ho]
  rw [if_pos hr, if_neg (by simp [hz]), if_neg (by simp [hb]), if_neg (by simp [hl])]

/-- A dispatch at most 2 ns late is not recorded as late. -/
theorem noteLate_on_time (s : State) (n : Nat) (i : Insn) (h : s.lateness i ≤ 2) : s.noteLate n i = s := by
  unfold State.noteLate; rw [if_neg (by omega)]

theorem tooLate_on_time (s : State) (n : Nat) (i : Insn) (h : s.lateness i ≤ 2) : s.tooLate n i = false := by
  unfold State.tooLate; simp; intro h1; omega

/-- What a dispatch command does when its instruction goes. -/
theorem dispatch_of_goes {s : State} {n op : Nat} {i : Insn} (h : s.goes n op i) (acc : State → Insn → Bool)
    (run : State → Insn → State) (ha : acc s i = s.accepts n op i) : s.dispatch n op acc run = run (s.sent n i) i := by
  obtain ⟨_, ⟨hs, ho, hop, ht, hacc⟩, hz, hb, hl⟩ := h
  have h1 := dispatch_runs s n op acc run i ho ⟨hs, hop, ht, ha.trans hacc⟩ hz hb (tooLate_on_time s n i hl)
  rwa [noteLate_on_time s n i hl] at h1

/-- The outcome of a dispatch command whose instruction goes. -/
theorem live_of_goes {s : State} {n op : Nat} {i : Insn} (h : s.goes n op i) (acc : State → Insn → Bool)
    (run : State → Insn → State) (ha : acc s i = s.accepts n op i) :
    (whenLive s fun s => s.dispatch n op acc run) = .next ((run (s.sent n i) i).keeping s) := by
  rw [whenLive_up h.1, dispatch_of_goes h acc run ha]

@[simp] theorem sent_phase (s : State) (n : Nat) (i : Insn) : (s.sent n i).phase = s.phase := rfl
@[simp] theorem sent_pending (s : State) (n : Nat) (i : Insn) : (s.sent n i).pending = s.pending := rfl
@[simp] theorem sent_regs (s : State) (n : Nat) (i : Insn) : (s.sent n i).regs = s.regs := rfl
@[simp] theorem sent_mem (s : State) (n : Nat) (i : Insn) : (s.sent n i).mem = s.mem := rfl
@[simp] theorem sent_get (s : State) (n : Nat) (i : Insn) (f : Fld) : (s.sent n i).get f = s.get f := rfl
@[simp] theorem sent_now (s : State) (n : Nat) (i : Insn) : (s.sent n i).now = s.now := rfl
@[simp] theorem sent_jobOf (s : State) (n m : Nat) (i : Insn) : (s.sent n i).jobOf m = s.jobOf m := rfl

/-- An instruction that changes in its window leaves the rest of its core. -/
theorem mapInsn_core (s : State) (n tag : Nat) (f : Insn → Insn) :
    (s.mapInsn n tag f).core n = { s.core n with window := mapIf (fun i => i.tag == tag) f (s.core n).window } := by
  simp [State.mapInsn, State.setWindow]

/-- Dispatch and completion leave what the parity checks of a core's words have found (R401). -/
@[simp] theorem markDone_badWords (s : State) (n tag : Nat) (c : Cnt) :
    ((s.markDone n tag c).core n).badWords = (s.core n).badWords := by
  simp only [State.markDone, mapInsn_core]

@[simp] theorem sent_badWords (s : State) (n : Nat) (i : Insn) : ((s.sent n i).core n).badWords = (s.core n).badWords := by
  simp only [State.sent, State.markDispatched, State.core_setCore_self, mapInsn_core]

/-- What a Beryl command does when Beryl takes its instruction. -/
theorem live_of_beryl {s s' : State} {n op : Nat} {i : Insn} {pre : Option Flt} {b : Bound}
    (h : s.berylTakes n op i pre s' b) (acc : State → Insn → Bool) (pre' : State → Insn → Option Flt)
    (work : Insn → State → Bound → State) (ha : acc s i = s.accepts n op i) (hp : pre' (s.sent n i) i = pre) :
    (whenLive s fun s => s.dispatch n op acc fun s i => s.berylRun n i (pre' s i) (work i)) =
      .next ((work i s' b).keeping s) := by
  obtain ⟨hg, hf, hb, hal⟩ := h
  rw [live_of_goes hg acc _ ha]
  have e : (s.sent n i).berylRun n i pre (work i) = work i s' b := by
    have hf' : firstFlt (pre :: (i.operands.filter fun o => o.2.2).map fun o => (i.td o.1).checkWrite o.1) = none := hf
    have hb' : (s.sent n i).bindAll (sliceOf (unitOfOp i.op) n) ((s.sent n i).jobOf n) (.own n) i.opds = (s', .inr b) := hb
    have ha' : berylAlias b i = none := hal
    simp only [State.berylRun, hf', hb', ha']
  rw [hp, e]

/-- A Beryl instruction with no marked element for a POISON_KILL page writes its elements and is done. -/
theorem berylEnd_clean (s : State) (n : Nat) (i : Insn) (b : Bound) (role : Nat) (d : TD) (l : List El) (c : Cnt)
    (h : killSectors b l = []) : s.berylEnd n i b role d l c = s.berylDone n i b l c := by
  unfold State.berylEnd State.berylDone
  rw [h]

/-- Unmarked elements never meet POISON_KILL. -/
theorem killSectors_unmarked (b : Bound) (l : List El) (h : ∀ e ∈ l, e.mark = false) : killSectors b l = [] := by
  unfold killSectors
  rw [List.map_eq_nil_iff, List.filter_eq_nil_iff]
  intro e he; simp [h e he]

end Sys2Proof.Machine
end

