-- ==== Sys2Proof/Laws/Memory.lean ====
section
/-!
SUPPORT. Laws/Memory.lean: every operation that changes memory keeps its canonical form; what bytes read as after a write.
-/

namespace Sys2Proof.Machine

/-! ### The canonical form -/

theorem reset_mem_wf : Memory.wf State.reset.mem = true := rfl

theorem setByte_wf (s : State) (pa : Nat) (b : Byte) (h : Memory.wf s.mem = true) : Memory.wf (s.setByte pa b).mem = true :=
  sparseWf_set _ _ _ _ h

theorem setBytes_wf (s : State) (pa : Nat) (l : List (Option Byte)) (h : Memory.wf s.mem = true) :
    Memory.wf (s.setBytes pa l).mem = true := by
  induction l generalizing s pa with
  | nil => exact h
  | cons x r ih =>
    cases x with
    | none => exact ih _ _ h
    | some b => exact ih _ _ (setByte_wf s pa b h)

@[simp] theorem clearPoison_mem (s : State) (pa n : Nat) : (s.clearPoison pa n).mem = s.mem := rfl
@[simp] theorem noteHits_mem (s : State) (l : List (Nat × BitVec 64)) : (s.noteHits l).mem = s.mem := rfl
@[simp] theorem noteMonitors_mem (s old : State) (pa n : Nat) : (s.noteMonitors old pa n).mem = s.mem := rfl
@[simp] theorem enqueue_mem (s : State) (w : Nat) (r : MemReq) : (s.enqueue w r).mem = s.mem := rfl
@[simp] theorem setPoison_mem (s : State) (pa : Nat) : (s.setPoison pa).mem = s.mem := rfl

theorem store_wf (s : State) (pa : Nat) (data : Bytes) (h : Memory.wf s.mem = true) : Memory.wf (s.store pa data).mem = true :=
  setBytes_wf s pa _ h

/-- A fold whose step leaves memory leaves memory. -/
theorem foldl_mem {α : Type} (f : State → α → State) (hf : ∀ s a, (f s a).mem = s.mem) (l : List α) (s : State) :
    (l.foldl f s).mem = s.mem := by
  induction l generalizing s with
  | nil => rfl
  | cons a r ih => rw [List.foldl_cons, ih, hf]

theorem applyReq_wf (s : State) (r : MemReq) (h : Memory.wf s.mem = true) : Memory.wf (s.applyReq r).mem = true := by
  unfold State.applyReq
  split
  · rw [foldl_mem _ (fun s _ => setPoison_mem s _)]; exact h
  · rw [foldl_mem _ (fun s _ => clearPoison_mem s _ _)]; exact setBytes_wf s _ _ h

theorem performReq_wf (s : State) (r : MemReq) (h : Memory.wf s.mem = true) : Memory.wf (s.performReq r).mem = true := by
  unfold State.performReq
  split
  · exact applyReq_wf s r h
  · exact applyReq_wf s r h

theorem applyNow_wf (s : State) (r : MemReq) (h : Memory.wf s.mem = true) : Memory.wf (s.applyNow r).1.mem = true :=
  applyReq_wf s r h

theorem takeBack_wf (s : State) (r : MemReq) (h : Memory.wf s.mem = true) : Memory.wf (s.takeBack r).mem = true := by
  have hs := setBytes_wf s r.pa r.before h
  unfold State.takeBack
  dsimp only; split
  · exact hs
  · split
    · exact hs
    · exact hs

/-- A fold whose step keeps the canonical form keeps it. -/
theorem foldl_wf {α : Type} (f : State → α → State) (hf : ∀ s a, Memory.wf s.mem = true → Memory.wf (f s a).mem = true)
    (l : List α) (s : State) (h : Memory.wf s.mem = true) : Memory.wf (l.foldl f s).mem = true := by
  induction l generalizing s with
  | nil => exact h
  | cons a r ih => exact ih _ (hf s a h)

theorem atSled_wf (s : State) (w pa : Nat) (h : Memory.wf s.mem = true) : Memory.wf (s.atSled w pa).mem = true :=
  foldl_wf _ takeBack_wf _ s h

theorem redo_wf (s : State) (sec : Nat) (l : List MemReq) (h : Memory.wf s.mem = true) :
    Memory.wf (s.redo sec l).1.mem = true := by
  induction l generalizing s with
  | nil => exact h
  | cons r rest ih =>
    unfold State.redo
    by_cases hr : (r.write && r.applied && r.pa / 64 == sec) = true
    · rw [if_pos hr]; exact ih _ (applyReq_wf s r h)
    · rw [if_neg hr]; exact ih _ h

/-- A request that a window admits keeps the canonical form: what waits is taken back, the request takes its effect, and what
waits is put over it again. -/
theorem perform_wf (s : State) (w : Nat) (r : MemReq) (h : Memory.wf s.mem = true) : Memory.wf (s.perform w r).1.mem = true := by
  have hb := atSled_wf s w r.pa h
  unfold State.perform
  dsimp only
  apply redo_wf
  split
  · exact hb
  · split
    · exact applyReq_wf _ r hb
    · exact applyNow_wf _ r hb

/-- A unit's read leaves memory. -/
theorem unitRead_mem (s : State) (q src job pa : Nat) : (s.unitRead q src job pa).mem = s.mem := rfl

/-- A unit's write keeps the canonical form, in a core store as in main memory. -/
theorem unitWrite_wf (s : State) (r : MemReq) (h : Memory.wf s.mem = true) : Memory.wf (s.unitWrite r).mem = true := by
  unfold State.unitWrite
  split
  · exact applyNow_wf s _ h
  · exact performReq_wf s r h

theorem zeroTable_wf (s : State) (pa : Nat) (h : Memory.wf s.mem = true) : Memory.wf (s.zeroTable pa).mem = true := by
  unfold State.zeroTable
  generalize List.range 64 = l
  induction l generalizing s with
  | nil => exact h
  | cons i r ih => exact ih _ (unitWrite_wf s _ h)

theorem wipe_wf (s : State) (p : Nat → Bool) (h : Memory.wf s.mem = true) : Memory.wf (s.wipe p).mem = true :=
  sparseWf_filter _ _ _ h

theorem domains_wf (s : State) (ph : Phase) : Memory.wf (s.domains ph).mem = true := rfl

/-! ### Reading after writing -/

/-- Bytes that a write does not name keep their values. -/
theorem byte_setBytes_ne (s : State) (pa a : Nat) (l : List (Option Byte)) (h : a < pa ∨ pa + l.length ≤ a) :
    (s.setBytes pa l).byte a = s.byte a := by
  induction l generalizing s pa with
  | nil => rfl
  | cons x r ih =>
    have hr : a < pa + 1 ∨ pa + 1 + r.length ≤ a := by simp at h; omega
    have ha : a ≠ pa := by simp at h; omega
    cases x with
    | none => exact ih s (pa + 1) hr
    | some b =>
      show ((s.setByte pa b).setBytes (pa + 1) r).byte a = _
      rw [ih _ (pa + 1) hr, State.byte_setByte_ne _ _ _ _ ha]

/-- Bytes that a write names read as written; those that it leaves out keep their values. -/
theorem byte_setBytes (s : State) (pa i : Nat) (l : List (Option Byte)) (h : i < l.length) :
    (s.setBytes pa l).byte (pa + i) = (l[i]'h).getD (s.byte (pa + i)) := by
  induction l generalizing s pa i with
  | nil => simp at h
  | cons x r ih =>
    cases i with
    | zero =>
      cases x with
      | none => exact byte_setBytes_ne s (pa + 1) pa r (by omega)
      | some b =>
        show ((s.setByte pa b).setBytes (pa + 1) r).byte pa = b
        rw [byte_setBytes_ne _ _ _ _ (by omega), State.byte_setByte_self]
    | succ j =>
      have hj : j < r.length := by simpa using h
      have e : pa + (j + 1) = pa + 1 + j := by omega
      cases x with
      | none =>
        show (s.setBytes (pa + 1) r).byte (pa + (j + 1)) = _
        rw [e, ih s (pa + 1) j hj]; simp
      | some b =>
        show ((s.setByte pa b).setBytes (pa + 1) r).byte (pa + (j + 1)) = _
        rw [e, ih _ (pa + 1) j hj, State.byte_setByte_ne _ _ _ _ (by omega)]; simp

end Sys2Proof.Machine
end

