-- ==== Sys2Proof/Laws/Reads.lean ====
section
/-!
SUPPORT. Laws/Reads.lean: what a unit reads of memory does not depend on the registers.
-/

namespace Sys2Proof.Machine

@[simp] theorem elem_put (s : State) (f : Fld) (v : Nat) (b : Bound) (d : TD) (ix : List Nat) :
    (s.put f v).elem b d ix = s.elem b d ix := rfl
@[simp] theorem elem_inc (s : State) (f : Fld) (n : Nat) (b : Bound) (d : TD) (ix : List Nat) :
    (s.inc f n).elem b d ix = s.elem b d ix := rfl
@[simp] theorem value_put (s : State) (f : Fld) (v : Nat) (b : Bound) (d : TD) (ix : List Nat) :
    (s.put f v).value b d ix = s.value b d ix := rfl
@[simp] theorem value_inc (s : State) (f : Fld) (n : Nat) (b : Bound) (d : TD) (ix : List Nat) :
    (s.inc f n).value b d ix = s.value b d ix := rfl
@[simp] theorem ints_put (s : State) (f : Fld) (v : Nat) (b : Bound) (d : TD) : (s.put f v).ints b d = s.ints b d := rfl
@[simp] theorem ints_inc (s : State) (f : Fld) (n : Nat) (b : Bound) (d : TD) : (s.inc f n).ints b d = s.ints b d := rfl
@[simp] theorem poisonedElems_put (s : State) (f : Fld) (v : Nat) (b : Bound) (d : TD) (l : List (List Nat)) :
    (s.put f v).poisonedElems b d l = s.poisonedElems b d l := rfl
@[simp] theorem poisonedElems_inc (s : State) (f : Fld) (n : Nat) (b : Bound) (d : TD) (l : List (List Nat)) :
    (s.inc f n).poisonedElems b d l = s.poisonedElems b d l := rfl
@[simp] theorem poisonFlt_put (s : State) (f : Fld) (v : Nat) (b : Bound) (l : List (Nat × TD)) :
    (s.put f v).poisonFlt b l = s.poisonFlt b l := rfl
@[simp] theorem poisonFlt_inc (s : State) (f : Fld) (n : Nat) (b : Bound) (l : List (Nat × TD)) :
    (s.inc f n).poisonFlt b l = s.poisonFlt b l := rfl
@[simp] theorem mergePoison_put (s : State) (f : Fld) (v : Nat) (b : Bound) (i : Insn) (pos : List Nat) (r : Nat) :
    (s.put f v).mergePoison b i pos r = s.mergePoison b i pos r := rfl
@[simp] theorem mergePoison_inc (s : State) (f : Fld) (n : Nat) (b : Bound) (i : Insn) (pos : List Nat) (r : Nat) :
    (s.inc f n).mergePoison b i pos r = s.mergePoison b i pos r := rfl
@[simp] theorem mergeElem_put (s : State) (f : Fld) (v : Nat) (b : Bound) (i : Insn) (pos : List Nat) (r e : Nat) :
    (s.put f v).mergeElem b i pos r e = s.mergeElem b i pos r e := rfl
@[simp] theorem mergeElem_inc (s : State) (f : Fld) (n : Nat) (b : Bound) (i : Insn) (pos : List Nat) (r e : Nat) :
    (s.inc f n).mergeElem b i pos r e = s.mergeElem b i pos r e := rfl
@[simp] theorem copyRow_put (s : State) (f : Fld) (v : Nat) (b : Bound) (a d : TD) (x y : Nat) :
    (s.put f v).copyRow b a d x y = s.copyRow b a d x y := rfl
@[simp] theorem copyRow_inc (s : State) (f : Fld) (n : Nat) (b : Bound) (a d : TD) (x y : Nat) :
    (s.inc f n).copyRow b a d x y = s.copyRow b a d x y := rfl
@[simp] theorem hotRow_put (s : State) (f : Fld) (v : Nat) (b : Bound) (i : Insn) (r : Nat) :
    (s.put f v).hotRow b i r = s.hotRow b i r := rfl
@[simp] theorem hotRow_inc (s : State) (f : Fld) (n : Nat) (b : Bound) (i : Insn) (r : Nat) :
    (s.inc f n).hotRow b i r = s.hotRow b i r := rfl

/-- Beryl takes an instruction by writing registers alone, so that every operand reads as before (R156). -/
theorem berylBegin_reads (s : State) (n : Nat) (i : Insn) (k : Nat) :
    s.berylBegin n i k =
      ((s.put (Reg.CORE.BERYL_TAG n) i.tag).put (Reg.CORE.BERYL_PHASE n) (if i.op = 0x25 then 4 else 1)).inc
        (Reg.CORE.BERYL_BUSY n) k :=
  rfl

end Sys2Proof.Machine
end

