-- ==== Sys2Proof/Laws/Time.lean ====
section
/-!
SUPPORT. Laws/Time.lean: what the passing of device time changes.
-/

namespace Sys2Proof.Machine

/-- A fold whose step keeps a part of the state keeps it. -/
theorem foldl_part {α β : Type} (g : State → β) (f : State → α → State) (hf : ∀ s a, g (f s a) = g s) (l : List α) (s : State) :
    g (l.foldl f s) = g s := by
  induction l generalizing s with
  | nil => rfl
  | cons a r ih => rw [List.foldl_cons, ih, hf]

/-- Noting since when a core may be held changes nothing else of any core. -/
theorem noteIdle_core (s : State) (n m : Nat) :
    ((s.noteIdle n).core m).window = (s.core m).window ∧ ((s.noteIdle n).core m).slots = (s.core m).slots ∧
      ((s.noteIdle n).core m).fetched = (s.core m).fetched := by
  unfold State.noteIdle
  by_cases h : m = n
  · subst h; simp
  · simp [State.core_setCore_ne _ _ _ _ h]

/-- What passTo changes: TIME.NOW, the counters of waiting, and since when cores are idle; g is any part of the state that
none of these touches. -/
theorem passTo_part {β : Type} (g : State → β) (s : State) (t : Nat) (hi : ∀ s n, g (State.noteIdle s n) = g s)
    (ha : ∀ (s : State) n k, g (s.inc (Reg.CORE.ADMIT_WAIT_NS n) k) = g s)
    (hd : ∀ (s : State) d k, g (s.inc (Reg.DOOR.LEDGER_FULL_NS d) k) = g s)
    (hr : ∀ (s : State) k, g (s.inc Reg.SNAP.RESERVE_FULL_NS k) = g s) (hn : ∀ (s : State) k, g (s.put Reg.TIME.NOW k) = g s) :
    g (s.passTo t) = g s := by
  unfold State.passTo
  dsimp only
  by_cases h : s.now < min t maxTime
  · rw [if_pos h]
    refine (hn _ _).trans ?_
    have h3 : ∀ (x : State) (c : Prop) [Decidable c] k, g (if c then x.inc Reg.SNAP.RESERVE_FULL_NS k else x) = g x := by
      intro x c _ k; split
      · exact hr x k
      · rfl
    refine (h3 _ _ _).trans ?_
    refine (foldl_part g _ (fun x e => ?_) _ _).trans ?_
    · exact hd x _ _
    refine (foldl_part g _ (fun x n => ?_) _ _).trans ?_
    · split
      · exact ha x n _
      · rfl
    exact foldl_part g _ hi _ _
  · rw [if_neg h]

/-- Device time after it has passed to a later time: it never goes above its last value (R33). -/
theorem passTo_now (s : State) (t : Nat) (h : s.now < min t maxTime) : (s.passTo t).now = min t maxTime := by
  unfold State.passTo
  dsimp only
  rw [if_pos h]
  refine (State.get_put_self _ _ _).trans (Nat.mod_eq_of_lt ?_)
  have : min t maxTime ≤ maxTime := Nat.min_le_right _ _
  simp only [maxTime] at *
  show _ < 2 ^ 64
  omega

end Sys2Proof.Machine
end

