-- ==== Sys2Proof/Tests/Slice0.lean ====
section
/-!
SUPPORT. Tests/Slice0.lean: the terms that WellFormed refuses; small states on which the statements' hypotheses hold (a
theorem witness_<statement> for each statement that has hypotheses, with every clause); and single steps whose results the
spec's tables and formulas give.
-/

namespace Sys2Proof.Tests

set_option Elab.async false

open Sys2Proof.Machine

/-! ### Helpers -/

/-- An instruction word: an opcode and the bits of its lower half. -/
def word (op bits : Nat) : BitVec 128 := BitVec.ofNat 128 (op * 2 ^ 120 + bits)

/-- A window entry of tag 1. -/
def insn (op bits : Nat) : Insn := mkInsn 1 0x1000 (word op bits)

/-- A descriptor: base, the flags word with type and rank, and the dimensions. -/
def desc (base type flags : Nat) (dims : List (Nat × Nat)) : BitVec 1024 :=
  BitVec.ofNat 1024 (base + (type + dims.length * 2 ^ 8 + flags) * 2 ^ 64 +
    (dims.zipIdx.map fun e => e.1.1 * 2 ^ (8 * (16 + 4 * e.2)) + e.1.2 * 2 ^ (8 * (40 + 5 * e.2))).sum)

/-- The cached translation of one 2 MiB unit of job 1 to a physical address, readable and writable. -/
def page (src unit pa : Nat) : List XEnt :=
  [⟨src, 1, 3, unit / 2 ^ 27, 1⟩, ⟨src, 1, 2, unit / 2 ^ 18, 1⟩, ⟨src, 1, 1, unit / 2 ^ 9, 1⟩,
   ⟨src, 1, 0, unit, BitVec.ofNat 64 (pa + 0xF)⟩]

/-- Job 1 is valid and runs on core 0, with 1 GiB of main memory. -/
def base : State :=
  ({ State.reset with slices := page 0 1 csBase ++ page 0 2 (csBase + 0x200000) } : State).puts
    [(Reg.CORE.STREAM_STATE 0, 1), (Reg.CORE.STREAM_JOB 0, 1), (Reg.XLAT.JOB_VALID 1, 1), (Reg.XLAT.MEM_TOP, 2 ^ 30)]

/-- Core 0 with a window. -/
def win (l : List Insn) : State := base.setCore 0 { CoreSt.zero with window := l }

/-- The conditions of State.goes, to be decided one by one. -/
theorem goes_of {s : State} {n op : Nat} {i : Insn} (h : s.phase = .up ∧ s.streamState n = 1 ∧
    s.oldest n (queueOf op) = some i ∧ i.op = op ∧ s.timely i = true ∧ s.accepts n op i = true ∧ s.hazard n i = false ∧
    i.bad = false ∧ s.lateness i ≤ 2) : s.goes n op i :=
  ⟨h.1, ⟨h.2.1, h.2.2.1, h.2.2.2.1, h.2.2.2.2.1, h.2.2.2.2.2.1⟩, h.2.2.2.2.2.2⟩

/-- The right side of a result. -/
def val {α β : Type} (d : β) : α ⊕ β → β
  | .inl _ => d
  | .inr b => b

theorem inr_of {σ α β : Type} (d : β) {x : σ × (α ⊕ β)} (h : x.2.isRight = true) : x = (x.1, .inr (val d x.2)) := by
  obtain ⟨s, a | b⟩ := x
  · cases h
  · rfl

theorem none_of {σ α : Type} {x : σ × Option α} (h : x.2.isNone = true) : x = (x.1, none) := by
  obtain ⟨s, _ | b⟩ := x
  · rfl
  · cases h

theorem done_of {σ α : Type} {x : σ × α × Bool × Acc} (h : x.2.2 = (false, .done)) : x = (x.1, x.2.1, false, .done) := by
  obtain ⟨s, a, b, c⟩ := x
  cases h
  rfl

theorem pair_of {α β : Type} {x : α × β} {b : β} (h : x.2 = b) : x = (x.1, b) := by
  cases x
  cases h
  rfl

theorem last_of {α β γ : Type} {x : α × β × γ} {c : γ} (h : x.2.2 = c) : x = (x.1, x.2.1, c) := by
  obtain ⟨a, b, d⟩ := x
  cases h
  rfl

theorem right_of {α β : Type} (d : β) {x : α ⊕ β} (h : x.isRight = true) : x = .inr (val d x) := by
  obtain a | b := x
  · cases h
  · rfl

theorem no_some {α : Type} {o : Option α} {P : α → Prop} (h : o = none) : ∀ b, o = some b → P b := by
  intro b hb
  rw [h] at hb
  cases hb

theorem inl_of {σ α β : Type} (d : α) {x : σ × (α ⊕ β)} (h : x.2.isLeft = true) : x = (x.1, .inl (val d x.2.swap)) := by
  obtain ⟨s, a | b⟩ := x
  · rfl
  · cases h

/-! ### The terms that WellFormed refuses -/

/-- A header that announces as many sectors, with the low bits of its address. -/
def head (sectors low : Nat) : Hdr := ⟨false, false, BitVec.ofNat 6 sectors, 0, 0, 0, 0, 0, BitVec.ofNat 57 low, 0⟩

/-- A payload of another length than the header announces (R310). -/
theorem refuses_length :
    (Instr.write 0 (head 1 0) []).wellFormed = false ∧ (Instr.writeAck 0 (head 1 0)).wellFormed = false ∧
    (Instr.latchPacket 0 (head 1 0)).wellFormed = false ∧ (Instr.retract 0 (head 1 0)).wellFormed = false ∧
    (Instr.close 0 (head 1 0)).wellFormed = false ∧ (Instr.command 0 (head 1 1) []).wellFormed = false ∧
    (Instr.completion 0 (head 1 2) []).wellFormed = false ∧ (Instr.record 0 (head 1 3) []).wellFormed = false ∧
    (Instr.kill 0 (head 1 4) []).wellFormed = false ∧ (Instr.hostEdge 0 (head 1 5) []).wellFormed = false ∧
    (Instr.event 0 (head 1 6) []).wellFormed = false ∧ (Instr.summary 0 (head 1 1) []).wellFormed = false ∧
    (Instr.token 0 (head 1 2) [] 0 0 0).wellFormed = false ∧ (Instr.returnPacket 0 (head 1 3) []).wellFormed = false ∧
    (Instr.contrib 0 (head 1 1) []).wellFormed = false ∧ (Instr.report 0 (head 1 2) []).wellFormed = false ∧
    (Instr.verdict 0 (head 1 3) []).wellFormed = false ∧ (Instr.relay 0 1 (head 1 0) []).wellFormed = false := by
  decide

/-- An address that does not carry the KIND of the row (R351, R391, R505), and a relayed packet of no type. -/
theorem refuses_kind :
    (Instr.command 0 (head 0 0) []).wellFormed = false ∧ (Instr.completion 0 (head 0 1) []).wellFormed = false ∧
    (Instr.record 0 (head 0 2) []).wellFormed = false ∧ (Instr.kill 0 (head 0 3) []).wellFormed = false ∧
    (Instr.hostEdge 0 (head 0 4) []).wellFormed = false ∧ (Instr.event 0 (head 0 5) []).wellFormed = false ∧
    (Instr.summary 0 (head 0 2) []).wellFormed = false ∧ (Instr.token 0 (head 0 1) [] 0 0 0).wellFormed = false ∧
    (Instr.returnPacket 0 (head 0 4) []).wellFormed = false ∧ (Instr.contrib 0 (head 0 2) []).wellFormed = false ∧
    (Instr.report 0 (head 0 3) []).wellFormed = false ∧ (Instr.verdict 0 (head 0 4) []).wellFormed = false ∧
    (Instr.relay 0 0 (head 0 0) []).wellFormed = false ∧ (Instr.relay 0 10 (head 0 0) []).wellFormed = false := by
  decide

/-! ### Witnesses: instructions -/

/-- jmp with COND 0, 3 and 1; the loop counter named 15, the highest. -/
theorem witness_ControlInstructionsRun :
    (win [insn 0 0]).goes 0 0 (insn 0 0) ∧ (win [insn 1 0]).goes 0 1 (insn 1 0) ∧ (win [insn 4 0]).goes 0 4 (insn 4 0) ∧
    (win [insn 3 (15 * 2 ^ 32 + 5)]).goes 0 3 (insn 3 (15 * 2 ^ 32 + 5)) ∧
    (win [insn 2 1]).goes 0 2 (insn 2 1) ∧ (insn 2 1).mod 35 34 = 0 ∧
    (win [insn 2 (3 * 2 ^ 34 + 15 * 2 ^ 20)]).goes 0 2 (insn 2 (3 * 2 ^ 34 + 15 * 2 ^ 20)) ∧
    (win [insn 2 (3 * 2 ^ 34 + 15 * 2 ^ 20)]).get (Reg.CORE.LOOP_COUNT 0 15) = 0 ∧
    ((win [insn 2 (3 * 2 ^ 34 + 15 * 2 ^ 20)]).put (Reg.CORE.LOOP_COUNT 0 15) 2).goes 0 2 (insn 2 (3 * 2 ^ 34 + 15 * 2 ^ 20)) ∧
    (win [insn 2 (2 ^ 34 + 9 * 2 ^ 20)]).goes 0 2 (insn 2 (2 ^ 34 + 9 * 2 ^ 20)) := by
  refine ⟨goes_of ?_, goes_of ?_, goes_of ?_, goes_of ?_, goes_of ?_, ?_, goes_of ?_, ?_, goes_of ?_, goes_of ?_⟩ <;>
    decide +kernel

/-- A slot table of one descriptor, INT64 vectors and a list of generator states; descriptors of rank 1 and 6. -/
def dl : Insn := { insn 8 0 with dA := desc 0x200000 10 0 [(128, 1)] }
def dm : Insn := { insn 9 3 with dA := desc 0x200000 10 0 [(128, 1)] }
def dm6 : Insn := { insn 9 (2 * 2 ^ 34 + 2 ^ 34 - 1) with dA := desc 0x200000 10 0 (List.replicate 6 (2, 1)) + BitVec.ofNat 1024 (64 * 2 ^ 576) }
def sm : Insn := { insn 11 (2 * 2 ^ 30 + 7) with dA := desc 0x200000 13 0 [(1, 1)] }
def ds : Insn := { insn 10 0 with dA := desc 0x200000 10 0 [(128, 1)], dX := desc 0x400000 13 0 [(4, 1)] }
def rl (op : Nat) : Insn := { insn op (3 * 2 ^ 20) with dA := desc 0x200000 13 0 [(4, 1)], dD := desc 0x200000 13 0 [(4, 1)] }

theorem witness_DescriptorInstructionsRun :
    (∃ s' data, (win [dl]).goes 0 8 dl ∧ dloadFlt dl 1 = none ∧
      ((win [dl]).sent 0 dl).readVa 0 1 (dl.td roleA).base 128 = (s', data, false, .done)) ∧
    ((win [dm]).goes 0 9 dm ∧ dm.mod 35 34 = 0 ∧
      ((0x2000C0 : Nat) : Int) = (bitsOf dm.dA.toNat 56 0 : Int) + 64 * signed 34 (dm.mod 33 0)) ∧
    ((win [dm6]).goes 0 9 dm6 ∧ dm6.mod 35 34 = 2 ∧ 1 ≤ (parseTD dm.dA).rank ∧ (parseTD dm6.dA).rank = 6 ∧
      ((0x200000 - 64 : Nat) : Int) = (bitsOf dm6.dA.toNat 56 0 : Int) + 64 * signed 34 (dm6.mod 33 0) ∧
      ((0 : Nat) : Int) = ((dm6.dA.toNat / 2 ^ 576 % 2 ^ 57 : Nat) : Int) + 64 * signed 34 (dm6.mod 33 0)) ∧
    (∃ s' v, (win [sm]).goes 0 11 sm ∧ sm.mod 31 30 = 2 ∧ (sm.td roleA).check roleA 1 [0x0D] false false false = none ∧
      (sm.td roleA).rank = 1 ∧ 1 ≤ (sm.td roleA).size 0 ∧
      ((win [sm]).sent 0 sm).readElem 0 roleA (sm.td roleA) 0 = (s', .inr v) ∧ v < 2 ^ 63 ∧ v + sm.mod 25 0 < 2 ^ 64) ∧
    (∃ s' v, (win [ds]).goes 0 10 ds ∧ dsetFlt ds 1 = none ∧
      ((win [ds]).sent 0 ds).readElem 0 roleX (ds.td roleX) 0 = (s', .inr v)) ∧
    ((win [insn 11 5]).goes 0 11 (insn 11 5) ∧ (win [insn 11 5]).now + 5 < 2 ^ 64) ∧
    (((win [insn 11 (2 ^ 30 + 15 * 2 ^ 26)]).put (Reg.CORE.LSLOT_VALID 0) 0x8000).goes 0 11 (insn 11 (2 ^ 30 + 15 * 2 ^ 26)) ∧
      bitOf (((win [insn 11 (2 ^ 30 + 15 * 2 ^ 26)]).put (Reg.CORE.LSLOT_VALID 0) 0x8000).get (Reg.CORE.LSLOT_VALID 0)) 15 = true) ∧
    (win [insn 11 (3 * 2 ^ 30)]).goes 0 11 (insn 11 (3 * 2 ^ 30)) ∧
    (∃ s', (win [rl 12]).goes 0 12 (rl 12) ∧ rngFlt (rl 12) roleA 1 = none ∧
      ((win [rl 12]).sent 0 (rl 12)).loadLanes 0 (rl 12) ((rl 12).td roleA) (List.range 4) = (s', none)) ∧
    (∃ s' s'' b, (win [rl 13]).goes 0 13 (rl 13) ∧ rngFlt (rl 13) roleD 1 = none ∧
      ((win [rl 13]).sent 0 (rl 13)).bindTD 0 1 .anywhere roleD { (rl 13).td roleD with sizes := [4] } false true = (s'', .inr b) ∧
      s''.storeLanes 0 (rl 13) { (rl 13).td roleD with sizes := [4] } (List.range 4) = (s', none)) := by
  refine ⟨⟨_, _, goes_of ?_, ?_, done_of ?_⟩, ⟨goes_of ?_, ?_⟩, ⟨goes_of ?_, ?_⟩,
    ⟨_, _, goes_of ?_, ?_, ?_, ?_, ?_, inr_of 0 ?_, ?_⟩, ⟨_, _, goes_of ?_, ?_, inr_of 0 ?_⟩, ⟨goes_of ?_, ?_⟩,
    ⟨goes_of ?_, ?_⟩, goes_of ?_, ⟨_, goes_of ?_, ?_, none_of ?_⟩,
    ⟨_, _, _, goes_of ?_, ?_, inr_of [] ?_, none_of ?_⟩⟩ <;> decide +kernel

/-- Operands of Garnet and Beryl: D in unit 3, A in unit 1, B in unit 2, X in unit 4. -/
def work (op bits : Nat) (d a b x : BitVec 1024) : Insn := { insn op bits with dD := d, dA := a, dB := b, dX := x }
def atD := desc 0x600000
def atA := desc 0x200000
def atB := desc 0x400000
def atX := desc 0x800000

/-- Core 0 with one instruction, and four pages in each of its units' slices and its mover's. -/
def fourPages (src : Nat) : List XEnt :=
  page src 1 csBase ++ page src 2 (csBase + 0x200000) ++ page src 3 (csBase + 0x400000) ++ page src 4 (csBase + 0x600000)
def with4 (i : Insn) : State :=
  { win [i] with slices := [0, sliceOf 2 0, sliceOf 3 0, sliceOf 4 0, 0x500].flatMap fourPages }

def mm : Insn := work 0x10 (2 ^ 22) (atD 1 0 [(2, 1), (2, 2)]) (atA 1 0 [(3, 1), (2, 3)]) (atB 1 0 [(3, 1), (2, 3)]) 0
/-- A gmm whose starting value comes from X. -/
def mmx : Insn :=
  work 0x10 (2 ^ 22 + 2 ^ 16) (atD 1 0 [(2, 1), (2, 2)]) (atA 1 0 [(3, 1), (2, 3)]) (atB 1 0 [(3, 1), (2, 3)]) (atX 2 0 [(2, 1), (2, 2)])
def ga : Insn := work 0x18 (3 * 2 ^ 4) (atD 1 0 [(3, 1)]) (atA 2 0 [(3, 1)]) (atB 3 0 [(3, 1)]) 0
def tl : Insn := work 0x19 1 0 (atA 0x0A 0 [(3136, 1)]) 0 0

theorem witness_GarnetInstructionsRun :
    (∃ s' b, (with4 mm).goes 0 0x10 mm ∧ gmmFlt mm 1 = none ∧
      ((with4 mm).sent 0 mm).bindAll (sliceOf 2 0) 1 (.own 0) (gmmOperands mm) = (s', .inr b) ∧ gmmAlias b mm = none ∧
      s'.tableFlt 0 mm = none ∧ (mm.td roleD).count ≠ 0 ∧ mm.mod 16 16 = 0 ∧
      s'.poisonFlt b [(roleA, mm.td roleA), (roleB, mm.td roleB)] = none) ∧
    (∃ s' b, (with4 mmx).goes 0 0x10 mmx ∧ gmmFlt mmx 1 = none ∧
      ((with4 mmx).sent 0 mmx).bindAll (sliceOf 2 0) 1 (.own 0) (gmmOperands mmx) = (s', .inr b) ∧ gmmAlias b mmx = none ∧
      s'.tableFlt 0 mmx = none ∧ (mmx.td roleD).count ≠ 0 ∧ mmx.mod 16 16 = 1 ∧
      s'.poisonFlt b [(roleA, mmx.td roleA), (roleB, mmx.td roleB), (roleX, mmx.td roleX)] = none) ∧
    (∃ s' b, (with4 ga).goes 0 0x18 ga ∧ gactFlt ga 1 = none ∧
      ((with4 ga).sent 0 ga).bindAll (sliceOf 4 0) 1 (.own 0) (⟨roleD, ga.td roleD, false, true⟩ ::
        (gactSources ga).map fun r => ⟨r, ga.td r, true, (ga.td r).same (ga.td roleD)⟩) = (s', .inr b) ∧
      s'.tableFlt 0 ga = none ∧ s'.poisonFlt b ((gactSources ga).map fun r => (r, ga.td r)) = none) ∧
    (∃ s' b, (with4 tl).goes 0 0x19 tl ∧ tloadFlt tl 1 = none ∧
      ((with4 tl).sent 0 tl).bindAll (sliceOf 4 0) 1 (.own 0) [⟨roleA, tl.td roleA, true, false⟩] = (s', .inr b) ∧
      s'.poisonFlt b [(roleA, tl.td roleA)] = none ∧
      -126 ≤ signed 16 (natOf (slice 0 2 (s'.tableImage b (tl.td roleA)))) ∧
      signed 16 (natOf (slice 0 2 (s'.tableImage b (tl.td roleA)))) ≤ 112) := by
  refine ⟨⟨_, _, goes_of ?_, ?_, inr_of [] ?_, ?_, ?_, ?_⟩, ⟨_, _, goes_of ?_, ?_, inr_of [] ?_, ?_, ?_, ?_⟩,
    ⟨_, _, goes_of ?_, ?_, inr_of [] ?_, ?_, ?_⟩, ⟨_, _, goes_of ?_, ?_, inr_of [] ?_, ?_, ?_, ?_⟩⟩ <;> decide +kernel

theorem takes_of {s : State} {op : Nat} {i : Insn} {pre : Option Flt}
    (h : s.phase = .up ∧ s.streamState 0 = 1 ∧ s.oldest 0 (queueOf op) = some i ∧ i.op = op ∧ s.timely i = true ∧
      s.accepts 0 op i = true ∧ s.hazard 0 i = false ∧ i.bad = false ∧ s.lateness i ≤ 2)
    (hc : firstFlt (pre :: (i.operands.filter fun o => o.2.2).map fun o => (i.td o.1).checkWrite o.1) = none)
    (hb : ((s.sent 0 i).bindAll (sliceOf (unitOfOp i.op) 0) (s.jobOf 0) (.own 0) i.opds).2.isRight = true)
    (ha : berylAlias (val [] ((s.sent 0 i).bindAll (sliceOf (unitOfOp i.op) 0) (s.jobOf 0) (.own 0) i.opds).2) i = none) :
    s.berylTakes 0 op i pre ((s.sent 0 i).bindAll (sliceOf (unitOfOp i.op) 0) (s.jobOf 0) (.own 0) i.opds).1
      (val [] ((s.sent 0 i).bindAll (sliceOf (unitOfOp i.op) 0) (s.jobOf 0) (.own 0) i.opds).2) :=
  ⟨goes_of h, hc, inr_of [] hb, ha⟩

def m24 : List (Nat × Nat) := [(4, 1), (2, 4)]
def bg : Insn := work 0x20 0 (atD 1 0 m24) (atA 1 0 [(4, 1), (3, 4)]) (atB 0x0C 0 [(2, 1)]) 0
def sa : Insn := work 0x21 4 (atD 1 0 [(4, 1), (3, 4)]) (atA 1 0 m24) (atB 0x0C 0 [(2, 1)]) 0
def sc : Insn := work 0x21 0 (atD 1 0 [(4, 1), (3, 4)]) (atA 1 0 [(4, 1), (1, 4)]) (atB 0x0C 0 [(1, 1)]) 0
def so : Insn := work 0x22 0 (atD 0x0C 0 [(3, 1)]) 0 (atB 0x0C 0 [(3, 1)]) 0
def gr : Insn := work 0x23 0 (atD 0x0C 0 [(4, 1)]) 0 (atB 0x0C 0 [(4, 1)]) (atX 0x0D 0 [(34, 1)])
def ra : Insn := work 0x24 0 (atD 0x0C 0 [(2, 1), (1, 2)]) 0 (atB 0x0C 0 [(2, 1)]) 0
def un : Insn := work 0x25 0 (atD 2 0 [(2, 1), (2, 2)]) (atA 2 (2 ^ 25) [(2, 1), (2, 2)]) 0 0
def au : Insn := work 0x26 0 (atD 0x0C 0 [(4, 1)]) (atA 1 0 [(4, 1), (3, 4)]) (atB 0x0D 0 [(34, 1)]) (atX 1 0 [(1, 1)])

/-- The header of a bitmap tile of BF16 with 2 rows and 2 columns and no stored value (R142, R143). -/
def emptyTile : Nat :=
  1 + 1 * 2 ^ 30 + 1 * 2 ^ 35 + 2 * 2 ^ 40 + 144 * 2 ^ 80 + crc32c (List.replicate 128 0) * 2 ^ 96
def withTile : State := (with4 un).setBytes csBase ((bytesOf 16 emptyTile).map some)

theorem witness_BerylInstructionsRun :
    (∃ s' b, (with4 bg).berylTakes 0 0x20 bg (bgatherFlt bg 1) s' b ∧
      s'.poisonFlt b [(roleB, bg.td roleB)] = none ∧
      badIndex (s'.ints b (bg.td roleB)) (s'.gatherMask b bg) (bg.td roleA).rows = none ∧
      killSectors b (s'.gatherRows b bg (s'.ints b (bg.td roleB)).length) = []) ∧
    (∃ s' b, (with4 sa).berylTakes 0 0x21 sa (bscatterFlt sa 1) s' b ∧
      s'.poisonFlt b [(roleB, sa.td roleB)] = none ∧ badIndex (s'.ints b (sa.td roleB)) [] (sa.td roleD).rows = none ∧
      sa.mod 2 2 = 1 ∧ (∀ r ∈ namedRows (s'.ints b (sa.td roleB)) (sa.td roleD).rows,
        s'.mergePoison b sa (positionsOf (s'.ints b (sa.td roleB)) r) r = none)) ∧
    (∃ s' b, (with4 sc).berylTakes 0 0x21 sc (bscatterFlt sc 1) s' b ∧
      s'.poisonFlt b [(roleB, sc.td roleB)] = none ∧ badIndex (s'.ints b (sc.td roleB)) [] (sc.td roleD).rows = none ∧
      sc.mod 2 2 = 0 ∧ dupCount (s'.ints b (sc.td roleB)) (sc.td roleD).rows = 0 ∧
      killSectors b (s'.scatterRows b sc (s'.ints b (sc.td roleB))) = []) ∧
    (∃ s' b, (with4 so).berylTakes 0 0x22 so (bsortFlt so 1) s' b ∧ s'.poisonFlt b [(roleB, so.td roleB)] = none) ∧
    (∃ s' b, (with4 gr).berylTakes 0 0x23 gr (bgroupFlt gr 1) s' b ∧ s'.poisonFlt b [(roleB, gr.td roleB)] = none ∧
      (∀ p, p < (s'.groupCounts b gr).length → 0 ≤ (s'.groupCounts b gr).getD p 0) ∧
      (∀ r ∈ (gr.placed (s'.groupCounts b gr)).1 ++ s'.auditTail 0 gr (s'.groupCounts b gr), r < 2 ^ 31)) ∧
    (∃ s' b, (with4 ra).berylTakes 0 0x24 ra (braggedFlt ra 1) s' b ∧ s'.poisonFlt b [(roleB, ra.td roleB)] = none ∧
      badOffset (s'.ints b (ra.td roleB)) = none ∧
      badIndex (s'.raggedPerm b ra) [] ((s'.ints b (ra.td roleB)).length - 1) = none ∧
      badColumn (ra.td roleD) (s'.ints b (ra.td roleB)) (s'.raggedPerm b ra) false = none) ∧
    (∃ s' b, withTile.berylTakes 0 0x25 un (bunpackFlt un 1) s' b ∧
      (tilesOf (un.td roleA)).length = 1 ∧ ∀ e ∈ (tilesOf (un.td roleA)).zipIdx, s'.tileFlt b un e = none) ∧
    (∃ s' b, (with4 au).berylTakes 0 0x26 au (bauditFlt au 1) s' b ∧
      s'.poisonFlt b [(roleB, au.td roleB), (roleX, au.td roleX), (roleD, au.td roleD)] = none ∧
      s'.elem b (au.td roleB) [32] + s'.elem b (au.td roleB) [33] ≤ (au.td roleA).rows ∧
      s'.elem b (au.td roleB) [32] + s'.elem b (au.td roleB) [33] ≤ (au.td roleD).count ∧
      s'.poisonedElems b (au.td roleA) ((((List.range (s'.elem b (au.td roleB) [33])).map
        (s'.elem b (au.td roleB) [32] + ·)).map au.rowIxs).flatten) = none) := by
  refine ⟨⟨_, _, takes_of ?_ ?_ ?_ ?_, ?_⟩, ⟨_, _, takes_of ?_ ?_ ?_ ?_, ?_⟩, ⟨_, _, takes_of ?_ ?_ ?_ ?_, ?_⟩,
    ⟨_, _, takes_of ?_ ?_ ?_ ?_, ?_⟩, ⟨_, _, takes_of ?_ ?_ ?_ ?_, ?_, ?_⟩, ⟨_, _, takes_of ?_ ?_ ?_ ?_, ?_⟩,
    ⟨_, _, takes_of ?_ ?_ ?_ ?_, ?_⟩, ⟨_, _, takes_of ?_ ?_ ?_ ?_, ?_⟩⟩ <;> decide +kernel

def mc : Insn := work 0x30 (5 * 2 ^ 24) (atD 1 0 [(4, 1)]) (atA 1 0 [(4, 1)]) 0 0
def mcAt : State := (with4 mc).setCtx 0 5 0 (2 ^ 63 + 1)

/-- The transfer that mc starts. -/
def mcRun : Run :=
  ⟨0, 5, 0, 1, 1, mc.word, mc.dD, mc.dA, 0, 0, 0, 1, [], 0, [], [], 0, [], false, false, false, false, false⟩

/-- The channel of that transfer with no request on its line 31. -/
def mcPaced : State := ({ with4 mc with runs := [mcRun] } : State).setCtx 0 5 0 (2 ^ 63 + 2 ^ 62 + 31 * 2 ^ 57 + 1)

/-- The transfer with a burst open whose one read has still to go out, and another like it on channel 6, behind it. -/
def mcReading : Run := { mcRun with next := 1, bursts := [⟨1, 0, 1, [], [], [(0xC00000, 64)], []⟩], burstNo := 1 }
def mcAfter : Run := { mcReading with ch := 6, order := 1 }
def movers2 (x y : Run) : State := { with4 mc with runs := [x, y] }

theorem witness_MoversRun :
    (mcAt.goes 0 0x30 mc ∧ mcopyFlt mc 1 = none ∧ (mc.mod 17 17 = 1 → mcAt.members.contains (mc.mod 23 18) = true) ∧
      bitOf (mcAt.ctx 0 (mc.mod 35 24) 0) 63 = true ∧ bitsOf (mcAt.ctx 0 (mc.mod 35 24) 0) 5 0 = mcAt.jobOf 0) ∧
    (∃ s' pages, let s : State := { with4 mc with runs := [mcRun] }
     s.phase = .up ∧ s.run? 0 5 = some mcRun ∧ s.canCut mcRun = true ∧ s.noRequest mcRun = false ∧
      s.hasReads mcRun = false ∧ s.behind mcRun = false ∧ s.cutOff mcRun = false ∧
      s.bindParts mcRun.src mcRun.job (s.plan mcRun).parts [] = (s', .inr pages)) ∧
    (mcPaced.phase = .up ∧ mcPaced.run? 0 5 = some mcRun ∧ mcPaced.canCut mcRun = true ∧ mcPaced.noRequest mcRun = true ∧
      mcPaced.hasReads mcRun = false) ∧
    (let s := movers2 mcReading mcAfter
     (s.run? 0 5 = some mcReading ∧ s.hasReads mcReading = true ∧ s.behind mcReading = false) ∧
      (s.run? 0 6 = some mcAfter ∧ s.behind mcAfter = true ∧ s.hasReads mcAfter = true)) ∧
    (let s := movers2 mcReading { mcRun with ch := 6, order := 1 }
     s.run? 0 6 = some { mcRun with ch := 6, order := 1 } ∧ s.behind { mcRun with ch := 6, order := 1 } = true ∧
      s.canCut { mcRun with ch := 6, order := 1 } = true ∧ s.noRequest { mcRun with ch := 6, order := 1 } = false) ∧
    (base.phase = .up ∧ base.host.d3hot = false ∧ base.moverPresent 9 = true ∧
      base.get (Reg.MOVER.LINE_COUNT 9 31) + 65535 ≤ 65535) ∧
    base.get (Reg.MOVER.LINE_COUNT 9 31) + 65535 = 65535 ∧
    (base.put (Reg.MOVER.LINE_COUNT 9 31) 65535).get (Reg.MOVER.LINE_COUNT 9 31) + 1 = 65536 ∧
    base.chanIdle 9 (base.get (Reg.MOVER.CTX_SEL 9)) = true ∧ mcPaced.get (Reg.MOVER.CTX_SEL 0) = 0 ∧
    ((mcPaced.putChan 0 5 1 4).put (Reg.MOVER.CTX_SEL 0) 5).chanIdle 0 5 = false := by
  refine ⟨⟨goes_of ?_, ?_⟩, ⟨_, _, ?_, ?_, ?_, ?_, ?_, ?_, ?_, inr_of [] ?_⟩, ?_, ?_, ?_, ?_, ?_, ?_, ?_⟩ <;> decide +kernel

def mw : Insn := work 0x42 0 0 (atA 0x0D 0 [(1, 1)]) 0 (atX 0x0D 0 [(1, 1)])

theorem witness_SyncInstructionsRun :
    (win [insn 0x40 (0x3FFE * 2 ^ 20 + 2 ^ 8)]).goes 0 0x40 (insn 0x40 (0x3FFE * 2 ^ 20 + 2 ^ 8)) ∧
    (win [insn 0x41 (2047 * 2 ^ 25)]).goes 0 0x41 (insn 0x41 (2047 * 2 ^ 25)) ∧
    (∃ s1 s2 s3 pa kill snap a x, (with4 mw).goes 0 0x42 mw ∧ mwaitFlt mw 1 = none ∧
      (with4 mw).get (Reg.BARRIER.MON_ARMED (mw.mod 35 28)) ≠ 1 ∧
      ((with4 mw).sent 0 mw).xlat 0 1 (mw.td roleA).base true false = (s1, .ok pa kill snap) ∧ inHost pa = false ∧
      s1.readVa 0 1 (mw.td roleX).base 8 = (s2, x, false, .done) ∧ s2.readPa 0 1 pa 8 = (s3, a, false)) := by
  refine ⟨goes_of ?_, goes_of ?_, ⟨_, _, _, csBase, false, false, _, _, goes_of ?_, ?_, ?_, pair_of ?_, ?_, done_of ?_,
    last_of ?_⟩⟩ <;> decide +kernel

/-- An agput to bucket 3 of a run of job 1 that is open (1) or has its verdict (2). -/
def ap : Insn := work 0x50 (3 * 2 ^ 20) (atD 1 0 [(2, 1)]) (atA 1 0 [(2, 1)]) 0 (atX 2 0 [(2, 1), (2, 2)])
def agateOn (st : Nat) : List (Fld × Nat) :=
  [(Reg.AGATE.CTL_EN, 1), (Reg.AGATE.CTL_JOB, 1), (Reg.AGATE.STEP_STATE, st), (Reg.AGATE.BUCKET_VALID 3, 1),
   (Reg.AGATE.BUCKET_N 3, 2), (Reg.AGATE.BUCKET_OUT_TYPE 3, 1), (Reg.AGATE.BUCKET_CONTRIB_M1 3, 0)]

/-- The expert router's pages, the cores that dispatch, and expert 0 placed here. -/
def expPages : List XEnt := page 0x403 1 csBase ++ page 0x403 2 (csBase + 0x200000) ++
  page 0x403 3 (csBase + 0x400000) ++ page 0x403 4 (csBase + 0x600000) ++ page 0x403 5 (csBase + 0x800000)
def expOn (i : Insn) : State :=
  ({ with4 i with slices := expPages } : State).puts
    [(Reg.EXPERT.DISP_CORES, 1), (Reg.EXPERT.PLACE_VALID 0, 1), (Reg.EXPERT.PLACE_CAP 0, 4),
     (Reg.EXPERT.RETURN_BASE 0 1, 0xA00000)]
def xd : Insn := work 0x58 (2 ^ 20) (atD 0x0C 0 [(1, 1), (2, 1)]) (atA 1 0 [(16, 1), (2, 16)]) (atB 0x0C 0 [(1, 1), (2, 1)])
  (atX 1 0 [(1, 1), (2, 1)])
def xr : Insn := work 0x59 (2 ^ 20) (atD 1 0 [(16, 1), (4, 16)]) 0 0 (atX 0x0D 0 [(6, 1)])
def xt : Insn := work 0x5A (2 ^ 20) 0 (atA 1 0 [(16, 1), (4, 16)]) (atB 0x0D 0 [(2, 1)]) 0
def oneBatch : Batch := ⟨1, 1, 0, [], [], [], false, [], [], [], [], [], []⟩

def xtAt : State := { (expOn xt) with batches := [oneBatch] }

theorem witness_ReductionAndExpertInstructionsRun :
    (((win [ap]).puts (agateOn 2)).goes 0 0x50 ap ∧ ((win [ap]).puts (agateOn 2)).agputConfig 0 3 0 = true ∧
      ((win [ap]).puts (agateOn 2)).get Reg.AGATE.STEP_STATE = 2) ∧
    (((win [ap]).puts (agateOn 1)).goes 0 0x50 ap ∧ ((win [ap]).puts (agateOn 1)).agputConfig 0 3 0 = true ∧
      ((win [ap]).puts (agateOn 1)).get Reg.AGATE.STEP_STATE ≠ 2 ∧ agputFlt ap 1 2 1 = none) ∧
    (∃ s1 s2 s3 s4 pages back mb mx l, let u := (expOn xd).seat
      u.goes 0 0x58 xd ∧ u.genRetired 1 = false ∧ u.dispCores.contains 0 = true ∧
      (∀ b, u.batch? 1 = some b → (b.xdisps.any fun p => p.core == 0) = false) ∧ xdispFlt xd 1 = none ∧
      u.unreachable = false ∧ (u.sent 0 xd).bindAll expSrc 1 .anywhere
        [⟨roleD, xd.td roleD, false, true⟩, ⟨roleA, xd.td roleA, true, false⟩] = (s1, .inr pages) ∧
      s1.bindReturn 1 (u.get (Reg.EXPERT.RETURN_BASE 0 1)) 128 = (s2, .inr back) ∧
      s2.readSpans expSrc 1 (spans (elemBytes ((xd.td roleB).places (xd.td roleB).allIx))) = (s3, mb, .done) ∧
      s3.readSpans expSrc 1 (spans (elemBytes ((xd.td roleX).places (xd.td roleX).allIx))) = (s4, mx, .done) ∧
      s4.classify xd mb mx ((List.range 2).flatMap fun t => (List.range 1).map fun k => (k, t)) = .inr l) ∧
    (∃ s1 pages, let u := (expOn xr).seat
      u.goes 0 0x59 xr ∧ u.genRetired 1 = false ∧ u.placedHere 0 = true ∧
      (∀ b, u.batch? 1 = some b → (b.xrecvs.any fun p => p.expert == 0) = false) ∧
      u.xrecvFlt xr 1 0 = none ∧ (u.sent 0 xr).bindAll expSrc 1 .anywhere
        [⟨roleD, xr.td roleD, false, true⟩, ⟨roleX, xr.td roleX, false, true⟩] = (s1, .inr pages)) ∧
    (∃ s1 s2 pages m l, xtAt.goes 0 0x5A xt ∧ xtAt.batch? 1 = some oneBatch ∧
      (oneBatch.xrets.any fun p => p.expert == 0) = false ∧ xtAt.placedHere 0 = true ∧ xtAt.xretFlt xt 1 = none ∧
      (xtAt.sent 0 xt).bindAll expSrc 1 .anywhere [⟨roleA, xt.td roleA, true, false⟩] = (s1, .inr pages) ∧
      s1.readSpans expSrc 1 (spans (elemBytes ((xt.td roleB).places (xt.td roleB).allIx))) = (s2, m, .done) ∧
      signed 64 (codeIn m ((xt.td roleB).bitAddr [0]) 64) ≤ ((xt.td roleA).size 1 : Int) ∧
      checkTags 1 0 ((xt.td roleA).size 1) ((List.range ((xt.td roleB).size 0 - 2)).map fun j =>
        (j, codeIn m ((xt.td roleB).bitAddr [j + 2]) 64)) = .inr l ∧ s2.noWayBack l = false) := by
  refine ⟨⟨goes_of ?_, ?_⟩, ⟨goes_of ?_, ?_⟩,
    ⟨_, _, _, _, _, _, _, _, _, goes_of ?_, ?_, ?_, no_some ?_, ?_, ?_, inr_of [] ?_, inr_of [] ?_, last_of ?_, last_of ?_,
      right_of [] ?_⟩,
    ⟨_, _, goes_of ?_, ?_, ?_, no_some ?_, ?_, inr_of [] ?_⟩,
    ⟨_, _, _, _, _, goes_of ?_, ?_, ?_, ?_, ?_, inr_of [] ?_, last_of ?_, ?_, right_of [] ?_, ?_⟩⟩ <;> decide +kernel

/-- A running instruction at its completion point, and one that waits for a launch time. -/
def doneNop : Insn := { insn 0 0 with dispatched := true, done := true }
def timed : Insn := { insn 0 (2 ^ 118) with time := 100 }
def nextWord : Fetched := ⟨0x1000, word 0 (2 ^ 119 + 15 * 2 ^ 114), csBase⟩
def fetching : State := base.setCore 0 { CoreSt.zero with fetchPc := 0x200000 }

theorem witness_IssueUnitRuns :
    (∃ s1 s' data, fetching.phase = .up ∧ fetching.streamState 0 = 1 ∧ (fetching.core 0).endSeen = false ∧
      fetching.present 0 = true ∧ fetching.xlat 0 (fetching.jobOf 0) (fetching.core 0).fetchPc true false =
        (s1, .ok csBase false false) ∧ s1.readPa 0 (fetching.jobOf 0) csBase 16 = (s', data, false)) ∧
    (let s := (base.setCore 0 { CoreSt.zero with fetched := [nextWord] }).put (Reg.CORE.LSLOT_VALID 0) 0x8000
     s.phase = .up ∧ (s.core 0).fetched = [nextWord] ∧ s.streamState 0 = 1 ∧ (s.core 0).endSeen = false ∧
      s.admitBlocked 0 (mkInsn 0 0x1000 nextWord.word) = false ∧ s.fetchOpen 0 nextWord = false ∧ (mkInsn 1 0x1000 nextWord.word).badEncoding = false ∧
      (mkInsn 1 0x1000 nextWord.word).launch = 2 ∧ bitOf (s.get (Reg.CORE.LSLOT_VALID 0)) (mkInsn 1 0x1000 nextWord.word).lslot = true) ∧
    ((win [timed]).phase = .up ∧ ((win [timed]).core 0).window.find? (fun i => i.tag = 1) = some timed ∧
      timed.dispatched = false ∧ timed.launch = 1 ∧ (win [timed]).now < timed.time ∧ timed.time < 2 ^ 64) ∧
    ((win [doneNop]).phase = .up ∧ ((win [doneNop]).core 0).window.find? (fun i => i.tag = 1) = some doneNop ∧
      (win [doneNop]).atCompletion 0 doneNop = true ∧ (win [doneNop]).numericFault 0 doneNop = false) := by
  refine ⟨⟨_, _, _, ?_, ?_, ?_, ?_, pair_of ?_, last_of ?_⟩, ?_, ?_, ?_⟩ <;> decide +kernel

/-- Two gacts, the second over what the first writes; and one that is 3 ns late in mode 2. -/
def g1 : Insn := { ga with dispatched := true }
def g2 : Insn := { work 0x18 (3 * 2 ^ 4) (atD 1 0 [(3, 1)]) (atA 2 0 [(3, 1)]) (atB 3 0 [(3, 1)]) 0 with tag := 2 }
def late : Insn := { insn 0 (2 ^ 119) with time := 7 }
def lateAt : State := (win [late]).puts [(Reg.TIME.NOW, 10), (Reg.CORE.FAULT_NS 0, 2)]

theorem ready_of {s : State} {n op : Nat} {i : Insn} (h : s.streamState n = 1 ∧
    s.oldest n (queueOf op) = some i ∧ i.op = op ∧ s.timely i = true ∧ s.accepts n op i = true) : s.ready n op i := h

theorem witness_DispatchFollowsOneRule :
    (dispatchRow (.nop 0) = some (0, 0) ∧ State.reset.phase = .up ∧ ∀ i, ¬(State.reset.atDispatch 0).ready 0 0 i) ∧
    (dispatchRow (.xret 7) = some (7, 0x5A) ∧ (State.reset.atDispatch 0x58).phase = .up ∧
      ∀ i, ¬(State.reset.atDispatch 0x58).ready 7 0x58 i) ∧
    (((win [g1, g2]).atDispatch 0x18).ready 0 0x18 g2 ∧ ((win [g1, g2]).atDispatch 0x18).hazard 0 g2 = true) ∧
    (let u := lateAt.atDispatch 0
     u.ready 0 0 late ∧ u.hazard 0 late = false ∧ late.launch = 2 ∧ 2 < u.now - late.time ∧
      u.get (Reg.CORE.FAULT_NS 0) ≠ 0 ∧ u.get (Reg.CORE.FAULT_NS 0) < u.now - late.time) := by
  refine ⟨⟨rfl, rfl, fun i h => ?_⟩, ⟨rfl, rfl, fun i h => ?_⟩, ⟨ready_of ?_, ?_⟩, ⟨ready_of ?_, ?_⟩⟩
  · exact absurd h.1 (by decide)
  · exact absurd h.1 (by decide)
  all_goals decide +kernel

/-! ### Witnesses: the queue, reset, boot and power -/

theorem witness_StepIdles : State.reset.pending = [] ∧ State.reset.phase = .up ∧ ({ State.reset with phase := .perst } : State).phase ≠ .up := by
  decide

theorem witness_StopsExactlyWhenIllFormed :
    (Instr.fenceReq 7 255 true).wellFormed = true ∧ (Instr.close 0 (head 1 0)).wellFormed = false := by decide

theorem witness_KeepsQueueAndPhase :
    (∃ t, exec .runOpen State.reset = .next t) ∧ (∀ ns, Instr.runOpen ≠ .perstAssert ns) ∧
    (∀ x, Instr.runOpen ≠ .effectiveRelease x) ∧ ∀ r p ns, Instr.runOpen ≠ .railDrop r p ns := by
  refine ⟨⟨_, rfl⟩, ?_, ?_, ?_⟩ <;> intros <;> exact fun h => nomatch h

theorem witness_OnlyResetsActInReset :
    ({ State.reset with phase := .perst } : State).phase ≠ .up ∧ actsInReset .runOpen = false ∧ Instr.runOpen.wellFormed = true :=
  ⟨by decide, rfl, rfl⟩

/-- The invariant holds after reset and in the state that PERST# leaves, and a step of each answers a next state. -/
theorem witness_ResetHoldsIsKept :
    State.reset.resetHolds ∧ ({ State.reset.domains .perst with kept := Kept.reset } : State).resetHolds ∧
    (∃ t, step State.reset = .next t) := by
  refine ⟨⟨(fun h => nomatch h), (fun h => nomatch h)⟩, ⟨fun _ => ⟨State.reset, rfl⟩, (fun h => nomatch h)⟩, ⟨_, rfl⟩⟩

/-- Registers set over the reset state. -/
def on (l : List (Fld × Nat)) : State := State.reset.puts l

theorem witness_ResetsClearAllButWhatTheyKeep :
    (100 < 101 ∧ State.reset.phase ≠ .perst) ∧ (State.reset.phase = .up ∧ (4 : Fin 8).val < 5 ∧ 89 < 90 ∧ 10000 < 10001) ∧
    ({ State.reset with phase := .perst } : State).phase = .perst := by decide

theorem witness_BootRuns :
    (State.reset.phase = .up ∧ State.reset.get Reg.SEC.READY ≠ 1 ∧ State.reset.get Reg.FW.STAGE = 0 ∧
      State.reset.kept.identityDead = false) ∧
    ((on [(Reg.FW.STAGE, 1)]).get Reg.FW.STAGE = 1 ∧ State.reset.fe = false) ∧
    ((on [(Reg.FW.STAGE, 4)]).doors.calibrated.contains 15 = false ∧ (on [(Reg.FW.STAGE, 4)]).lit 15 = false ∧ (on [(Reg.FW.STAGE, 4)]).get Reg.FW.STAGE < 5 ∧
      (on [(Reg.FW.STAGE, 4)]).feedGood 15 (State.reset.get (Reg.CASE.THRESH 15)) = true) ∧
    (let s := (List.range 16).foldl (fun (t : State) c => t.put (Reg.CASE.A_OK c) 1) (on [(Reg.FW.STAGE, 3)])
     3 ≤ s.get Reg.FW.STAGE ∧ s.get Reg.FW.STAGE < 5 ∧ ∀ c < 16, s.lit c = true) ∧
    (let s := ((List.range 32).foldl (fun (t : State) w => t.put (Reg.WIN.STATE w) (if w = 31 then 3 else 7))
       (on [(Reg.FW.STAGE, 5)])).setWin 31 { WinSt.zero with ready := true }
     s.get Reg.FW.STAGE = 5 ∧ s.unsettled = [] ∧ ((List.range 32).filter fun w => s.get (Reg.WIN.STATE w) == 3) ≠ []) ∧
    (on [(Reg.FW.STAGE, 6)]).get Reg.FW.STAGE = 6 ∧
    (1 ≤ (7 : BitVec 4).toNat ∧ (7 : BitVec 4).toNat ≤ 7) ∧
    (1000 < 1001 ∧ State.reset.get Reg.TIME.REF_LOST = 0) ∧
    (State.reset.sec.powered = true ∧ bitsIn 8 (0x80 : BitVec 8).toNat ≠ []) := by
  decide +kernel

/-- Core 7 waits on a latch and its engines are idle. -/
def held : State :=
  (State.reset.setCore 7 { CoreSt.zero with window := [insn 0 (2 ^ 113)] }).puts [(Reg.CORE.STREAM_STATE 7, 1), (Reg.PWR.LEND_EN, 1)]

theorem witness_PowerManagerActs :
    (held.phase = .up ∧ held.get Reg.PWR.LEND_EN = 1 ∧ held.present 7 = true ∧ held.get (Reg.PWR.CSTAT_STATE 7) = 0 ∧
      held.stalled 7 = true ∧ held.fe = false) ∧
    ((on [(Reg.ERR.STATUS_FE, 1)]).fe = true ∧ State.reset.fe = false) ∧
    (let even : Vector CorePower 8 := Vector.replicate 8 ⟨70000, 76000, 76000, 84000⟩
     let m : Lending := ⟨Vector.replicate 8 800, 570000, 627000, 10000, 56000, even⟩
     let s := on [(Reg.PWR.LEND_EN, 1), (Reg.PWR.CSTAT_STATE 0, 1), (Reg.PWR.DIE_W, 570)]
     s.canLend = true ∧ s.fe = false ∧ s.computing ≠ [] ∧
      (∀ n ∈ s.computing, fairShare (m.cores.toList.getD n ⟨0, 0, 0, 0⟩) (m.freed / s.computing.length) (m.railMv.toList.getD n 0).toNat = true) ∧
      m.mean ≤ 1000 * s.dieBudget ∧ m.peak ≤ 1100 * s.dieBudget ∧ m.peakNs ≤ 10000 ∧
      ∀ n ∈ s.computing, s.railOk (s.baseFor (s.computing.map fun _ => 800)) 800 = true) ∧
    ((on [(Reg.PWR.CSTAT_STATE 0, 1)]).get (Reg.PWR.CSTAT_STATE 0) = 1 ∧ (on [(Reg.PWR.CSTAT_STATE 0, 1)]).stalled 0 = false) ∧
    (∀ w ∈ [570, 569], let s := on [(Reg.PWR.DIE_W, w)]
     let mv := fun n => ((Vector.replicate 8 (if w = 570 then 750 else 680 : BitVec 16)).toList.getD n 0).toNat
     s.computing ≠ [] ∧ ∀ n ∈ s.computing, s.railOk (s.baseFor (s.computing.map mv)) (mv n) = true) ∧
    (let lent := on [(Reg.PWR.LEND_EN, 1), (Reg.PWR.CSTAT_STATE 0, 1)]
     let mv := fun n => if n = 1 then 850 else 750
     lent.computing ≠ [] ∧ ∀ n ∈ lent.computing, lent.railOk (lent.baseFor (lent.computing.map mv)) (mv n) = true) ∧
    (State.reset.pwr.ceiling.find? (fun e => e.1 = 8) = none ∧
      signed 16 (0 : BitVec 16).toNat < 4 * ((min 105 ((on [(Reg.PWR.TJ_CEIL, 105)]).get Reg.PWR.TJ_CEIL) : Nat) : Int) ∧
      4 * ((min 105 ((on [(Reg.PWR.TJ_CEIL, 105)]).get Reg.PWR.TJ_CEIL) : Nat) : Int) ≤ signed 16 (420 : BitVec 16).toNat) ∧
    (let s : State := { on [(Reg.PWR.TJ_CEIL, 105), (Reg.PWR.HYST, 5)] with pwr := { PwrSt.reset with ceiling := [(8, 3)] } }
     s.pwr.ceiling.find? (fun e => e.1 = 8) = some (8, 3) ∧
      signed 16 (400 : BitVec 16).toNat = 4 * ((min 105 (s.get Reg.PWR.TJ_CEIL) : Nat) : Int) -
        4 * ((max 1 (s.get Reg.PWR.HYST) : Nat) : Int) ∧
      (4 * ((min 105 (s.get Reg.PWR.TJ_CEIL) : Nat) : Int) - 4 * ((max 1 (s.get Reg.PWR.HYST) : Nat) : Int) <
        signed 16 (401 : BitVec 16).toNat)) ∧
    460 ≤ signed 16 (460 : BitVec 16).toNat ∧ 400 ≤ signed 16 (400 : BitVec 16).toNat ∧ State.reset.present 7 = true := by
  decide +kernel

/-! ### Witnesses: latches, barriers, monitors, registers -/

/-- A message to a latch's home, the first that was injected; and one on its way. -/
def msg (src latch : Nat) (op : HomeOp) (ack : Option (Nat × Nat)) (close : Bool) : LatchMsg := ⟨src, latch, op, ack, close, 0, 1⟩
def sent (m : LatchMsg) : State := { State.reset with net := { NetSt.reset with latchMsgs := [m] } }
/-- A barrier's arrival that was injected before, on the way of the host's messages. -/
def firstIn : BarMsg := ⟨8, 36 * 56, 0, false, false, 0⟩
def jl : Insn := { insn 2 (2 ^ 34 + 9 * 2 ^ 20) with waits := 1 }
def jlAt : State := (sent (msg 0 9 .read (some (0, 1)) false)).setCore 0 { CoreSt.zero with window := [jl] }

/-- A set of the highest host latch but one, by the host and by a close; a clear; a watch that is answered, recorded, or out
already; a read whose jmp waits, and one whose jmp is gone; a message behind an arrival, and one behind a held write. -/
theorem witness_LatchHomesAnswer :
    (let m := msg 0x401 0x3DFF .set none false
     pick LatchMsg.sameWay 0 (sent m).net.latchMsgs = some (m, []) ∧
      ((sent m).behindBar m || (m.src == 0x401 && !m.close && (sent m).hostHeld)) = false ∧ m.latch < 0x3E00) ∧
    (let m := msg 0x401 0x3E00 .set none false
     pick LatchMsg.sameWay 0 (sent m).net.latchMsgs = some (m, []) ∧ m.close = false ∧ m.src = 0x401) ∧
    (let m := msg 0x401 0x3E00 .set none true
     pick LatchMsg.sameWay 0 (sent m).net.latchMsgs = some (m, []) ∧
      ((sent m).behindBar m || (m.src == 0x401 && !m.close && (sent m).hostHeld)) = false) ∧
    (let m := msg 0 0x3FFF .clear none false
     pick LatchMsg.sameWay 0 (sent m).net.latchMsgs = some (m, []) ∧ (sent m).behindBar m = false) ∧
    (let m := msg 0 5 .watch none false
     pick LatchMsg.sameWay 0 (sent m).net.latchMsgs = some (m, []) ∧ (sent m).behindBar m = false ∧
      (sent m).get (Reg.LATCH.latch 5) ≠ 1 ∧ ((sent m).put (Reg.LATCH.latch 5) 1).get (Reg.LATCH.latch 5) = 1 ∧
      ((sent m).net.watchers.any fun w => w.core == 0 && w.latch == 5) = false ∧
      (({ NetSt.reset with watchers := [⟨0, 5, 0⟩] } : NetSt).watchers.any fun w => w.core == 0 && w.latch == 5) = true) ∧
    (pick LatchMsg.sameWay 0 jlAt.net.latchMsgs = some (msg 0 9 .read (some (0, 1)) false, []) ∧
      jlAt.behindBar (msg 0 9 .read (some (0, 1)) false) = false ∧
      (jlAt.core 0).window.find? (fun i => i.tag = 1 && i.op = 2 && i.waits != 0) = some jl) ∧
    (let m := msg 0 9 .read (some (0, 2)) false
     pick LatchMsg.sameWay 0 (sent m).net.latchMsgs = some (m, []) ∧ (sent m).behindBar m = false ∧
      ((sent m).core 0).window.find? (fun i => i.tag = 2 && i.op = 2 && i.waits != 0) = none) ∧
    (let m : LatchMsg := ⟨0x401, 0, .set, none, false, routerOf 0x401, 1⟩
     let s : State := { sent m with net := { (sent m).net with arrivals := [firstIn] } }
     pick LatchMsg.sameWay 0 s.net.latchMsgs = some (m, []) ∧ s.behindBar m = true) ∧
    (let m := msg 0x401 0 .set none false
     let s : State := { sent m with snap := { SnapSt.reset with heldWrites := [⟨0, ⟨34, 0x401, 0, 0, true, [], false, .none, false, [], false, []⟩, 0⟩] } }
     pick LatchMsg.sameWay 0 s.net.latchMsgs = some (m, []) ∧ (m.src == 0x401 && !m.close && s.hostHeld) = true) := by
  refine ⟨?_, ?_, ?_, ?_, ?_, ?_, ?_, ?_, ?_⟩ <;> decide +kernel

theorem witness_NotificationsSatisfyWaits :
    let s : State := { State.reset with net := { NetSt.reset with notes := [⟨0, 5, 0⟩, ⟨0, 41, 1⟩] } }
    s.phase = .up ∧ pick (fun a b => a.way == b.way) 1 s.net.notes = some (⟨0, 5, 0⟩, [⟨0, 41, 1⟩]) ∧
      s.behindRelease ⟨0, 5, 0⟩ = false := by
  decide

/-- Barrier counter 2047 with two participants, cores 0 and 1; a message on its way. -/
def barrier (a : BarMsg) (arrived early : Nat) : State :=
  ({ State.reset with net := { NetSt.reset with arrivals := [a], counted := [⟨0, 2047, 1, false, false, 0⟩] } } : State).puts
    [(Reg.BARRIER.CFG_VALID 2047, 1), (Reg.BARRIER.CFG_PART 2047, 3), (Reg.BARRIER.ARRIVED 2047, arrived),
     (Reg.BARRIER.EARLY 2047, early)]
def arrive : BarMsg := ⟨0, 2047, 1, false, false, 3⟩
def leave : BarMsg := ⟨0, 2047, 1, true, false, 3⟩

/-- Arrivals that are refused, counted, early, and one too many; a release of a barr and of a killed one; withdrawals of an
early arrival, of one of the open phase, of a killed barr, and of one whose phase has closed. -/
theorem witness_BarrierHomesAnswer :
    (let a : BarMsg := ⟨2, 2047, 1, false, false, 3⟩
     pick BarMsg.sameWay 0 (barrier a 0 0).net.arrivals = some (a, []) ∧ (barrier a 0 0).behindLatch a = false ∧ a.leave = false ∧
      bitOf ((barrier a 0 0).get (Reg.BARRIER.CFG_PART 2047)) 2 = false ∧ (barrier a 0 0).get (Reg.BARRIER.CFG_VALID 2046) = 0) ∧
    (pick BarMsg.sameWay 0 (barrier arrive 2 0).net.arrivals = some (arrive, []) ∧ (barrier arrive 2 0).behindLatch arrive = false ∧
      arrive.leave = false ∧ (barrier arrive 2 0).get (Reg.BARRIER.CFG_VALID 2047) ≠ 0 ∧
      bitOf ((barrier arrive 2 0).get (Reg.BARRIER.CFG_PART 2047)) 0 = true ∧
      bitOf ((barrier arrive 2 0).get (Reg.BARRIER.ARRIVED 2047)) 0 = false) ∧
    (∀ e ∈ [0, 1], bitOf ((barrier arrive 1 e).get (Reg.BARRIER.ARRIVED 2047)) 0 = true ∧
      bitOf ((barrier arrive 1 e).get (Reg.BARRIER.EARLY 2047)) 0 = (e == 1)) ∧
    (∀ dead, let a : BarMsg := { arrive with dead := dead }
     let s : State := { State.reset with net := { NetSt.reset with releases := [a] } }
     pick (fun a b => a.back == b.back) 0 s.net.releases = some (a, []) ∧ s.behindNote a = false ∧ a.dead = dead) ∧
    (∀ e ∈ [0, 1], ∀ dead, let a : BarMsg := { leave with dead := dead }
     let s := barrier a 1 e
     pick BarMsg.sameWay 0 s.net.arrivals = some (a, []) ∧ s.behindLatch a = false ∧ a.leave = true ∧
      (s.net.counted.any fun x => x.counter == 2047 && x.part == 0 && x.tag == 1 && x.dead == dead) = !dead ∧
      (({ NetSt.reset with counted := [⟨0, 2047, 1, false, dead, 0⟩] } : NetSt).counted.any
        fun x => x.counter == 2047 && x.part == 0 && x.tag == 1 && x.dead == dead) = true ∧
      bitOf (s.get (Reg.BARRIER.EARLY 2047)) 0 = (e == 1) ∧ bitOf (s.get (Reg.BARRIER.ARRIVED 2047)) 0 = true) := by
  refine ⟨?_, ?_, ?_, ?_, ?_⟩ <;> decide +kernel

theorem witness_LastArrivalClosesThePhase :
    let s := barrier arrive 2 1
    s.phase = .up ∧ pick BarMsg.sameWay 0 s.net.arrivals = some (arrive, []) ∧ s.behindLatch arrive = false ∧
      arrive.leave = false ∧ arrive.counter < 2048 ∧
      arrive.part < 9 ∧ s.get (Reg.BARRIER.CFG_VALID 2047) ≠ 0 ∧ bitOf (s.get (Reg.BARRIER.CFG_PART 2047)) 0 = true ∧
      bitOf (s.get (Reg.BARRIER.ARRIVED 2047)) 0 = false ∧ s.get (Reg.BARRIER.CFG_PART 2047) < 512 ∧
      s.get (Reg.BARRIER.ARRIVED 2047) + 2 ^ 0 = s.get (Reg.BARRIER.CFG_PART 2047) ∧
      s.get (Reg.BARRIER.EARLY 2047) < 512 ∧ s.get (Reg.BARRIER.EARLY 2047) ≠ s.get (Reg.BARRIER.CFG_PART 2047) := by
  decide +kernel

/-- Monitor 255 of core 0, armed by a mwait, with a value on its way: 7, equal and unequal to its comparand; or poison. -/
def monitored (c e : Nat) : State :=
  (({ State.reset with net := { NetSt.reset with monWrites := [(e, 7)], monTags := [(255, 1)] } } : State).setCore 0
    { CoreSt.zero with window := [mw] }).puts [(Reg.BARRIER.MON_ARMED 255, 1), (Reg.BARRIER.MON_COMPARAND 255, c)]

theorem witness_MonitorsAndMulticastRun :
    pick (fun a b => a.1 % 256 == b.1 % 256) 0 (monitored 7 255).net.monWrites = some ((255, 7), []) ∧
    (monitored 7 255).net.monTags.find? (fun x => x.1 = 255) = some (255, 1) ∧
    (∀ c ∈ [7, 8], monHolds ((monitored c 255).get (Reg.BARRIER.MON_COND 255)) 7
      ((monitored c 255).get (Reg.BARRIER.MON_COMPARAND 255)) = (c == 8)) ∧
    (pick (fun a b => a.1 % 256 == b.1 % 256) 0 (monitored 7 511).net.monWrites = some ((511, 7), []) ∧
      (monitored 7 511).net.monTags.find? (fun x => x.1 = 511 % 256) = some (255, 1) ∧
      ((monitored 7 511).core ((monitored 7 511).get (Reg.BARRIER.MON_CORE (511 % 256)))).window.find? (fun i => i.tag = 1) =
        some mw) ∧
    (let s : State := { State.reset with net := { NetSt.reset with monWrites := [(255, 7)] } }
     pick (fun a b => a.1 % 256 == b.1 % 256) 0 s.net.monWrites = some ((255, 7), []) ∧
      s.net.monTags.find? (fun x => x.1 = 255 % 256) = none) ∧
    (∀ src ∈ [0x0007, 0x0507, 0x0407], State.reset.isSource src = true) ∧
    (∀ src ∈ [0x0007, 0x0507, 0x0408], ({ State.reset with kept := { Kept.reset with grade := .n7 } } : State).isSource src = false) := by
  refine ⟨?_, ?_, ?_, ?_, ?_, ?_, ?_⟩ <;> decide +kernel

theorem witness_SynchronizationRegistersAct :
    State.reset.phase = .up ∧ State.reset.host.d3hot = false ∧ State.reset.get (Reg.BARRIER.ARRIVED 2047) = 0 ∧
    State.reset.get (Reg.BARRIER.EARLY 2047) = 0 ∧ (barrier arrive 2 0).get (Reg.BARRIER.ARRIVED 2047) ≠ 0 ∧
    State.reset.get (Reg.LATCH.MCAST_INFLIGHT 31) = 0 ∧ (on [(Reg.LATCH.MCAST_INFLIGHT 31, 4)]).get (Reg.LATCH.MCAST_INFLIGHT 31) ≠ 0 := by
  decide +kernel

/-! ### Witnesses: windows and links -/

/-- Window 31 in a state, with what it holds. -/
def window (st : Nat) (x : WinSt) : State := (State.reset.setWin 31 x).put (Reg.WIN.STATE 31) st

/-- A sled that fits at the bound of 12 ms and one that does not; an answer in time, one after 5 ms, and one after 12 ms; a
sled that is not ready at the bound of 2 s, and after it. -/
theorem witness_WindowsComeUp :
    (∀ t ∈ [12000000, 12000001], let s := (window 1 WinSt.zero).put Reg.TIME.NOW t
     s.phase = .up ∧ s.get (Reg.WIN.STATE 31) = 1 ∧
      (((2 : BitVec 8) = 1 ∨ (2 : BitVec 8) = 2) ∧ (40 : BitVec 8) = 40 ∧ (1 : BitVec 16) = 1 ∧ 2 ≤ (2 : BitVec 3).toNat ∧
        (s.now ≤ (s.win 31).startedAt + 12000000 ↔ t = 12000000))) ∧
    (∀ t ∈ [5000000, 5000001, 12000001], let s := (window 2 { WinSt.zero with nonce := some 4 }).put Reg.TIME.NOW t
     s.get (Reg.WIN.STATE 31) = 2 ∧ (s.win 31).nonce = some 4 ∧
      (s.now ≤ (s.win 31).startedAt + 12000000 ↔ t < 12000001) ∧ (s.now ≤ (s.win 31).nonceAt + 5000000 ↔ t = 5000000)) ∧
    (∀ t ∈ [2000000000, 2000000001], let s := (window 3 WinSt.zero).put Reg.TIME.NOW t
     s.get (Reg.WIN.STATE 31) = 3 ∧ (s.win 31).ready = false ∧
      (s.now ≤ (s.win 31).startedAt + 2000000000 ↔ t = 2000000000)) := by
  decide +kernel

/-- A request for one sector, and its place in the tags in each phase. -/
def rd (w : Bool) : MemReq := ⟨37, 0, 1, 0, w, [], false, .none, false, [], false, []⟩
def tagAt (ph : Nat) (w : Bool) : TagSt := ⟨4095, rd w, 0, 0, 0, [], false, ph, false, false⟩
def tagged (ph : Nat) (w : Bool) : State := window 4 { WinSt.zero with tags := [tagAt ph w] }
/-- A map of one window with a request in its queue, and WRPs that wait for a tag. -/
def queued (l : List TagSt) : State :=
  (window 4 { WinSt.zero with queue := [rd false], wrps := l }).puts
    [(Reg.WIN.MAP_W 0, 1), (Reg.WIN.MAP_L 0, 24), (Reg.XLAT.MEM_TOP, 2 ^ 40)]

theorem witness_WindowsAnswer :
    (∀ l ∈ [[], [tagAt 0 true]], (queued l).fe = false ∧ (queued l).winOpen 31 = true ∧ ((queued l).win 31).freeTag = some 0 ∧
      ((queued l).win 31).wrps = l) ∧ (queued []).nextHead 31 = some (rd false) ∧
    (∀ w : Bool, (tagged 0 w).winTalks 31 = true ∧
      ((tagged 0 w).win 31).tags.find? (fun t => t.tag == (4095 : BitVec 12).toNat) = some (tagAt 0 w) ∧ (tagAt 0 w).phase ≠ 1 ∧
      (tagAt 0 w).req.write = w ∧ (tagged 0 w).now ≤ (tagAt 0 w).granted + (tagged 0 w).winTimeout 31) ∧
    ((tagAt 0 false).poison = false ∧ ({ tagAt 0 false with poison := true } : TagSt).poison = true) ∧
    (∀ w : Bool, (tagged 1 w).winTalks 31 = true ∧
      ((tagged 1 w).win 31).tags.find? (fun t => t.tag == (4095 : BitVec 12).toNat) = some (tagAt 1 w) ∧ (tagAt 1 w).phase = 1 ∧
      (let late := (tagged 0 w).put Reg.TIME.NOW 10000000
       (late.win 31).tags.find? (fun t => t.tag == (4095 : BitVec 12).toNat) = some (tagAt 0 w) ∧
        (tagAt 0 w).granted + late.winTimeout 31 < late.now)) ∧
    (((window 4 WinSt.zero).win 31).tags.find? (fun t => t.tag == 0) = none ∧ (window 1 WinSt.zero).winTalks 31 = true) ∧
    ((tagged 0 false).win 31).tags.find? (fun t => t.tag == 4095 && t.phase == 0 && !t.req.write) = some (tagAt 0 false) ∧
    (∀ ph ∈ [0, 2], ((tagged ph true).win 31).tags.find?
      (fun t => t.tag == 4095 && t.req.write && (t.phase == 0 || t.phase == 2)) = some (tagAt ph true)) ∧
    (let s := tagged 0 true
     let u := ((((s.passTo ((tagAt 0 true).granted + s.winTimeout 31)).inc (Reg.WIN.TIMEOUT_CNT 31) 1).winRec 31 0x42 1 1
        (tagAt 0 true)).setPhase 31 4095 1).consumeMonitors 0
     (u.win 31).freeTag = some 0) := by
  refine ⟨?_, ?_, ?_, ?_, ?_, ?_, ?_, ?_, ?_⟩ <;> decide +kernel

/-- A window whose tags are all taken. -/
theorem witness_every_tag_taken :
    ({ WinSt.zero with tags := (List.range 4096).map fun k => { tagAt 0 true with tag := k } } : WinSt).freeTag = none := by
  unfold WinSt.freeTag
  rw [List.find?_eq_none]
  intro t ht
  simp only [Bool.not_eq_true, Bool.not_eq_false']
  rw [List.any_map, List.any_eq_true]
  exact ⟨t, ht, by simp⟩

/-- Door 15's pair 2 and door 14 in a link state. -/
def link (st : Nat) : State := on [(Reg.DOOR.LINK_STATE 15 2, st), (Reg.DOOR.LINK_STATE 14 0, st)]
def hotWin : State :=
  (window 4 { WinSt.zero with queue := [rd false], tags := [tagAt 0 false] }).puts
    [(Reg.WIN.HOT_THRESH 31, 1), (Reg.WIN.HOT_EN 31, 1), (Reg.WIN.MAP_W 0, 1), (Reg.WIN.MAP_L 0, 24), (Reg.XLAT.MEM_TOP, 2 ^ 40)]

theorem witness_LinksAreKept :
    ((window 1 WinSt.zero).winTalks 31 = true ∧ (window 4 { WinSt.zero with failing := true }).winOpen 31 = true ∧
      ((window 4 { WinSt.zero with failing := true }).win 31).failing = true) ∧
    flitIntact [1] = false ∧
    (∀ n ∈ [7, 8], ({ LinkSt.zero with replay := [⟨0, false, [], [], [], n⟩] } : LinkSt).stuck = (n == 8)) ∧
    ((link 3).linkUsable 15 2 = true ∧ (link 3).linkUsable 14 0 = true) ∧
    ((window 5 WinSt.zero).get (Reg.WIN.STATE 31) = 5 ∧ (∀ k < 4, bitOf (15 : BitVec 4).toNat k = true) ∧
      (window 5 WinSt.zero).inTest 31 = false) ∧
    ((link 4).get (Reg.DOOR.LINK_STATE 15 (doorLink 15 2)) = 4 ∧ ∀ k ∈ linkPairs 15 2, bitOf (4 : BitVec 4).toNat k = true) ∧
    (((hotWin.noteHot 31).win 31).hotSince.find? (fun e => e.1 == 0) = some (0, 0) ∧ hotWin.get (Reg.WIN.HOT_EN 31) ≠ 0 ∧
      hotWin.winOpen 31 = true ∧ (((hotWin.noteHot 31).win 31).hotRaised.any fun r => r.1 == 0) = false) := by
  decide +kernel

/-! ### Witnesses: errors and tests -/

def chk (u : Nat) : Check := ⟨if u = 0x0B then agateSrc else 0, u, 1, 1, 0, 3, []⟩

theorem witness_DetectionsAct :
    ({ State.reset with checks := [chk 2] } : State).checks[0]? = some (chk 2) ∧ (chk 2).unit ≠ 0x0B ∧
    ({ State.reset with checks := [chk 0x0B] } : State).checks[0]? = some (chk 0x0B) ∧
    State.reset.phase = .up ∧ State.reset.present 7 = true ∧ State.reset.fe = false ∧
    ((with4 ga).slices.filter fun x => x.src % 65536 == 0)[12]? = some ⟨0, 1, 3, 0, 1⟩ ∧
    (State.reset.isSource 0x0007 = true ∧ State.reset.isSource 0x0507 = true ∧ feCodes.contains (0x58 : BitVec 8).toNat = true) ∧
    (0x500 ≤ (0x509 : BitVec 16).toNat ∧ (0x509 : BitVec 16).toNat < 0x50A) ∧
    (0x200 ≤ (0x20F : BitVec 16).toNat ∧ (0x20F : BitVec 16).toNat < 0x210) ∧
    (on [(Reg.SEC.READY, 1)]).get Reg.SEC.READY = 1 ∧
    (∀ k ∈ [0, 77, 78, 79, 80], let u := obsUnit k
      ((List.range 8).foldl (fun (t : State) n => t.puts [(Reg.ERR.OBS_OBSERVED n, 255), (Reg.ERR.OBS_BERYL n, 1),
        (Reg.ERR.OBS_ACT n, 1)]) (on [(Reg.ERR.AGATE_OBSERVED, 1)])).observed u.1 u.2.1 u.2.2 = true) := by
  decide +kernel

/-- Core 7 with tile 7 in a state and tiles in service. -/
def tile (v n : Nat) : State := on [(Reg.CORE.TILE_STATE 7, v * 16 ^ 7), (Reg.CORE.IN_SERVICE 7, n)]

theorem witness_TileFencesAct :
    ((tile 1 2).tileState 7 7 < 2 ∧ (tile 1 2).lastTile 7 = false) ∧ ((tile 1 1).tileState 7 7 < 2 ∧ (tile 1 1).lastTile 7 = true) ∧
    (tile 2 7).tileState 7 7 = 2 ∧ (tile 3 7).tileState 7 7 = 3 ∧
    ((tile 0 8).phase = .up ∧ (tile 0 8).present 7 = true ∧ (tile 0 8).host.d3hot = false ∧ (0x80 : BitVec 8) ≠ 0) := by
  decide +kernel

/-- A core whose last tile but one fences while a gmm is in flight, and while none is. -/
theorem witness_TileFencesAct_gmm :
    ((tile 0 8).put (Reg.CORE.GARNET_TAG 7) 1).get (Reg.CORE.GARNET_TAG 7) ≠ 0 ∧ (tile 0 8).get (Reg.CORE.GARNET_TAG 7) = 0 := by
  decide +kernel

def testing (x : TestSt) : State := { tile 0 8 with host := { HostSt.reset with tests := [x] } }

theorem witness_TestsRun :
    ((tile 0 8).present 7 = true ∧ (tile 0 8).tileState 7 7 < 2 ∧ ((tile 0 8).core 7).retired = false ∧
      (tile 0 8).testDue 7 7 = true) ∧
    (let tested := fun (last now : Nat) => (({ tile 0 8 with host := { HostSt.reset with tileTests := [(63, last)] } } : State).put
       Reg.TIME.NOW now).testDue 7 7
     tested (hourNs - 1) hourNs = true ∧ tested 0 (hourNs - 1) = false) ∧
    (let x : TestSt := ⟨none, 1, 7, 7, 0, false⟩
     (testing x).host.tests[0]? = some x ∧ (testing x).testReady x = true ∧
      (((testing x).host.tests.take 0).any fun y => x.behind y) = false ∧
      (((testing x).host.tests.drop 1).any fun y => y.running && x.behind y) = false) ∧
    (∀ k ∈ [1, 2, 3, 4], let x : TestSt := ⟨none, k, 7, 7, 2 ^ 31, true⟩
     (testing x).host.tests[0]? = some x ∧ x.running = true ∧ (testing x).fenceWaits x = false ∧ x.kind = k ∧
      (testing x).tileGone x = false) ∧
    (on [(Reg.CASE.CAL_STATE 15, 1)]).get (Reg.CASE.CAL_STATE 15) = 1 := by decide +kernel

/-! ### Witnesses: doors, packets and Sill firmware's packets -/

/-- A header of a packet from device 1 to this device, with an address and as many sectors. -/
def hd (addr sectors : Nat) : Hdr :=
  ⟨true, false, BitVec.ofNat 6 sectors, 9, 0x10200, 0, 1, 0, BitVec.ofNat 57 addr, 3⟩
/-- Door 0 is up; job 1's unit 1 is mapped for it; on a member, on the lead. -/
def door (l : List (Fld × Nat)) : State :=
  ({ base with slices := page 0x200 1 csBase } : State).puts ((Reg.DOOR.LINK_STATE 0 0, 3) :: l)
def member : List (Fld × Nat) :=
  [(Reg.DOOR.FORMED 0, 1), (Reg.DOOR.IS_LEAD 0, 0), (Reg.DOOR.LEAD 0, 1), (Reg.DOOR.MEMBERS 0, 3)]
def zeros (n : Nat) : Bytes := List.replicate (64 * n) 0

theorem pkt_of {s : State} {d ty : Nat} {h : Hdr} {p : Bytes} (x : s.phase = .up ∧ s.linkUsable d (s.pairFrom d h) = true ∧
    (bulk ty (h.addr.toNat % 8) = true → s.noCredit d = false) ∧ overlong ty h = false ∧ p.length = 64 * h.sectors.toNat ∧
    h.dst.toNat = s.dev) : s.takes d ty h p := x

theorem witness_DoorPacketsAct :
    (∃ u l, (door []).takes 0 1 (hd 0x200000 1) (zeros 1) ∧
      ((door []).countRx 0 (hd 0x200000 1) (zeros 1)).bindSectors (doorSrc 0) 1 (payloadVas 0x200000 1) = (u, .inr l)) ∧
    marksKill (hd 0x200000 1) [(0x200000, csBase, false, false)] = none ∧
    marksKill { hd 0x200000 1 with poison := 1 } [(0x200000, csBase, true, false)] = some 0x200000 ∧
    (∃ u e, (door []).takes 0 1 (hd 0x600000 1) (zeros 1) ∧
      ((door []).countRx 0 (hd 0x600000 1) (zeros 1)).bindSectors (doorSrc 0) 1 (payloadVas 0x600000 1) = (u, .inl e)) ∧
    (∀ ty ∈ [2, 3, 6, 7], (door []).takes 0 ty (hd 0 0) []) ∧
    (1 ≤ (9 : BitVec 8).toNat ∧ (9 : BitVec 8).toNat ≤ 9 ∧ (zeros 1).length = 64 * (hd 0 1).sectors.toNat ∧
      ({ hd 0 1 with dst := 63 } : Hdr).dst.toNat ≠ (door []).dev ∧ (door []).linkUsable 0 ((door []).pairFrom 0 { hd 0 1 with dst := 63 }) = true ∧ (door []).noCredit 0 = false ∧
      overlong (9 : BitVec 8).toNat (hd 0 1) = false ∧ overlong (1 : BitVec 8).toNat (hd 0 32) = false) ∧
    (knownPacket (11 : BitVec 8).toNat 0 = false ∧ knownPacket (4 : BitVec 8).toNat 0 = false ∧
      knownPacket (9 : BitVec 8).toNat 7 = false) := by
  refine ⟨⟨_, _, pkt_of ?_, inr_of [] ?_⟩, ?_, ?_, ⟨_, _, pkt_of ?_, inl_of (0, 0, 0) ?_⟩, fun ty h => pkt_of (by revert ty; decide +kernel),
    ?_⟩
  all_goals decide +kernel

/-- A SILL packet of KIND k: the first bytes of its payload. -/
def sill (b : List Nat) : Bytes := (b.map (BitVec.ofNat 8)) ++ List.replicate (64 - b.length) 0

theorem witness_SillPacketsAct :
    (∃ feOk part t, (door member).takes 0 9 (hd 1 1) (sill [1]) ∧ (hd 1 1).addr.toNat % 16 = 1 ∧ field (sill [1]) 0 2 ≠ 0x100 ∧
      ((door member).countRx 0 (hd 1 1) (sill [1])).isMember = true ∧
      (hd 1 1).src.toNat / 65536 = ((door member).countRx 0 (hd 1 1) (sill [1])).lead ∧ ((door member).countRx 0 (hd 1 1) (sill [1])).fe = false ∧
      partOf 1 (((door member).countRx 0 (hd 1 1) (sill [1])).reqOf (hd 1 1) (slice 0 64 (sill [1]))) (slice 0 64 (sill [1])) = some (feOk, part) ∧
      part ((door member).countRx 0 (hd 1 1) (sill [1])) = t ∧ ((door member).countRx 0 (hd 1 1) (sill [1])).host.sillDown = false) ∧
    (partOf 0xFFFF (((door member).countRx 0 (hd 1 1) (sill [255, 255])).reqOf (hd 1 1) (sill [255, 255])) (sill [255, 255])).isNone = true ∧
    (∀ k ∈ [2, 3, 5, 6], (door []).takes 0 9 (hd k 1) (zeros 1) ∧ (hd k 1).addr.toNat % 16 = k ∧
      ((door []).countRx 0 (hd k 1) (zeros 1)).isMember = false) ∧
    (field (sill [63]) 0 1 % 64 ≠ 0 ∧ (door []).host.killed.contains 63 = false) := by
  refine ⟨⟨_, _, _, pkt_of ?_, ?_, ?_, ?_, ?_, ?_, rfl, rfl, ?_⟩, ?_, fun k h => ⟨pkt_of (by revert k; decide +kernel),
    by revert k; decide +kernel, by revert k; decide +kernel⟩, ?_⟩
  all_goals decide +kernel

/-! ### Witnesses: links, feeds and time, the expert router and Agate -/

def lone : State := on [(Reg.CASE.A_OK 15, 1), (Reg.DOOR.LINK_STATE 15 2, 2)]
def master : State := on ((Reg.DOOR.LINK_STATE 0 0, 3) :: member)
def offset (t2 : Nat) : Int := ((((t2 : Nat) : Int) - ((0 : Nat) : Int)) - (((0 : Nat) : Int) - ((0 : Nat) : Int))) / 2
/-- The state in which a follower has waited for its next exchange. -/
def exchanged (s : State) : State :=
  let cut := max (-500) (min 500 s.doors.slewPs)
  let moved := s.doors.phasePs + cut
  let t := s.passTo (s.doors.lastExchange + ((10000 : Int) + moved.tdiv 1000).toNat)
  { t with doors := { t.doors with lastExchange := t.now, slewPs := s.doors.slewPs - cut, phasePs := moved.tmod 1000 } }

theorem witness_LinksFeedsAndTimeAct :
    (lone.phase = .up ∧ lone.get (Reg.DOOR.LINK_STATE 15 (doorLink 15 2)) = 2 ∧ lone.lit 15 = true ∧
      (∀ u : State, u.dev = 0 → ((48 : BitVec 6).toNat = (u.peerOf 15 2).1 ∧ (15 : BitVec 4).toNat = (u.peerOf 15 2).2.1 ∧
        ((15 : Nat) ≠ 15 ∨ (0 : BitVec 2).toNat = (u.peerOf 15 2).2.2) ∧ (48 : BitVec 6).toNat ≠ u.dev)) ∧
      (∀ u : State, u.dev = 0 → (32 : BitVec 6).toNat ≠ (u.peerOf 15 2).1)) ∧
    (let s : State := { link 4 with doors := { DoorsSt.reset with failures := [(62, 3)], lost := [62] } }
     s.linkUsable 15 2 = true ∧ s.linkFailed 15 2 .retrainings = true ∧ s.linkFailed 15 2 .pairs = true) ∧
    (∀ x ∈ [(1200, true), (1199, false)], let u := lone.puts [(Reg.CASE.A_CDBM 15, x.1), (Reg.CASE.B_CDBM 15, 0)]
     u.feedGood 15 x.1 = x.2 ∧ u.feedGood 15 0 = false) ∧
    (∀ v ∈ [0, 1], (if (lone.put (Reg.CASE.ACTIVE 15) v).get (Reg.CASE.ACTIVE 15) = 1 then false else true) = decide (v = 0)) ∧
    (∀ st ∈ [4, 5], (on [(Reg.FW.STAGE, st)]).lit 15 = false ∧ (on [(Reg.FW.STAGE, st)]).get Reg.FW.STAGE = st) ∧
    (lone.host.d3hot = false ∧ lone.get (Reg.CASE.A_OK 15) = 1 ∧ (on [(Reg.CASE.B_OK 15, 1)]).get (Reg.CASE.B_OK 15) = 1 ∧
      (3 : BitVec 2) ≠ 0) ∧
    (master.isMember = true ∧ ((exchanged master).route (exchanged master).timeMaster).isSome = true ∧
      (on member).isMember = true ∧ ((exchanged (on member)).route (exchanged (on member)).timeMaster).isNone = true ∧
      (offset 6001).natAbs ≤ 3000 ∧ 3000 < (offset 6002).natAbs) := by
  refine ⟨⟨?_, ?_, ?_, fun u h => ?_, fun u h => ?_⟩, ?_, ?_, ?_, ?_, ?_, ?_⟩
  on_goal 4 => simp [State.peerOf, h]
  on_goal 4 => simp [State.peerOf, h]
  all_goals decide +kernel

/-- A batch of generation 1 with one dispatch of core 0, one receive of expert 0 and one return of it. -/
def part (core expert : Nat) (fin : Bool) (owed : List Nat) (d a : BitVec 1024) : XPart :=
  ⟨core, 1, 1, expert, d, a, 0, false, fin, [], 1, [], 0xA00000, none, owed, []⟩
def inBatch (sent fin : Bool) (owed : List Nat) : Batch :=
  ⟨1, 1, 0, [part 0 0 fin owed xd.dD xd.dA], [part 0 0 fin [] xr.dD 0], [⟨0, true, 0, 2⟩], sent, [],
    List.replicate 64 0, [], [], [], []⟩
def expert (b : List Batch) : State :=
  ({ door [(Reg.EXPERT.DISP_CORES, 1), (Reg.EXPERT.PLACE_VALID 0, 1)] with batches := b } : State)

theorem witness_ExpertPacketsAct :
    (let s := expert [inBatch false false []]
     s.phase = .up ∧ s.seat.batch? (1 : BitVec 16).toNat = some (inBatch false false []) ∧
      (inBatch false false []).sent = false ∧
      (s.seat.dispCores.all fun n => (inBatch false false []).xdisps.any fun x => x.core == n) = true ∧
      (s.seat.localExperts.all fun e => (inBatch false false []).xrecvs.any fun x => x.expert == e) = true) ∧
    (∀ g ∈ [1, 0x8000], let h := hd (expertAddr 0 0 0 g 0 1) 5
     (expert []).takes 0 5 h (zeros 5) ∧ h.addr.toNat % 16 = 1 ∧ bitsOf h.addr.toNat 25 10 = g ∧
      (let u := ((expert []).countRx 0 h (zeros 5)).seat
       u.batchRoom g = true ∧ u.genRetired g = (g == 0x8000))) ∧
    (let h := hd (expertAddr 0 0 0 9 0 1) 5
     let s := expert ((List.range 8).map fun k => { oneBatch with gen := k + 1, slot := k })
     s.takes 0 5 h (zeros 5) ∧ (s.countRx 0 h (zeros 5)).seat.batchRoom 9 = false) ∧
    (let s := expert [inBatch true false []]
     s.takes 0 5 (hd (expertAddr 0 0 0 1 0 2) 1) (zeros 1) ∧
      ((s.countRx 0 (hd (expertAddr 0 0 0 1 0 2) 1) (zeros 1)).batch? 1) = some (inBatch true false []) ∧
      (inBatch true false []).xrecvs.find? (fun x => x.expert == 0 && !x.finished) = some (part 0 0 false [] xr.dD 0) ∧
      (inBatch true true []).xrecvs.find? (fun x => x.expert == 0 && !x.finished) = none ∧
      ((expert []).countRx 0 (hd (expertAddr 0 0 0 1 0 2) 1) (zeros 1)).batch? 1 = none) ∧
    (let s := expert [inBatch true true [7]]
     s.takes 0 5 (hd (expertAddr 0 7 0 1 0 3) 1) (zeros 1) ∧ (hd (expertAddr 0 7 0 1 0 3) 1).addr.toNat % 16 = 3 ∧
      bitsOf (hd (expertAddr 0 7 0 1 0 3) 1).addr.toNat 44 29 = 7 ∧
      (inBatch true true [7]).xdisps.find? (fun x => x.core == 0 && x.owed.contains 7) =
        some (part 0 0 true [7] xd.dD xd.dA) ∧
      (inBatch true true []).xdisps.find? (fun x => x.core == 0 && x.owed.contains 7) = none) ∧
    (let s := expert [inBatch true true []]
     s.batchOver (inBatch true true []) = true ∧ s.batches.find? (fun b => b.gen = 1) = some (inBatch true true [])) ∧
    (expert []).batches.find? (fun b => b.gen = 1) = none := by
  refine ⟨?_, fun g h => ⟨pkt_of (by revert g; decide +kernel), by revert g; decide +kernel⟩, ⟨pkt_of ?_, ?_⟩, ⟨pkt_of ?_, ?_⟩,
    ⟨pkt_of ?_, ?_⟩, ?_⟩ <;> decide +kernel

/-- Bucket 3 of Agate on the lead of one device, with door 0 up and Agate's pages; a record of its one contribution. -/
def agate (l : List (Fld × Nat)) : State :=
  ({ door (agateOn 1 ++ (Reg.AGATE.BUCKET_RXBASE 3, 0x200000) :: l) with
      slices := page 0x402 1 csBase ++ page 0x402 2 (csBase + 0x200000) ++ page 0x402 3 (csBase + 0x400000) ++
        page 0x402 4 (csBase + 0x600000) } : State)
def slot3 : RxSlot := ⟨0, 3, 0, 0, [⟨0, 0, 0⟩], 0, 0, false⟩
def slotted (st : Nat) (closed : Nat) : State :=
  { agate [(Reg.AGATE.BUCKET_STATE 3, st)] with agate := { AgateSt.reset with slots := [slot3] }, doors := { (agate []).doors with nextClose := closed } }
def contribution : Contribution := ⟨0, 1, 3, ap.dD, ap.dA, ap.dX⟩
def taking : State :=
  ({ agate [] with agate := { AgateSt.reset with waiting := [contribution] } } : State).setCore 0 { CoreSt.zero with window := [ap] }

def errorsOf (k : Packed) : List El :=
  if k.range then [] else
    List.zipWith (fun ix e => El.mk ((ap.td roleX).bitAddr ix) 16 e false) ((ap.td roleA).allIx.map (· ++ [1])) k.errs

/-- A CONTRIB packet's header for piece 0 of a bucket, and a REPORT's or VERDICT's, of a step and run. -/
def addrOf (k run step kind : Nat) : Nat := k * 2 ^ 30 + run * 2 ^ 22 + step * 2 ^ 6 + kind
def fromSelf (h : Hdr) : Hdr := { h with src := 0x402 }
/-- A VERDICT's payload: retry. -/
def retry : Bytes := sill [0, 0, 0, 0, 0, 0, 0, 0, 2]

theorem witness_AgateActs :
    (let s := on [(Reg.AGATE.STEP_STATE, 2), (Reg.BARRIER.CLOSE_CNT 0, 0x7FFFFFFF)]
     let ahead := (s.get (Reg.BARRIER.CLOSE_CNT (s.get Reg.AGATE.CTL_STEP_BARRIER)) + 2 ^ 32 - s.get Reg.AGATE.CLOSE_BASE) % 2 ^ 32
     s.get Reg.AGATE.STEP_STATE = 2 ∧ 0 < ahead ∧ ahead < 2 ^ 31) ∧
    (({ taking with cores := [] } : State).agate.waiting = contribution :: [] ∧
      (({ taking with cores := [] } : State).core 0).window.find? (fun i => i.tag = 1) = none) ∧
    (∃ u ma v mx w els, taking.agate.waiting = contribution :: [] ∧
      (taking.expireBucket 3).agate.waiting.head? = some contribution ∧
      (taking.core 0).window.find? (fun i => i.tag = 1) = some ap ∧
      (taking.expireBucket 3).readSpans agateSrc taking.agateJob (spans (elemBytes ((ap.td roleA).places (ap.td roleA).allIx))) = (u, ma, .done) ∧
      u.readSpans agateSrc taking.agateJob
        (spans (elemBytes ((ap.td roleX).places ((ap.td roleA).allIx.map (· ++ [taking.stepNow % 2]))))) = (v, mx, .done) ∧
      (v.others.any fun d => (v.route d).isNone) = false ∧
      els = errorsOf (pack ((ap.td roleA).allIx.map fun ix => decodeNum 1 (codeIn ma ((ap.td roleA).bitAddr ix) 32))
        (((ap.td roleA).allIx.map (· ++ [taking.stepNow % 2])).map fun ix => decodeNum 2 (codeIn mx ((ap.td roleX).bitAddr ix) 16))) ∧
      v.writeUnit agateSrc 34 taking.agateJob els = (w, .done)) ∧
    (∃ t secs, (agate []).seat.takes 0 4 (fromSelf (hd (addrOf 3 0 0 1) 2)) (zeros 2) ∧
      (let u := (agate []).seat.countRx 0 (fromSelf (hd (addrOf 3 0 0 1) 2)) (zeros 2)
       u.get Reg.AGATE.STEP_STATE = 1 ∧ u.runNow = 0 ∧ u.stepNow = 0 ∧ u.get (Reg.AGATE.BUCKET_VALID 3) = 1 ∧
        0 < u.contribs 3 ∧ 0 < slotPieces (u.get (Reg.AGATE.BUCKET_N 3)) ∧ u.members.contains 0 = true ∧
        (u.expireBucket 3).receiveAt agateSrc 34 u.agateJob (u.slotVa 3 0 0 + 2048 * 0) (fromSelf (hd (addrOf 3 0 0 1) 2)) (zeros 2) =
          (t, secs, .done))) ∧
    (∃ t secs, let h := { fromSelf (hd (addrOf 3 0 0 1) 2) with poison := 2 }
      let u := ({ agate [] with slices := page 0x402 1 (csBase + 32) } : State).countRx 0 h (zeros 2)
      (u.expireBucket 3).receiveAt agateSrc 34 u.agateJob (u.slotVa 3 0 0 + 2048 * 0) h (zeros 2) = (t, secs, .poison 0x200040)) ∧
    (∃ t secs re l, let u := ({ agate [] with slices := [] } : State).countRx 0 (fromSelf (hd (addrOf 3 1 0 1) 2)) (zeros 2)
      (addrOf 3 1 0 1) / 2 ^ 22 % 256 = (u.runNow + 1) % 256 ∧
      (u.expireBucket 3).receiveAt agateSrc 34 u.agateJob (u.slotVa 3 0 0 + 2048 * 0) (fromSelf (hd (addrOf 3 1 0 1) 2)) (zeros 2) =
        (t, secs, .bad 0x200000 re l)) ∧
    ((agate []).seat.takes 0 4 (hd (addrOf 1024 0 0 1) 2) (zeros 2) ∧
      ¬bitsOf (hd (addrOf 1024 0 0 1) 2).addr.toNat 45 30 < 1024) ∧
    (∃ t sums tot, (slotted 1 0).agateOpen = true ∧ (slotted 1 0).get (Reg.AGATE.BUCKET_VALID 3) = 1 ∧
      (slotted 1 0).get (Reg.AGATE.BUCKET_STATE 3) = 1 ∧ (slotted 1 0).completeIn (slotted 1 0).runNow 3 = (slotted 1 0).needed 3 ∧
      ((slotted 1 0).put (Reg.AGATE.BUCKET_STATE 3) 2).sumSlots 3 ((slotted 1 0).get (Reg.AGATE.BUCKET_N 3))
        ((slotted 1 0).bucketSlots 3) (List.replicate ((slotted 1 0).get (Reg.AGATE.BUCKET_N 3)) 0) 0 = (t, .inr (sums, tot))) ∧
    ((agate [(Reg.AGATE.BUCKET_STATE 3, 1)]).get (Reg.AGATE.BUCKET_STATE 3) = 1 ∧
      (agate [(Reg.AGATE.BUCKET_STATE 3, 1)]).completeIn 0 3 ≠ (agate [(Reg.AGATE.BUCKET_STATE 3, 1)]).needed 3) ∧
    ((slotted 3 1).agateOpen = true ∧ (slotted 3 1).get (Reg.AGATE.BUCKET_STATE 3) = 3 ∧
      (((slotted 3 1).bucketSlots 3).all fun r => (slotted 3 1).epochClosed r.dev r.epoch) = true ∧
      ((slotted 3 1).checks.any fun c => c.src == agateSrc && c.bucket == 3) = false) ∧
    ((agate []).takes 0 4 (hd (addrOf 3 0 0 2) 1) (zeros 1) ∧
      (((agate []).countRx 0 (hd (addrOf 3 0 0 2) 1) (zeros 1)).ledgerAdd 0 (hd (addrOf 3 0 0 2) 1) []).namesRun (hd (addrOf 3 0 0 2) 1).addr.toNat = true ∧
      (((agate []).countRx 0 (hd (addrOf 3 0 0 2) 1) (zeros 1)).ledgerAdd 0 (hd (addrOf 3 0 0 2) 1) []).isMember = false ∧
      (((agate []).countRx 0 (hd (addrOf 3 1 0 2) 1) (zeros 1)).ledgerAdd 0 (hd (addrOf 3 1 0 2) 1) []).namesRun (hd (addrOf 3 1 0 2) 1).addr.toNat = false) ∧
    ((agate []).agateOpen = true ∧ (agate []).isMember = false ∧ (agate []).missingDevice = some 0) ∧
    ((agate member).takes 0 4 (hd (addrOf 3 0 0 3) 1) retry ∧
      (((agate member).countRx 0 (hd (addrOf 3 0 0 3) 1) retry).ledgerAdd 0 (hd (addrOf 3 0 0 3) 1) []).namesRun (hd (addrOf 3 0 0 3) 1).addr.toNat = true ∧
      (((agate member).countRx 0 (hd (addrOf 3 0 0 3) 1) retry).ledgerAdd 0 (hd (addrOf 3 0 0 3) 1) []).isMember = true ∧
      (retry.getD 8 0).toNat = 2) := by
  refine ⟨?_, ?_, ⟨_, _, _, _, _, _, ?_, ?_, ?_, last_of ?_, last_of ?_, ?_, rfl, pair_of ?_⟩,
    ⟨_, _, pkt_of ?_, ?_, ?_, ?_, ?_, ?_, ?_, ?_, last_of ?_⟩, ⟨_, _, last_of ?_⟩, ⟨_, _, 1, 3, ?_, last_of ?_⟩, ⟨pkt_of ?_, ?_⟩, ⟨_, _, _, ?_, ?_, ?_, ?_, inr_of ([], 0) ?_⟩, ?_, ?_,
    ⟨pkt_of ?_, ?_⟩, ?_, ⟨pkt_of ?_, ?_⟩⟩
  all_goals decide +kernel

/-! ### Witnesses: snapshots, the port, registers and keys -/

/-- A command for device 0 with a job. -/
def rq (job : Nat) : Req := ⟨5, 77, false, BitVec.ofNat 6 job, 0⟩
def ask : SnapAsk := ⟨rq 1, 7, [], 0, 0, 0, 0⟩
def asked (l : List (Fld × Nat)) : State :=
  { base.puts l with snap := { SnapSt.reset with asked := some ask } }
/-- A job whose one page, in a core store, is in the snapshot set. -/
def inCore : State :=
  ([0x200000, 0x201000, 0x202000].foldl (fun (s : State) t => s.setBytes t ((bytesOf 8 (tableLink (t + 0x1000))).map some))
    (asked [(Reg.XLAT.JOB_ROOT 1, 0x200)])).setBytes 0x203000 ((bytesOf 8 (csBase + 0x1F)).map some)
def busy : State := { win [insn 0 0] with snap := { SnapSt.reset with asked := some ask } }
def blk (st : Nat) (t : Bool) (at_ : Nat) : Block := ⟨0x200000 * (at_ + 1), csBase, st, t, at_, []⟩
def open_ (b : List Block) (r : List (Nat × ImageBlock)) (x : Option Image) (m : List (Fld × Nat)) : State :=
  { on ((Reg.SNAP.RESERVE_SIZE, 0x200000) :: m) with
    snap := { SnapSt.reset with isOpen := true, blocks := b, reserve := r, image := x } }
def image : Image := ⟨7, 0, 1, 0, 2 ^ 30, 0, 0, 0, 0, some [1], ⟨[], [], [], 0⟩, [], 0, [], true, false, 64, 0, 0, []⟩

theorem witness_SnapshotsAct :
    ((asked []).snap.asked = some ask ∧ (asked []).isParked 1 = true ∧ (asked []).snapRoom 1 [] = true) ∧
    (inCore.isParked 1 = true ∧ inCore.snapRoom 1 [] = false) ∧
    (busy.snap.asked = some ask ∧ (busy.passTo (ask.at_ + 1000000)).isParked 1 = false) ∧
    (let s := open_ [blk 2 false 0, blk 0 false 1] [] none []
     s.snap.isOpen = true ∧ s.snap.reserve = [] ∧ (s.snap.blocks.any Block.urgent) = false ∧ s.readRoom = true ∧
      s.snap.blocks.findIdx? (fun b => b.state == 0 && !b.touched) = some 1) ∧
    (let o := open_ [blk 0 true 1, blk 0 true 0] [] none []
     let s : State := { o with snap := { o.snap with heldWrites := [⟨0x200000, rd true, 0⟩, ⟨0x400000, rd true, 0⟩] } }
     s.snap.isOpen = true ∧ s.snap.blocks[1]? = some (blk 0 true 0) ∧ (blk 0 true 0).urgent = true ∧
      s.touchNext = some (blk 0 true 0).va ∧ s.reserveRoom = true ∧ s.readRoom = true) ∧
    (∀ st ∈ [1, 3], let s := open_ [blk st true 0] [] none []
     s.snap.blocks[0]? = some (blk st true 0) ∧ s.readsOut (blk st true 0).pa = false) ∧
    (let s := open_ [] [(3, ⟨0, 0, [], []⟩)] none []
     s.snap.reserve = (3, ⟨0, 0, [], []⟩) :: [] ∧ s.readRoom = true) ∧
    (∀ m ∈ [[], member], let s := open_ [blk 2 false 0] [] (some image) m
     s.snap.reserve = [] ∧ s.snap.ready = [] ∧ s.snap.acks = [] ∧ (∀ b ∈ s.snap.blocks, b.state = 2) ∧
      s.snap.image = some image ∧ s.get Reg.SNAP.NOTIFY_V = 0 ∧
      s.isMember = !m.isEmpty) := by
  decide +kernel

/-- Ring 5 of two entries; a completion for it. -/
def ring (e : Option Bytes) (used : Nat) (stop reading : Bool) : Ring :=
  ⟨5, 1, 1, 0, 3, 0, 0, 0, 0, 1, 0, 0, used, true, stop, 0, [0], e, reading, none⟩
def cpl5 : Completion := ⟨5, 77, 0, 0, 0, 0, false⟩
def ringAt (x : Ring) (up : Nat) (due : List Completion) (m : List (Fld × Nat)) : State :=
  { on ([(Reg.GEN.READY, 1), (Reg.GEN.LINK_UP, up)] ++ m) with
    host := { HostSt.reset with rings := [x], due := due } }

theorem witness_RingsAct :
    (let s := ringAt (ring (some []) 0 false false) 1 [] []
     s.phase = .up ∧ s.get Reg.GEN.READY = 1 ∧ s.host.sillDown = false ∧ s.serveNext = some (1, 5) ∧ s.ring? 5 = some (ring (some []) 0 false false) ∧
      State.reset.get Reg.GEN.READY = 0 ∧ (on [(Reg.GEN.READY, 1)]).serveNext = none ∧ (∀ y ∈ State.reset.host.due, y.ring ≠ 5)) ∧
    (∀ up ∈ [0, 1], ∀ used ∈ [1, 2], let s := ringAt (ring none used false false) up [cpl5] []
     splitFirst (fun (y : Completion) => y.ring == 5) s.host.due = some ([], cpl5, []) ∧
      s.ring? 5 = some (ring none used false false) ∧ s.get Reg.GEN.LINK_UP = up ∧
      (decide (used < (ring none used false false).size) = decide (used = 1))) ∧
    (let s := ringAt (ring none 0 false false) 1 [] []
     s.host.d3hot = false ∧ s.isMember = false ∧ s.ring? 5 = some (ring none 0 false false) ∧
      (ring none 0 false false).rings = true ∧ (1 : BitVec 64).toNat < (ring none 0 false false).size ∧
      (ring none 0 false false).size ≤ (2 : BitVec 64).toNat ∧ s.ring? 6 = none ∧ (ring none 0 true false).rings = false) ∧
    (ringAt (ring none 0 false false) 1 [] member).isMember = true ∧
    (∀ e ∈ [0, 1], (on [(Reg.GEN.RING0_EN, e)]).get Reg.GEN.RING0_EN = e) ∧
    (bitOf (2 ^ 63 : BitVec 64).toNat 63 = true ∧ bitOf (2 ^ 63 - 1 : BitVec 64).toNat 63 = false) := by
  decide +kernel

/-- One read of host memory is out. -/
def reading (u : HostUse) (s : State) : State :=
  { s with host := { s.host with reads := [⟨9, 0x1000, 64, u⟩] } }
def outside : State := { base with slices := page 0x401 1 csBase }

theorem witness_HostReadsComeBack :
    (∀ x ∈ State.reset.host.reads, x.id ≠ 9) ∧
    (∀ tried : Bool, let s := reading (.entry 5 tried) (ringAt (ring none 0 false true) 1 [] [])
     s.phase = .up ∧ splitFirst (fun (x : HostRead) => x.id == 9) s.host.reads = some ([], ⟨9, 0x1000, 64, .entry 5 tried⟩, []) ∧
      s.ring? 5 = some (ring none 0 false true) ∧ (ring none 0 false true).reading = true) ∧
    (∀ flush : Bool, let r : Run := { mcRun with flushed := flush }
     let s : State := { reading (.burst 0 5 0 csBase) base with runs := [r] }
     splitFirst (fun (x : HostRead) => x.id == 9) s.host.reads = some ([], ⟨9, 0x1000, 64, .burst 0 5 0 csBase⟩, []) ∧
      s.run? 0 5 = some r ∧ r.burstNo = 0 ∧ r.flushed = flush) ∧
    (∀ tried : Bool, ∀ job ∈ [1, 2], let c : HostCopy := ⟨4, rq job, 1, 0, [], []⟩
     let s := reading (.copy 4 0x200000 tried) ({ outside with host := { outside.host with copies := [c] } } : State)
     splitFirst (fun (x : HostRead) => x.id == 9) s.host.reads = some ([], ⟨9, 0x1000, 64, .copy 4 0x200000 tried⟩, []) ∧
      s.host.copies.find? (fun x => x.n == 4) = some c ∧ (s.get (Reg.XLAT.JOB_VALID job) = 0 ↔ job = 2)) ∧
    CplResult.poisoned ≠ .error ∧
    (let ahead : List HostRead := List.replicate 1024 ⟨8, 0x1000, 64, .dropped 9⟩
     let r : HostRead := ⟨9, 0x1000, 64, .dropped 9⟩
     splitFirst (fun (x : HostRead) => x.id == 9) (ahead ++ [r]) = some (ahead, r, []) ∧ 1024 ≤ ahead.length) ∧
    (let s := reading (.dropped 9) base
     splitFirst (fun (x : HostRead) => x.id == 9) s.host.reads = some ([], ⟨9, 0x1000, 64, .dropped 9⟩, [])) := by
  refine ⟨?_, ?_, ?_, ?_, ?_, ?_, ?_⟩ <;> decide +kernel

/-- The aperture of job 1 is on, at unit 1. -/
def aperture : State := outside.puts [(Reg.GEN.BAR4_EN, 1), (Reg.GEN.BAR4_JOB, 1), (Reg.GEN.BAR4_BASE, 1)]

theorem witness_BarAccessesAct :
    (State.reset.phase = .up ∧ State.reset.host.d3hot = false ∧ goodAccess 0x3FFFFF8 8 = true ∧ goodAccess 0x3FFFFFC 8 = false ∧
      goodAccess 0 2 = false ∧ ({ State.reset with host := { HostSt.reset with d3hot := true } } : State).host.d3hot = true) ∧
    (let f := Reg.WIN.HOT_EN 31
     let x := (2 ^ 31 : BitVec 64).toNat % 2 ^ (8 * 4) * 2 ^ (8 * (f.off % 8))
     let m := coverMask f.off 4
     f.off / 8 * 8 = f.off ∧ goodAccess f.off 4 = true ∧ State.reset.absentAt f.off = false ∧
      (State.reset.writeSpecial f.off x m false).isNone = true ∧ (Reg.fieldsAt f.off).any (State.reset.wouldChange x m) = false) ∧
    (State.reset.absentAt 0 = false ∧ State.reset.kept.grade = .n8 ∧
      ({ State.reset with kept := { Kept.reset with grade := .n7 } } : State).absentAt (coreBase 7) = true) ∧
    (let f := Reg.PWR.DIE_W
     State.reset.absentAt (f.off / 8 * 8) = false ∧
      (Reg.fieldsAt (f.off / 8 * 8)).any (State.reset.wouldChange 0 (coverMask f.off 8)) = true) ∧
    (State.reset.writeSpecial 0x80FF8 1 1 false).isSome = true ∧
    (∃ t bytes, (0x1FFFFF : BitVec 35).toNat + (1 : BitVec 13).toNat ≤ 2 ^ 32 ∧ aperture.apertureOn = true ∧
      aperture.readAperture (aperture.get Reg.GEN.BAR4_JOB) (sectorsOf (aperture.apertureVa 0x1FFFFF) 1) = (t, .inr (bytes, false))) ∧
    (let s : State := { aperture with poison := [(csBase + 0x1FFFE0) / 32] }
     (s.readAperture (s.get Reg.GEN.BAR4_JOB) (sectorsOf (s.apertureVa 0x1FFFFF) 1)).2.getRight?.map Prod.snd = some true) ∧
    (aperture.readAperture (aperture.get Reg.GEN.BAR4_JOB) (sectorsOf (aperture.apertureVa 0x200000) 1)).2.isLeft = true ∧
    (2 ^ 32 - 1) + (1 : BitVec 13).toNat ≤ 2 ^ 32 ∧ State.reset.apertureOn = false ∧
    (∃ t, aperture.writeVa 0x401 (aperture.get Reg.GEN.BAR4_JOB) (aperture.apertureVa 0x1FFFFF) [0xAB] false = (t, .done)) := by
  refine ⟨?_, ?_, ?_, ?_, ?_, ⟨_, (val ([], false) (aperture.readAperture (aperture.get Reg.GEN.BAR4_JOB)
    (sectorsOf (aperture.apertureVa 0x1FFFFF) 1)).2).1, ?_, ?_, pair_of ?_⟩, ?_, ?_, ?_, ?_, ⟨_, pair_of ?_⟩⟩
  all_goals decide +kernel

theorem witness_FieldsTakeWritesByTheirCode :
    State.reset.get (Reg.WIN.HOT_EN 31) < 2 ^ (Reg.WIN.HOT_EN 31).w ∧ (Reg.WIN.HOT_THRESH 31).key ≠ (Reg.WIN.HOT_EN 31).key ∧
    (Reg.WIN.HOT_EN 31).acc = .rw := by decide

/-- An exchange slot of device 63 holds a message; job 0's area is at the top of 1 GiB. -/
def slot63 (b : Nat) : State :=
  ({ on [(Reg.SEC.READY, 1)] with host := { HostSt.reset with poolBase := 0x3FF80000, poolSize := 0x80000 } } : State).setByte
    (0x3FF80000 + 8192 * 63) (BitVec.ofNat 8 b)
/-- An image of job 1 with no blocks. -/
def image1 : Image := ⟨1, 0, 1, 0, 0, 0, 0, 0, 0, none, ⟨[], [], [], 0⟩, [], 0, [], false, false, 0, 0, 0, []⟩
def forming (m : List Nat) : State :=
  { State.reset with host := { HostSt.reset with forming := some ⟨rq 0, 3, m, 0, 0, 0⟩ } }

theorem witness_KeysAndInvalidationsAct :
    (State.reset.phase = .up ∧ State.reset.get Reg.XLAT.BUSY = 0 ∧ (on [(Reg.XLAT.BUSY, 1)]).get Reg.XLAT.BUSY = 1) ∧
    (∀ r ∈ [none, some (rq 1)], let x : Inval := ⟨1, false, 0, 1, [(0, 0), (2 ^ 20, 1)], 0, r⟩
     let s : State := { State.reset with inval := some x }
     State.reset.inval = none ∧ s.inval = some x ∧ (x.users.any s.stillUsed = false) ∧ x.users.any (win [insn 0 0]).stillUsed = true) ∧
    (∀ k ∈ [none, some 0], let y : Restore := ⟨rq 1, image1, 5, k⟩
     State.reset.snap.restoring = none ∧
      ({ State.reset with snap := { SnapSt.reset with restoring := some y } } : State).snap.restoring = some y) ∧
    (State.reset.present 7 = true ∧ (State.reset.core 7).window = [] ∧ (held.core 7).window ≠ [] ∧ held.present 7 = true ∧
      State.reset.get (Reg.CORE.LANE_STATE 7 255) ≠ 0 ∧
      ({ State.reset with kept := { Kept.reset with grade := .n7 } } : State).present 7 = false) ∧
    ((slot63 1).get Reg.SEC.READY = 1 ∧ slice 0 1 ((slot63 1).slotBytesAt 63 0 64) = bytesOf 1 1 ∧
      ((slot63 1).slotRead 63 0 64).peerStep 63 = 1 ∧ slice 0 1 ((slot63 4).slotBytesAt 63 0 64) ≠ bytesOf 1 1) ∧
    (let s : State := { slot63 2 with sec := ⟨true, none, some [9], [(63, 1, 0, [])]⟩ }
     s.get Reg.SEC.READY = 1 ∧ slice 0 1 (s.slotBytesAt 63 0 64) = bytesOf 1 2 ∧ (s.slotRead 63 0 64).peerStep 63 = 2 ∧
      s.outKey = some [9]) ∧
    (let s : State := { slot63 3 with sec := ⟨true, none, none, [(63, 2, 0, [])]⟩ }
     s.get Reg.SEC.READY = 1 ∧ slice 0 1 (s.slotBytesAt 63 0 64) = bytesOf 1 3 ∧ (s.slotRead 63 0 64).peerStep 63 = 3) ∧
    ((forming [1]).host.forming = some ⟨rq 0, 3, [1], 0, 0, 0⟩ ∧ (rq 0).cmdId = 77 ∧ (forming [1]).isMember = false ∧
      [1].contains 1 = true) ∧
    (let s : State := { forming [] with host := { (forming []).host with relayed := [⟨rq 0, [1], 0, 0, 0, 0, false⟩] } }
     s.isMember = false ∧ [].contains 1 = false ∧ (s.host.relayed.any fun x => x.of 5 77 && x.waiting.contains 1) = true) := by
  decide +kernel

/-! ### Witnesses: the commands of Sill firmware -/

theorem serves_one {s : State} {r : Req} (h : s.phase = .up ∧ s.fe = false ∧ s.host.sillDown = false ∧ s.isMember = false ∧
    r.target.toNat = s.dev) (e : Nat → Bytes) : s.serves r .target s e ∧ s.serves r .lead s e :=
  ⟨⟨h.1, h.2.1, h.2.2.1, h.2.2.2.1, .inl ⟨.inl rfl, h.2.2.2.2, rfl⟩⟩,
    ⟨h.1, h.2.1, h.2.2.1, h.2.2.2.1, .inl ⟨.inr rfl, h.2.2.2.2, rfl⟩⟩⟩

/-- A device alone, as it performs a command of every member or of its tray. -/
def whole (r : Req) (s : State) : State :=
  { s with host := { s.host with relayed := s.host.relayed ++ [⟨r, [s.dev], 0, 0, 0, 0, true⟩] } }

theorem relay_alone (s : State) (r : Req) (e : Nat → Bytes) : s.relayTo r e [s.dev] true = whole r s := by
  unfold State.relayTo whole
  simp [State.dev]

theorem serves_whole {s : State} {r : Req} (h : s.phase = .up ∧ s.fe = false ∧ s.host.sillDown = false ∧ s.isMember = false ∧
    s.members = [s.dev])
    (e : Nat → Bytes) : s.serves r .all (whole r s) e ∧ s.serves r (.tray (s.dev / 16)) (whole r s) e := by
  have hd : (whole r s).dev = s.dev := rfl
  refine ⟨⟨h.1, h.2.1, h.2.2.1, h.2.2.2.1, .inr ⟨?_, ?_⟩⟩, ⟨h.1, h.2.1, h.2.2.1, h.2.2.2.1, .inr ⟨?_, ?_⟩⟩⟩
  all_goals simp [State.group, h.2.2.2.2, hd, relay_alone]

theorem trip_of {α β γ : Type} {x : Option (α × β × γ)} (h : x.isSome = true) : ∃ a b c, x = some (a, b, c) := by
  obtain _ | ⟨a, b, c⟩ := x
  · cases h
  · exact ⟨a, b, c, rfl⟩

theorem some_of {α : Type} (d : α) {x : Option α} (h : x.isSome = true) : x = some (x.getD d) := by
  obtain _ | a := x
  · cases h
  · rfl

/-- A command for device 1; the lead of devices 0 and 1, with a door up or not. -/
def far : Req := { rq 1 with target := 1 }
def lead (st : Nat) : State :=
  on [(Reg.DOOR.FORMED 0, 1), (Reg.DOOR.IS_LEAD 0, 1), (Reg.DOOR.MEMBERS 0, 3), (Reg.DOOR.LINK_STATE 0 0, st)]

theorem witness_CommandsGoWhereTheirScopeSays :
    (commandRow (.status far) = some (far, .target, true) ∧ (lead 3).isMember = false ∧ far.target.toNat ≠ (lead 3).dev ∧
      (lead 3).members.contains far.target.toNat = true ∧ ((lead 3).route far.target.toNat).isSome = true ∧
      (lead 0).route far.target.toNat = none ∧ State.reset.members.contains far.target.toNat = false) ∧
    (commandRow (.ringDestroy far 3) = some (far, .lead, false) ∧ far.target.toNat ≠ State.reset.dev) ∧
    (commandRow (.batchCancel far 1 1) = some (far, .tray 1, false) ∧ ∀ d ∈ State.reset.members, d / 16 ≠ 1) ∧
    (commandRow (.patchLoad (rq 0) 0 0 []) = some (rq 0, .target, false) ∧ (on [(Reg.ERR.STATUS_FE, 1)]).fe = true ∧
      (on [(Reg.ERR.STATUS_FE, 1)]).otherHandlers (rq 0) = false ∧ (rq 0).target.toNat = (on [(Reg.ERR.STATUS_FE, 1)]).dev) := by
  decide +kernel

theorem witness_PartsEndInOneCompletion :
    (on member).isMember = true ∧ State.reset.isMember = false ∧
    (∀ x ∈ State.reset.host.relayed, x.of 5 77 = false) ∧
    (let s := whole (rq 0) State.reset
     s.isMember = false ∧ s.host.relayed = [⟨rq 0, [0], 0, 0, 0, 0, true⟩] ∧
      (⟨rq 0, [0], 0, 0, 0, 0, true⟩ : Relay).of 5 77 = true ∧ [0] = [s.dev] ∧ s.host.forming = none) := by
  decide +kernel

/-- Job 1, with its pages for Sill firmware, where no core runs. -/
def quiet : State := outside.put (Reg.CORE.STREAM_STATE 0) 0

theorem witness_QueriesAndKillsAct :
    (quiet.serves (rq 1) .target quiet ∧ (rq 1).job ≠ 0) ∧
    (∃ u, quiet.serves (rq 1) .all u) ∧ (∃ u, quiet.serves (rq 1) (.tray (0 : BitVec 8).toNat) u) ∧
    ((64 : BitVec 64).toNat % 64 = 0 ∧ 0 < (512 : BitVec 16).toNat ∧ (512 : BitVec 16).toNat ≤ 512) ∧
    ((0x3FFFFF8 : BitVec 32).toNat % 8 = 0 ∧ (0x3FFFFF8 : BitVec 32).toNat < 2 ^ 26) ∧
    ((1 : BitVec 8).toNat ≤ 1 ∧ (0x3FFE : BitVec 16).toNat + (1 : BitVec 16).toNat ≤ 0x3FFF) := by
  refine ⟨⟨(serves_one ?_ _).1, ?_⟩, ⟨_, (serves_whole ?_ _).1⟩, ⟨_, (serves_whole ?_ _).2⟩, ?_⟩
  all_goals decide +kernel

/-- Tables for jobs at 2 MiB, with the root of job 1; and its map of unit 0. -/
def tabled : State :=
  { quiet.puts [(Reg.XLAT.JOB_ROOT 1, 0x200)] with
    host := { HostSt.reset with poolBase := 0x200000, poolSize := 0x200000, tables := [(0x200000, 1)] } }
/-- The same with the tables of unit 0 in place, and with the unit mapped. -/
def linked : State :=
  ([0x200000, 0x201000, 0x202000].foldl (fun (s : State) t => s.setBytes t ((bytesOf 8 (tableLink (t + 0x1000))).map some)) tabled)
def mapped : State := (linked.putLeaves 1 (mapPages 0 0 0x1E 1)).getD linked
def ring0 : State := { State.reset with host := { HostSt.reset with rings := [{ ring none 0 false false with id := 9 }] } }

theorem takes_table : ∃ t p, tabled.takeTable 63 = some (t, p) := by
  unfold State.takeTable
  rw [show tabled.freeTable = some 0x201000 by decide +kernel]
  exact ⟨_, _, rfl⟩

theorem witness_SetupCommandsAct :
    (ring0.serves (rq 0) .lead ring0 ∧ (8 : BitVec 16) ≠ 0 ∧ badRing 16 3 255 2 64 32 = false ∧ ring0.ring? 8 = none ∧
      ring0.ring? 9 = some { ring none 0 false false with id := 9 } ∧ (9 : BitVec 16) ≠ (rq 0).ring ∧
      ({ ring none 0 false false with id := 9 } : Ring).destroying = none ∧ 6 ≤ (16 : BitVec 8).toNat ∧ (16 : BitVec 8).toNat ≤ 16) ∧
    (let s := on [(Reg.XLAT.MEM_TOP, 2 ^ 30)]
     s.serves (rq 0) .target s ∧ 0x200000 % 2 ^ 21 = 0 ∧ 2 ^ 29 - 2 ^ 21 + 0 + 2 ^ 21 ≤ s.memTop / 2 ∧
      (∀ k, 1 ≤ k → k < 64 → s.jobValid k = false)) ∧
    (tabled.serves (rq 63) .target tabled ∧ (rq 63).job ≠ 0 ∧ tabled.jobValid 63 = false ∧ tabled.memTop ≠ 0 ∧
      ∃ t p, tabled.takeTable 63 = some (t, p)) ∧
    (let s := tabled.put (Reg.XLAT.JOB_VALID 63) 1
     s.serves (rq 63) .target s ∧ s.jobValid 63 = true ∧ s.jobInUse 63 = false) := by
  refine ⟨⟨(serves_one ?_ _).2, ?_⟩, ⟨(serves_one ?_ _).1, ?_, ?_, fun k h h' => ?_⟩,
    ⟨(serves_one ?_ _).1, ?_, ?_, ?_, takes_table⟩, ⟨(serves_one ?_ _).1, ?_, ?_⟩⟩
  on_goal 6 => exact (by decide +kernel : ∀ k < 64, 1 ≤ k → (on [(Reg.XLAT.MEM_TOP, 2 ^ 30)]).jobValid k = false) k h' h
  all_goals decide +kernel

/-- An owner table's image: tensor 1, rank 1, an array of one tile, owned by this device. -/
def owner : Bytes :=
  [1, 0, 1, 0, 1] ++ List.replicate 23 0 ++ [1] ++ List.replicate 23 0 ++ [1, 0, 0, 0, 0]
def params (b : Bytes) : State := quiet.setBytes csBase (b.map some)

theorem witness_MappingCommandsAct :
    (linked.serves (rq 1) .target linked ∧ linked.jobFails (rq 1) = none ∧ linked.snapOf 1 = false ∧
      (1 : BitVec 32) ≠ 0 ∧ (∃ t, linked.goodRange 0 (1 * 2 ^ 21) false = true ∧ linked.meetsArea 0 (1 * 2 ^ 21) = false ∧
        ((mapPages 0 0 0x1E 1).map fun p => linked.mapSlot 1 p.1 false) = [.free] ∧
        linked.putLeaves 1 (mapPages 0 0 0x1E 1) = some t) ∧
      (∀ x ∈ [0], linked.leafOf 1 x = none) ∧ linked.meetsArea 0x200000 (1 * 2 ^ 21) = true ∧
      linked.jobFails (rq 0) = some stBADPARAM ∧ (linked.leafOf 2 0) = none) ∧
    (∃ t, tabled.snapOf 1 = false ∧ (tabled.put (Reg.XLAT.JOB_VALID 1) 0).jobFails (rq 1) = some stNOJOB ∧
      ({ tabled with host := { tabled.host with poolSize := 0x1000 } } : State).putLeaves 1 (mapPages 0 0 0x1E 1) = t ∧ t.isNone = true) ∧
    (mapped.serves (rq 1) .target mapped ∧ mapped.jobValid 1 = true ∧ mapped.snapOf 1 = false ∧
      ((mapPages 0 0 0x3E 1).map fun p => mapped.mapSlot 1 p.1 false) = [.taken] ∧ mapped.meetsArea 0 (1 * 2 ^ 21) = false ∧
      mapped.goodRange 0 (1 * 2 ^ 21) false = true ∧ (mapped.putLeaves 1 (mapPages 0 0 0x3E 1)).isSome = true ∧
      (∀ x ∈ [0], mapped.leafOf 1 x = some (0, 0x203000, 0x3F) ∧ leafInside 0 1 x 0 = true)) ∧
    (∃ t b, (params owner).serves (rq 1) .lead (params owner) ∧ (params owner).readParam (rq 1) 0x200000 57 = (t, .inr b) ∧
      t.ownerOk b 57 = true) ∧
    (State.reset.serves (rq 0) .target State.reset ∧ State.reset.present 7 = true ∧ State.reset.ctxF 7 4095 1 3 0 = 0 ∧
      bitOf (2 ^ 63 + 1 : BitVec 64).toNat 63 = true ∧ tabled.jobValid ((2 ^ 63 + 1 : BitVec 64).toNat % 64) = true ∧
      bitOf (2 ^ 63 - 1 : BitVec 64).toNat 63 = false) := by
  refine ⟨⟨(serves_one ?_ _).1, ?_, ?_, ?_, ⟨_, ?_, ?_, ?_, some_of State.reset ?_⟩, ?_⟩, ⟨_, ?_, ?_, rfl, ?_⟩, ⟨(serves_one ?_ _).1, ?_⟩,
    ⟨_, _, (serves_one ?_ _).2, inr_of [] ?_, ?_⟩, (serves_one ?_ _).1, ?_⟩
  all_goals decide +kernel

theorem natOf_zeros : ∀ n, natOf (List.replicate n 0) = 0
  | 0 => rfl
  | n + 1 => by rw [List.replicate_succ, natOf, natOf_zeros n]; rfl

theorem word_zeros {b : Bytes} (h : b.all (· == 0) = true) (k : Nat) : Machine.word b k = 0 := by
  have h0 : ∀ i, (List.drop (8 * k) b).getD i 0 = 0 := fun i => by
    rw [List.getD_eq_getElem?_getD, List.getElem?_drop]
    rcases hx : b[8 * k + i]? with _ | x
    · rfl
    · simpa using (List.all_eq_true.mp h) x (List.mem_of_getElem? hx)
  unfold Machine.word field slice
  rw [List.map_congr_left fun i _ => h0 i]
  exact natOf_zeros 8

/-- Job 1 as a device alone performs a command of it; nothing has been written to its first unit. -/
def alone : State := whole (rq 1) quiet

theorem alone_xlat {va : Nat} (h : va / 2 ^ 21 = 1) :
    alone.xlat 0x401 1 va true false = (alone, .ok (csBase + va % 2 ^ 21) false false) := by
  have hv : ∀ l, vpnAt va l = vpnAt 0x200000 l := fun l => by
    unfold vpnAt
    rw [Nat.pow_add, ← Nat.div_div_eq_div_mul, ← Nat.div_div_eq_div_mul, h]
  have hp : alone.pageHit 0x401 1 va = some (csBase + 0xF, 0) := by
    unfold State.pageHit
    simp only [hv]
    decide +kernel
  have he : entryAddr (csBase + 0xF) = csBase := by decide
  unfold State.xlat
  rw [show alone.fixedPa 1 va = none from rfl]
  dsimp only
  unfold State.pageOf
  rw [if_neg (by decide +kernel), hp]
  dsimp only
  rw [he, if_neg (by decide), if_neg (by decide), if_neg]
  · rfl
  · have : va % 2 ^ 21 < 2 ^ 21 := Nat.mod_lt _ (by decide)
    rw [show alone.inRegion (csBase + va % 2 ^ 21) = true from ?_]
    · decide
    · generalize va % 2 ^ 21 = k at *
      unfold State.inRegion State.storeOf
      rw [show (csBase + k - csBase) / csSize = 0 by unfold csSize; omega, if_pos ⟨by omega, by unfold csBase csSize; omega, rfl⟩]
      simp

theorem alone_reads : ∀ l : List (Nat × Nat), (∀ c ∈ l, c.1 / 2 ^ 21 = 1) →
    ∃ b, alone.readChunks 0x401 1 l = (alone, b, false, .done) ∧ b.all (· == 0) = true
  | [], _ => ⟨[], rfl, rfl⟩
  | (va, n) :: l, h => by
    obtain ⟨b, hb, hz⟩ := alone_reads l fun c hc => h c (by simp [hc])
    unfold State.readChunks
    rw [alone_xlat (h (va, n) (by simp))]
    dsimp only
    have : va % 2 ^ 21 < 2 ^ 21 := Nat.mod_lt _ (by decide)
    generalize va % 2 ^ 21 = k at *
    have ha : alone.readPa 0x401 1 (csBase + k) n = (alone, alone.bytes (csBase + k) n, alone.poisonedIn (csBase + k) n) := by
      unfold State.readPa
      rw [if_neg (by unfold inHost hostBase csBase; simp; omega), if_neg (by unfold State.inMain; simp)]
    have hp : alone.poisonedIn (csBase + k) n = false := by
      unfold State.poisonedIn
      rw [show alone.poison = [] from rfl]
      simp
    rw [ha, hb, hp]
    refine ⟨_, rfl, ?_⟩
    rw [List.all_append, hz, Bool.and_true]
    unfold State.bytes
    rw [List.all_map]
    exact List.all_eq_true.mpr fun i _ => rfl

theorem alone_params (n : Nat) (h : ∀ c ∈ sectorsOf 0x200000 n, c.1 / 2 ^ 21 = 1) :
    ∃ b, alone.readParam (rq 1) 0x200000 n = (alone, .inr b) ∧ b.all (· == 0) = true := by
  obtain ⟨b, hb, hz⟩ := alone_reads _ h
  refine ⟨b, ?_, hz⟩
  unfold State.readParam State.readVa
  rw [show hostSrc = 0x401 from rfl, show (rq 1).job.toNat = 1 from rfl]
  dsimp only
  rw [hb]
  rfl

theorem witness_ConfigurationCommandsAct :
    (∃ t b, quiet.serves (rq 1) (.tray (0 : BitVec 8).toNat) alone ∧
      alone.readParam (rq 1) 0x200000 520 = (t, .inr b) ∧ t.placementOk b = true ∧ t.batches = []) ∧
    (∃ t b, quiet.serves (rq 1) .all alone ∧ alone.readParam (rq 1) 0x200000 32776 = (t, .inr b) ∧
      t.get Reg.AGATE.STEP_STATE = 0 ∧ ∀ k < 1024, bucketOk (Machine.word b (1 + 4 * k)) = true) ∧
    ((on [(Reg.AGATE.CTL_EN, 1)]).get Reg.AGATE.STEP_STATE = 0 ∧ (on [(Reg.AGATE.CTL_EN, 1)]).get Reg.AGATE.CTL_EN = 1) ∧
    ((rq 1).job ≠ 0 ∧ (∀ n ∈ quiet.coresOf 1, quiet.streamState n ≠ 1 ∧ (quiet.core n).window = []) ∧ quiet.agateOpen = false) ∧
    (quiet.serves (rq 1) .target quiet ∧ (0 : BitVec 16).toNat = 0 ∧ (760 : BitVec 16).toNat ≠ 0) ∧
    ((31 : BitVec 8).toNat ≤ 31 ∧ (2 ^ 36 - 1 : BitVec 64).toNat < 2 ^ 36 ∧ quiet.get (Reg.LATCH.MCAST_INFLIGHT 31) = 0 ∧
      (on [(Reg.LATCH.MCAST_INFLIGHT 31, 1)]).get (Reg.LATCH.MCAST_INFLIGHT 31) ≠ 0) ∧
    ((0x3FFFFF8 : BitVec 32).toNat % 8 = 0 ∧ (0x3FFFFF8 : BitVec 32).toNat < 2 ^ 26 ∧ permittedBits 0x3FFFFF8 = 0 ∧
      permittedBits (Reg.WIN.HOT_EN 31).off ≠ 0) := by
  have h : quiet.phase = .up ∧ quiet.fe = false ∧ quiet.host.sillDown = false ∧ quiet.isMember = false ∧
      quiet.members = [quiet.dev] := by decide +kernel
  obtain ⟨b, hb, hz⟩ := alone_params 520 (by decide +kernel)
  obtain ⟨c, hc, hy⟩ := alone_params 32776 (by decide +kernel)
  refine ⟨⟨alone, b, (serves_whole h _).2, hb, ?_⟩, ⟨alone, c, (serves_whole h _).1, hc, ?_, fun k _ => ?_⟩, ?_, ?_,
    ⟨(serves_one ?_ _).1, ?_⟩, ?_⟩
  on_goal 1 => unfold State.placementOk; simp only [word_zeros hz]
  on_goal 3 => rw [word_zeros hy]; rfl
  all_goals decide +kernel

theorem witness_StreamCommandsAct :
    (quiet.serves (rq 1) .target quiet ∧ (rq 1).job ≠ 0 ∧ quiet.startFails (rq 1) (maskCores 0x81) (2 ^ 57 - 16) = none) ∧
    ((quiet.put (Reg.CORE.STREAM_STATE 7) 4).resumeFails (maskCores 0x80) 0 = none ∧
      (quiet.put (Reg.CORE.STREAM_STATE 7) 2).resumeFails (maskCores 0x80) 16 = none) ∧
    (∃ t b, (7 : BitVec 8).toNat ≤ 7 ∧ (1 : BitVec 16) ≠ 0 ∧ (4095 : BitVec 16).toNat + (1 : BitVec 16).toNat ≤ 4096 ∧
      quiet.present 7 = true ∧ quiet.readParam (rq 1) 0x200000 (128 * (1 : BitVec 16).toNat) = (t, .inr b)) ∧
    (∃ t v, quiet.jobValid 1 = true ∧ (64 : BitVec 64).toNat % 64 = 0 ∧
      (0x3FFFFF : BitVec 64).toNat + (1 : BitVec 64).toNat ≤ 2 ^ 57 ∧ (1 : BitVec 64).toNat ≠ 0 ∧
      quiet.reachable 1 true false (sectorsOf 0x3FFFFF 1) = (t, none) ∧
      t.copyOut 1 64 0x3FFFFF (sectorsOf 0x3FFFFF 1) = (v, stSUCCESS)) ∧
    (∃ t, quiet.reachable 1 false true (sectorsOf 0x3FFFFF 1) = (t, none)) := by
  refine ⟨⟨(serves_one ?_ _).1, ?_⟩, ?_, ⟨_, _, ?_, ?_, ?_, ?_, inr_of [] ?_⟩, ⟨_, _, ?_, ?_, ?_, ?_, none_of ?_, pair_of ?_⟩,
    ⟨_, none_of ?_⟩⟩
  all_goals decide +kernel

/-- A table of patches of version 1 with one byte of code; a state with keys. -/
def table : Bytes := sill [1, 0, 0, 0, 1, 0, 0, 0, 65, 0, 0, 0, 1] ++ [0]
def keyed : State :=
  { quiet.put Reg.SEC.AK_VALID 1 with sec := ⟨true, some 3, some [1], []⟩, snap := { SnapSt.reset with current := some image } }
/-- A lead that has lost member 1. -/
def lost : State := { lead 3 with host := { HostSt.reset with lostMembers := [1] } }

theorem witness_ServiceCommandsAct :
    (∃ t p, quiet.serves (rq 1) .all alone ∧ alone.jobValid 1 = true ∧
      alone.snapBusy = false ∧ alone.readParam (rq 1) 0x200000 64 = (t, .inr p) ∧
      rangesOk ((List.range 16).map fun k => field p (4 * k) 4) = true ∧
      t.snapRoom 1 ((List.range 16).map fun k => field p (4 * k) 4) = true) ∧
    (∃ t, keyed.serves (rq 1) .target keyed ∧ ((1 : BitVec 8) = 0 ∨ (1 : BitVec 8) = 1 ∧ (64 : BitVec 64).toNat % 64 = 0) ∧
      keyed.jobValid 1 = true ∧ keyed.snapBusy = false ∧
      (∀ n ∈ keyed.coresOf 1, keyed.streamState n ≠ 1 ∧ (keyed.core n).window = []) ∧ keyed.haltedElsewhere = true ∧
      keyed.imageAt 1 64 = some image ∧ keyed.imageFits image 1 7 = true ∧ image.key ≠ none ∧ image.key = keyed.sec.csk ∧
      keyed.draw.restoreTree 1 image.tree = some t) ∧
    (∀ k : Nat, k < 3 ∨ 3 ≤ k) ∧
    ((∀ k ∈ [1, 2], quiet.testFails k 7 7 0 = none) ∧ (window 4 WinSt.zero).testFails 4 0 0 (2 ^ 31) = none ∧ (1 : BitVec 16) ≠ 0) ∧
    (quiet.present 7 = true ∧ (quiet.core 7).retired = false ∧ quiet.tileState 7 7 ≠ 3 ∧ quiet.streamState 7 ≠ 1 ∧
      (quiet.core 7).window = []) ∧
    (keyed.sec.akSeed = some 3 ∧ keyed.get Reg.SEC.AK_VALID = 1) ∧
    (quiet.otherHandlers (rq 1) = false ∧ quiet.patchFails (slice 0 (65 : BitVec 32).toNat table) (65 : BitVec 32).toNat = none) ∧
    (quiet.host.sillDown = false ∧ lost.host.sillDown = false ∧ quiet.formFails (rq 0) 1 2 false = some stBADPARAM ∧ (∀ m ∈ [1, 3], (on [(Reg.SEC.ID_VALID, 1)]).formFails (rq 0) m 0 false = none) ∧
      (((devicesOf 3).filter fun d => d ≠ 0 && !(bitOf 0 d && (State.reset.route d).isSome)) = [1]) ∧
      ((devicesOf 1).filter fun d => d ≠ 0 && !(bitOf 0 d && (State.reset.route d).isSome)) = [] ∧
      lost.formFails (rq 0) 2 1 false = none ∧
      ((devicesOf 2).filter fun d => d ≠ lost.dev && !(bitOf 2 d && (lost.route d).isSome)) = []) := by
  refine ⟨⟨_, _, (serves_whole ?_ _).1, ?_, ?_, inr_of [] ?_, ?_, ?_⟩,
    ⟨_, (serves_one ?_ _).1, ?_, ?_, ?_, ?_, ?_, ?_, ?_, ?_, ?_, some_of State.reset ?_⟩, fun k => by omega, ?_⟩
  all_goals decide +kernel

/-- Commands that fail a check, each at a bound: of rings and jobs, of configurations, of streams and data, and of the services. -/
theorem witness_SetupCommandsAct_fails :
    badRing 5 3 255 2 64 32 = true ∧ badRing 17 0 0 0 0 0 = true ∧ badRing 6 0 0 0 63 0 = true ∧ ring0.ring? 8 = none ∧
    (ring0.ring? 9).isSome = true ∧ tabled.jobValid 1 = true ∧ ({ tabled with host := HostSt.reset } : State).takeTable 2 = none ∧
    tabled.jobValid 2 = false ∧ (win [insn 0 0]).jobInUse 1 = true ∧
    ({ ring none 0 false false with destroying := some (rq 1) } : Ring).destroying ≠ none := by
  decide +kernel

theorem witness_ConfigurationCommandsAct_fails :
    State.reset.placementOk (bytesOf 8 65537) = false ∧ State.reset.placementOk (bytesOf 8 65536) = true ∧
    (expert [oneBatch]).batches ≠ [] ∧ (on [(Reg.AGATE.STEP_STATE, 1)]).get Reg.AGATE.STEP_STATE ≠ 0 ∧
    bucketOk (2 ^ 63 + 2 ^ 40 + 2 ^ 20 - 1) = false ∧ bucketOk (2 ^ 63 + 2 ^ 40 + 2 ^ 20) = true ∧
    (∃ n ∈ (win [insn 0 0]).coresOf 1, (win [insn 0 0]).streamState n = 1 ∨ ((win [insn 0 0]).core n).window ≠ []) ∧
    (quiet.readParam (rq 1) 0x400000 1).2.isLeft = true := by
  decide +kernel

theorem witness_StreamCommandsAct_fails :
    quiet.startFails (rq 1) (maskCores 1) 8 = some stBADPARAM ∧ quiet.startFails (rq 1) (maskCores 1) (2 ^ 57) = some stBADPARAM ∧
    quiet.startFails (rq 2) (maskCores 1) 16 = some stNOJOB ∧ (win []).startFails (rq 1) (maskCores 1) 16 = some stBUSY ∧
    quiet.resumeFails (maskCores 1) 16 = some stBUSY ∧
    (quiet.put (Reg.CORE.STREAM_STATE 7) 2).resumeFails (maskCores 0x80) 0 = some stBADPARAM ∧
    quiet.jobFails (rq 0) = some stBADPARAM ∧ (quiet.reachable 1 true false (sectorsOf 0x3FFFFF 2)).2 = some stADDRESS := by
  decide +kernel

theorem witness_ServiceCommandsAct_fails :
    rangesOk [2 ^ 31 + 2 ^ 16 + 16383] = false ∧ rangesOk [2 ^ 31 + 16383] = true ∧ (asked []).snapBusy = true ∧ keyed.imageFits image 0 7 = false ∧
    keyed.imageFits image 1 8 = false ∧ keyed.imageAt 0 0 = none ∧ image.key ≠ quiet.sec.csk ∧ quiet.snap.current = none ∧
    quiet.testFails 1 8 0 0 = some stBADPARAM ∧ quiet.testFails 1 7 8 0 = some stBADPARAM ∧ quiet.testFails 3 0 0 0 = some stBADPARAM ∧
    (tile 3 7).testFails 1 7 7 0 = some stRETIRED ∧ (tile 3 7).tileState 7 7 = 3 ∧ quiet.sec.akSeed = none ∧
    ({ quiet with host := { HostSt.reset with handlers := [⟨6, 1, 1, 1, false, 0, 0, false, false⟩] } } : State).otherHandlers (rq 1) = true ∧
    quiet.patchFails table 66 = some stBADPARAM ∧ (quiet.put Reg.SEC.VERSION 1).patchFails table 65 = some stROLLBACK := by
  decide +kernel

/-! ### Witnesses: rules of the whole machine -/

/-- A map of one window, 31, and of three. -/
def mapOf (w l mask : Nat) : State := on [(Reg.WIN.MAP_W 0, w), (Reg.WIN.MAP_L 0, l), (Reg.WIN.MAP_ACTIVE 0, mask), (Reg.WIN.HASH_KEY 0, 0x1234)]

theorem witness_MapIsOneToOne :
    (∀ m ∈ [(1, 2 ^ 31), (3, 2 ^ 31 + 3)], let s := mapOf m.1 1 m.2
     s.get (Reg.WIN.MAP_W 0) = s.activeWins.length ∧ s.activeWins ≠ [] ∧
      ((2 * 40 * m.1 * 256 - 1) >>> 8) / (40 * s.activeWins.length) < 2 ^ s.get (Reg.WIN.MAP_L 0) ∧
      (2 * 40 * m.1 * 256 - 1) / 256 / (40 * s.activeWins.length) < 2 ^ s.get (Reg.WIN.MAP_L 0) ∧
      (m.1 - 1 < s.activeWins.length ∧ 39 < 40) ∧
      (40 * m.1 - 2) % (40 * s.activeWins.length) + 1 < 40 * s.activeWins.length) := by
  decide +kernel

/-- Descriptors: of 2 by 3 elements, of one element, and with a stride of 0. -/
def two : TD := parseTD (desc 0x200000 1 0 [(2, 1), (3, 2)])
def flat : TD := parseTD (desc 0x200000 1 0 [(1, 5)])
def still : TD := parseTD (desc 0x200000 1 0 [(2, 0)])

theorem witness_InjectivityCheckFollowsItsRule :
    (let dims := ((two.sizes.zip two.strides).filter fun e => decide (1 < e.1)).map fun e => (e.2.natAbs, e.1)
     ([(1, 2), (2, 3)] : List (Nat × Nat)).Perm dims ∧ ([(1, 2), (2, 3)] : List (Nat × Nat)).Pairwise (fun x y => x.1 ≤ y.1)) ∧
    ((flat.sizes.zip flat.strides).filter fun e => decide (1 < e.1)) = [] ∧
    (2, (0 : Int)) ∈ still.sizes.zip still.strides := by
  decide +kernel

theorem witness_PassedDescriptorsNeverMeet :
    two.il = none ∧ two.injective = true ∧ two.sizes.length = two.strides.length ∧ [1, 1].length = two.sizes.length ∧
    [0, 2].length = two.sizes.length ∧ (∀ k, ([1, 1] : List Nat).getD k 0 < two.size k) ∧
    (∀ k, ([0, 2] : List Nat).getD k 0 < two.size k) ∧
    0 ≤ (two.base * 8 : Nat) + (two.wbits : Int) * offsetOf two.sizes two.strides [1, 1] ∧
    0 ≤ (two.base * 8 : Nat) + (two.wbits : Int) * offsetOf two.sizes two.strides [0, 2] ∧ ([1, 1] : List Nat) ≠ [0, 2] := by
  have hs : two.sizes = [2, 3] := by decide +kernel
  refine ⟨by decide +kernel, by decide +kernel, by decide +kernel, by decide +kernel, by decide +kernel, fun k => ?_, fun k => ?_,
    by decide +kernel, by decide +kernel, by decide⟩
  all_goals unfold TD.size; rw [hs]; rcases k with _ | _ | k <;> simp

theorem witness_CodesSurviveConversion :
    13 ∈ valueTypes ++ [13] ∧ 2 ^ 63 < 2 ^ typeBits 13 ∧ decodeNum 13 (2 ^ 63) ≠ .nan ∧
    1 ∈ valueTypes ++ [13] ∧ 0x00000001 < 2 ^ typeBits 1 ∧ decodeNum 1 0x00000001 ≠ .nan := by decide +kernel

theorem witness_GeneratorsAreNeverZero :
    (1 : BitVec 64) ≠ 0 ∧ State.reset.phase = .up ∧ State.reset.present 7 = true ∧ (State.reset.core 7).window = [] := by decide

/-- Device 17: position 1 of tray 1. -/
def device17 : State := { State.reset with kept := { Kept.reset with straps := ⟨1, 1, 0⟩ } }

theorem witness_DoorsAreCabledInPairs :
    (device17.peerOf 0 0).1 = ({ State.reset with kept := { Kept.reset with straps := ⟨1, 0, 0⟩ } } : State).dev ∧
    (device17.peerOf 15 2).1 = ({ State.reset with kept := { Kept.reset with straps := ⟨0, 1, 0⟩ } } : State).dev ∧
    (let s := device17.put (Reg.DOOR.LINK_STATE 15 2) 3
     (s.peerOf 15 2).1 = 1 ∧ s.linkUsable 15 2 = true) := by
  decide +kernel

theorem witness_StoresTouchOnlyTheirBytes :
    aperture.phase = .up ∧ aperture.host.d3hot = false ∧ aperture.apertureOn = true ∧
    (0x1FFFFF : BitVec 35).toNat + [(0xAB : BitVec 8)].length ≤ 2 ^ 32 ∧
    aperture.apertureVa (0x1FFFFF : BitVec 35).toNat % 64 + [(0xAB : BitVec 8)].length ≤ 64 ∧
    (∀ w, ((aperture.win w).queue.any fun r => r.write && !r.applied) = false) ∧
    (∃ u, aperture.xlat 0x401 (aperture.get Reg.GEN.BAR4_JOB) (aperture.apertureVa (0x1FFFFF : BitVec 35).toNat) false true =
      (u, .ok (csBase + 0x1FFFFF) false false) ∧ u.fe = false) ∧ inHost (csBase + 0x1FFFFF) = false := by
  refine ⟨?_, ?_, ?_, ?_, ?_, fun w => ?_, ⟨_, pair_of ?_, ?_⟩, ?_⟩
  on_goal 6 => rw [show aperture.win w = WinSt.zero from rfl]
  all_goals decide +kernel

theorem witness_SmallCommandsTouchOneUnit :
    (∃ t, exec (.doorbellSqTail 0 1) State.reset = .next t) ∧
    (win [insn 0 0]).goes 0 0x00 (insn 0 0) ∧ (win [dm]).goes 0 0x09 dm ∧ dm.mod 35 34 = 0 ∧ (parseTD dm.dA).rank = 1 ∧
    ((0x2000C0 : Nat) < 2 ^ 57 ∧ ((0x2000C0 : Nat) : Int) = (bitsOf dm.dA.toNat 56 0 : Int) + 64 * signed 34 (dm.mod 33 0)) ∧
    (win [insn 11 (3 * 2 ^ 30)]).goes 0 0x0B (insn 11 (3 * 2 ^ 30)) ∧ (insn 11 (3 * 2 ^ 30)).mod 31 30 = 3 := by
  refine ⟨⟨_, rfl⟩, goes_of ?_, goes_of ?_, ?_, ?_, ?_, goes_of ?_, ?_⟩ <;> decide +kernel

/-! ### Results that the spec's examples and formulas give -/

/-- The state that a command answers. -/
def after (c : Instr) (s : State) : State :=
  match exec c s with
  | .next t => t
  | _ => State.reset

/-- Chapter 3's example: three elements of a block of E4M3 with the scale code 0x72. -/
theorem test_block_of_e4m3 :
    (convertScaled 4 .rne 0x72 (.fin false 19 (-9))).1 = 0x7A ∧ (convertScaled 4 .rne 0x72 (.fin false 5 (-22))).1 = 0x05 ∧
    (convertScaled 4 .rne 0x72 (.fin false 3 (-25))).1 = 0 ∧ (convertScaled 4 .rne 0x72 (.fin false 3 (-25))).2.flush = 1 := by
  decide +kernel

/-- Chapter 3's example: 1.09375 × 2^-118 as BF16 and as FP16. -/
theorem test_sum_to_bf16_and_fp16 :
    (convert 2 .rne (.fin false 35 (-123))).1 = 0x048C ∧ (convert 3 .rne (.fin false 35 (-123))).1 = 0 ∧
    (convert 3 .rne (.fin false 35 (-123))).2.flush = 1 := by decide +kernel

/-- R75: one step of a generator that holds 1, worked by hand. -/
theorem test_generator_step : genNext 1 = 0x40822041 := by decide +kernel

/-- CRC-32C's check value, of the digits 1 to 9 (chapter 8). -/
theorem test_crc32c : crc32c ((List.range 9).map fun k => BitVec.ofNat 8 (0x31 + k)) = 0xE3069283 := by decide +kernel

/-- Chapter 5: a descending sort leaves equal keys in the order of their positions. -/
theorem test_sort : sortKeys true [3, 1, 3, 2] = [(3, 0), (3, 2), (2, 3), (1, 1)] := by decide +kernel

/-- Chapter 6's three descriptors: the first passes and spans 1,824,768 bytes; the others fail. -/
def planar : TD := { parseTD (desc 0 2 0 [(1, 1)]) with base := 0x10000, sizes := [288, 288, 11], strides := [1, -288, 82944] }
theorem test_write_descriptors :
    planar.injective = true ∧ planar.footprint = (0x10000 - 165312, 0x10000 + 1659455) ∧
    ({ planar with sizes := [11, 288], strides := [1, 8] } : TD).injective = false ∧
    ({ planar with sizes := [2, 3], strides := [3, 2] } : TD).injective = false := by decide +kernel

/-- Chapter 8's example of an address in a full map. -/
theorem test_one_address :
    (let s := on [(Reg.WIN.MAP_W 0, 32), (Reg.WIN.MAP_L 0, 25), (Reg.WIN.MAP_ACTIVE 0, 2 ^ 32 - 1), (Reg.WIN.HASH_KEY 0, 0x5A5A12340F0F3C3C)]
     s.locate 0x012345678900 = (28, 15, 0x78E90450) ∧ (s.locate 0x012345678A00).1 = 29 ∧
      (s.locate (0x012345678900 + 327680)).1 = 27) := by decide +kernel

/-- Chapter 11's example: from device 3 to device 0x29 by door 15, pair 1, to device 0x23, and on by its door 8. -/
theorem test_route_across_trays :
    (let s : State := ({ State.reset with kept := { Kept.reset with straps := ⟨0, 3, 0⟩ } } : State).put (Reg.DOOR.LINK_STATE 15 1) 3
     let t : State := ({ State.reset with kept := { Kept.reset with straps := ⟨2, 3, 0⟩ } } : State).put (Reg.DOOR.LINK_STATE 8 0) 3
     s.route 0x29 = some (15, 1) ∧ s.peerOf 15 1 = (0x23, 15, 1) ∧ t.route 0x29 = some (8, 0) ∧ (t.peerOf 8 0).1 = 0x29) := by
  decide +kernel

/-- Chapter 12's example in small: an expert that overflows takes its own slots and the pool slots it may; others take what
they need while the pool covers it. -/
theorem test_allocation :
    (let a := (List.range 64).map fun e => if e = 17 then 20 else 0
     (allocate a (List.replicate 64 4) (List.replicate 64 3) 10).1.getD 17 0 = 7) ∧
    (let a := (List.range 64).map fun e => if e = 30 then 6 else if e = 44 then 7 else 3
     let q := allocate a (List.replicate 64 4) (List.replicate 64 3) 10
     q.1.getD 30 0 = 6 ∧ q.1.getD 44 0 = 7 ∧ q.2.sum = 5) := by decide +kernel

/-- Chapter 14: a slot of the trunk bucket and its pieces; σ₀ = 1.25 × 2^-95 is a tie that rounds to the even multiple. -/
theorem test_agate_slot :
    slotBytes 2359296 = 294976 ∧ slotPieces 2359296 = 145 ∧ unitsOf96 (.fin false 5 (-97)) = 2 := by decide +kernel

/-- Chapter 16's example of the advice. -/
theorem test_advice :
    (let s := on [(Reg.DOOR.FORMED 0, 1), (Reg.SNAP.WINDOW_H, 720), (Reg.SNAP.PRIOR_H, 1000), (Reg.TIME.NOW, 720 * hourNs)]
     let t : State := { s with host := { s.host with restoreEvents := [s.now, s.now, s.now, s.now] }, agate := { s.agate with verdictTimes := [500000000, 250000000] } }
     (t.advise 271000).get Reg.SNAP.ADVISE_MS = 25908 ∧ (t.advise 271000).get Reg.SNAP.ADVISE_STEPS = 104) := by
  decide +kernel

/-- A dot product of three FP32 ones with three twos is 6.0 (chapter 4). -/
def ones (n w : Nat) : List (Option Byte) := ((List.replicate n w).flatMap (bytesOf 4)).map some
def filled : State := ((with4 mm).setBytes csBase (ones 6 0x3F800000)).setBytes (csBase + 0x200000) (ones 6 0x40000000)
theorem test_gmm : (after (.gmm 0) filled).bytes (csBase + 0x400000) 4 = bytesOf 4 0x40C00000 := by decide +kernel

/-- An instruction with no encoding check against it is admitted to the queue of its opcode and dispatches (chapter 7). -/
theorem test_nop : (((after (.nop 0) (win [insn 0 0])).core 0).window.map fun i => (i.tag, i.dispatched, i.done)) = [(1, true, true)] := by
  decide +kernel

/-- cnt writes 5 to loop counter 15 (R210). -/
theorem test_cnt : (after (.cnt 0) (win [insn 3 (15 * 2 ^ 32 + 5)])).get (Reg.CORE.LOOP_COUNT 0 15) = 5 := by decide +kernel

/-- A host write's message sets latch 9 at its home (chapter 10). -/
theorem test_latch : (after (.latchMessage 0) (sent (msg 0x401 9 .set none false))).get (Reg.LATCH.latch 9) = 1 := by decide +kernel

/-- The last arrival of two closes the phase (chapter 10). -/
theorem test_barrier : (after (.barrierArrival 0) (barrier arrive 2 0)).get (Reg.BARRIER.CLOSE_CNT 2047) = 1 ∧
    (after (.barrierArrival 0) (barrier arrive 2 0)).get (Reg.BARRIER.ARRIVED 2047) = 0 := by decide +kernel

/-- A doorbell for a ring that does not exist is counted and remembered (chapter 17). -/
theorem test_doorbell : (after (.doorbellSqTail 9 0) State.reset).get Reg.GEN.DB_ERR = 1 ∧
    (after (.doorbellSqTail 9 0) State.reset).get Reg.GEN.DB_ERR_LAST = 9 := by decide +kernel

/-- An access of two bytes is unsupported; one of four bytes reads half a register (chapter 1). -/
theorem test_register_reads :
    (after (.registerReadClear 0x380000 2) State.reset).host.cpl = [([], 3)] ∧
    (after (.registerReadClear 0x380000 4) State.reset).host.cpl = [(bytesOf 4 1000, 0)] := by decide +kernel

/-- After reset a lane generator reads as the spec's seed (R75); the die budget (R51), and the eight cores of grade N8 (R1). -/
theorem test_reset_values :
    State.reset.get (Reg.CORE.LANE_STATE 3 200) = 0x9E3779B97F4A7C15 ∧ State.reset.get Reg.PWR.DIE_W = 570 ∧
    State.reset.present 7 = true := by decide +kernel

/-- Epochs are compared around their wrap (chapter 11). -/
theorem test_epochs : epochGe 2 0xFFFFFFFE = true ∧ epochGe 0xFFFFFFFE 2 = false := by decide +kernel

/-- A tick of device time (log entry 2). -/
theorem test_tick : (match step State.reset with | .next t => t.now | _ => 0) = 1 := by decide +kernel

end Sys2Proof.Tests
end

section
/-!
PROOFS. What a register field takes of a write, the state after reset, and what accesses to the BARs do.
-/

namespace Sys2Proof.Machine

/-! ### One field under a write (R9, R550) -/

/-- A value that fits a field reads back as it was put. -/
theorem get_put_of_lt (s : State) {f : Fld} {v : Nat} (h : v < 2 ^ f.w) : (s.put f v).get f = v := by
  rw [State.get_put_self, Nat.mod_eq_of_lt h]

/-- The bits of a value that fall on a field fit it, and so do those of them that a mask covers. -/
theorem part_and_lt (f : Fld) (v m : Nat) : (f.part v &&& m) < 2 ^ f.w :=
  lt_of_le_of_lt Nat.and_le_left (Nat.mod_lt _ (Nat.two_pow_pos _))

/-- Replacing some bits of a value that fits a field leaves one that fits. -/
theorem merged_lt {f : Fld} {old : Nat} (v m : Nat) (h : old < 2 ^ f.w) : merged old (f.part v) m < 2 ^ f.w :=
  Nat.or_lt_two_pow (lt_of_le_of_lt (Nat.sub_le _ _) h) (part_and_lt f v m)

theorem writeField_rw {f : Fld} (s : State) (v m : Nat) (h : f.acc = .rw) :
    s.writeField v m true f = s.put f (merged (s.get f) (f.part v) (f.part m)) := by
  simp [State.writeField, h]

theorem writeField_w1c {f : Fld} (s : State) (v m : Nat) (h : f.acc = .w1c) :
    s.writeField v m true f = s.put f (s.get f - (s.get f &&& (f.part v &&& f.part m))) := by
  simp [State.writeField, h]

theorem writeField_w1s {f : Fld} (s : State) (v m : Nat) (h : f.acc = .w1s) :
    s.writeField v m true f = s.put f (s.get f ||| (f.part v &&& f.part m)) := by
  simp [State.writeField, h]

/-- A field that is read-only, write-only or read-clear stores nothing of a write. -/
theorem writeField_none {f : Fld} (s : State) (v m : Nat) (h : f.acc = .ro ∨ f.acc = .wo ∨ f.acc = .rc) :
    s.writeField v m true f = s := by
  rcases h with h | h | h <;> simp [State.writeField, h]

/-- The host's write is Sill firmware's, but that a field reserved to Sill firmware ignores it. -/
theorem writeField_host (f : Fld) (s : State) (v m : Nat) :
    s.writeField v m false f = if f.sill then s else s.writeField v m true f := by
  by_cases h : f.sill = true <;> simp [State.writeField, h]

/-- A write to one field leaves every other. -/
theorem get_writeField_ne {f g : Fld} (s : State) (v m : Nat) (h : g.key ≠ f.key) :
    (s.writeField v m true f).get g = s.get g := by
  cases ha : f.acc with
  | rw => rw [writeField_rw s v m ha, State.get_put_ne _ _ _ _ h]
  | w1c => rw [writeField_w1c s v m ha, State.get_put_ne _ _ _ _ h]
  | w1s => rw [writeField_w1s s v m ha, State.get_put_ne _ _ _ _ h]
  | ro => rw [writeField_none s v m (.inl ha)]
  | wo => rw [writeField_none s v m (.inr (.inl ha))]
  | rc => rw [writeField_none s v m (.inr (.inr ha))]

/-- Settles O41: by the access code, as each new value fits its field. -/
theorem fieldsTakeWritesByTheirCode : Obligations.FieldsTakeWritesByTheirCode := by
  intro f g v m s hs hg
  refine ⟨fun h => ?_, fun h => ?_, fun h => ?_, fun h => ?_, get_writeField_ne s v m hg, writeField_host f s v m⟩
  · rw [writeField_rw s v m h, get_put_of_lt s (merged_lt v _ hs)]
  · rw [writeField_w1c s v m h, get_put_of_lt s (lt_of_le_of_lt (Nat.sub_le _ _) hs)]
  · rw [writeField_w1s s v m h, get_put_of_lt s (Nat.or_lt_two_pow hs (part_and_lt f v _))]
  · rw [writeField_none s v m h]

/-! ### The state after reset (R7, R531) -/

/-- Out of reset there is nothing that a state in reset would have to hold. -/
theorem resetHolds_of_up {s : State} (h : s.phase = .up) : s.resetHolds :=
  ⟨fun hp => by simp [h] at hp, fun hr => by simp [h] at hr⟩

/-- Stores that list nothing are in canonical form. -/
theorem canonical_of_empty {s : State} (hm : s.mem = []) (hp : s.poison = []) (hc : s.cores = []) (hw : s.wins = [])
    (hx : s.contexts = []) : s.canonical = true := by
  simp [State.canonical, Memory.wf, hm, hp, hc, hw, hx, sparseWf, setWf]

/-- Settles O7: the phase after reset is up, and every store is empty. -/
theorem resetStateHolds : Obligations.ResetStateHolds :=
  ⟨resetHolds_of_up rfl, canonical_of_empty rfl rfl rfl rfl rfl⟩

/-! ### BAR0 (R8 to R10, R451, R453, R550) -/

section
variable {s : State}

/-- A write to a BAR in D3hot by the host has no effect. -/
theorem whenBar_d3hot (hd : s.host.d3hot = true) (f : State → State) : whenBar s false f = .next s := by
  simp [whenBar, whenLive, hd]

/-- A write to a BAR has its effect out of D3hot, and by Sill firmware in it too. -/
theorem whenBar_open (hu : s.phase = .up) {sill : Bool} (ho : s.host.d3hot = false ∨ sill = true) (f : State → State) :
    whenBar s sill f = .next ((f s).keeping s) := by
  refine whenBar_up hu sill (fun ⟨hd, hn⟩ => ?_) f
  rcases ho with ho | ho
  · simp [ho] at hd
  · simp [ho] at hn

theorem barRead_d3hot (off size : Nat) (hd : s.host.d3hot = true) : s.barRead off size = s.sendCpl [] 3 := by
  simp [State.barRead, hd]

theorem barRead_bad {off size : Nat} (hd : s.host.d3hot = false) (hg : goodAccess off size = false) :
    s.barRead off size = (s.inc Reg.GEN.BAR_ERR 1).sendCpl [] 3 := by
  simp [State.barRead, hd, hg]

theorem barRead_good {off size : Nat} (hd : s.host.d3hot = false) (hg : goodAccess off size = true) :
    s.barRead off size = (s.seat.readReg off size).1.sendCpl (bytesOf size (s.seat.readReg off size).2) 0 := by
  simp [State.barRead, hd, hg]

theorem regWrite_bad {off size : Nat} (v : Nat) (sill : Bool) (hg : goodAccess off size = false) :
    s.regWrite off size v sill = s.inc Reg.GEN.BAR_ERR 1 := by
  simp [State.regWrite, hg]

theorem regWrite_good {off size : Nat} (v : Nat) (sill : Bool) (hg : goodAccess off size = true) :
    s.regWrite off size v sill = s.writeWord (off / 8 * 8) (v % 2 ^ (8 * size) * 2 ^ (8 * (off % 8))) (coverMask off size) sill := by
  simp [State.regWrite, hg]

theorem writeWord_absent {r : Nat} (x m : Nat) (sill : Bool) (ha : s.absentAt r = true) : s.writeWord r x m sill = s := by
  simp [State.writeWord, ha]

theorem writeWord_special {r x m : Nat} {sill : Bool} {t : State} (ha : s.absentAt r = false)
    (hw : s.writeSpecial r x m sill = some t) : s.writeWord r x m sill = t := by
  simp [State.writeWord, ha, hw]

/-- A plain register takes Sill firmware's write field by field, and then does what that write asks for. -/
theorem writeWord_sill {r x m : Nat} (ha : s.absentAt r = false) (hw : s.writeSpecial r x m true = none) :
    s.writeWord r x m true =
      ((((Reg.fieldsAt r).foldl (fun t f => t.writeField x m true f) s).unmasked r).capWritten r).sillAct r x m := by
  simp [State.writeWord, ha, hw]

/-- A plain register takes the host's write field by field; it is recorded first where it would change a field reserved to
Sill firmware. -/
theorem writeWord_host {r x m : Nat} (ha : s.absentAt r = false) (hw : s.writeSpecial r x m false = none) :
    s.writeWord r x m false = (((Reg.fieldsAt r).foldl (fun t f => t.writeField x m false f)
      (if (Reg.fieldsAt r).any (s.wouldChange x m) then s.hostRefused r (x &&& m) else s)).unmasked r).capWritten r := by
  simp [State.writeWord, ha, hw]

/-! ### The aperture (R413, R454, R455) -/

theorem bar4Read_d3hot (off len : Nat) (hd : s.host.d3hot = true) : s.bar4Read off len = s.sendCpl [] 3 := by
  simp [State.bar4Read, hd]

theorem bar4Read_off {off len : Nat} (hd : s.host.d3hot = false) (hl : off + len ≤ 2 ^ 32) (ha : s.apertureOn = false) :
    s.bar4Read off len = s.sendCpl [] 2 := by
  rw [State.bar4Read, if_neg (by simp [hd]), if_neg (Nat.not_lt.mpr hl), if_pos (by simp [ha])]

/-- How the host's read is answered in state t, once the aperture has given the bytes and their poison, or the reason for which
translation failed. -/
def apertureAnswer (job off len : Nat) (t : State) : Nat ⊕ (Bytes × Bool) → State
  | .inl re => (t.walkKill job 0x401 re).sendCpl [] 2
  | .inr (bytes, false) => t.sendCpl bytes 0
  | .inr (_, true) =>
    (t.addRec (mkRec 0x401 0x14 1 job cPOISON (t.apertureVa off))).sendCpl (List.replicate len 0xFF) 1

/-- A read through an aperture that is on is answered by what its translation and its read give. -/
theorem bar4Read_on {off len : Nat} (hd : s.host.d3hot = false) (hl : off + len ≤ 2 ^ 32) (ha : s.apertureOn = true) :
    let a := s.readAperture (s.get Reg.GEN.BAR4_JOB) (sectorsOf (s.apertureVa off) len)
    s.bar4Read off len = apertureAnswer (s.get Reg.GEN.BAR4_JOB) off len a.1 a.2 := by
  rw [State.bar4Read, if_neg (by simp [hd]), if_neg (Nat.not_lt.mpr hl), if_neg (by simp [ha])]
  dsimp only
  rcases s.readAperture (s.get Reg.GEN.BAR4_JOB) (sectorsOf (s.apertureVa off) len) with ⟨t, re | ⟨bytes, _ | _⟩⟩ <;> rfl

theorem bar4Write_off {off : Nat} (data : Bytes) (ha : s.apertureOn = false) : s.bar4Write off data = s := by
  simp [State.bar4Write, ha]

theorem bar4Write_on {off : Nat} {data : Bytes} (hl : off + data.length ≤ 2 ^ 32) (ha : s.apertureOn = true) :
    let w := s.writeVa 0x401 (s.get Reg.GEN.BAR4_JOB) (s.apertureVa off) data false
    s.bar4Write off data = match w.2 with
      | .bad _ re _ => w.1.walkKill (s.get Reg.GEN.BAR4_JOB) 0x401 re
      | _ => w.1 := by
  simp only [State.bar4Write, Nat.not_lt.mpr hl, ha]
  rcases s.writeVa 0x401 (s.get Reg.GEN.BAR4_JOB) (s.apertureVa off) data false with ⟨t, _ | _ | _⟩ <;> rfl

end

/-! ### The commands of the BARs -/

theorem exec_registerReadClear (off : BitVec 26) (size : BitVec 4) (s : State) :
    exec (.registerReadClear off size) s = whenLive s fun s => s.barRead off.toNat size.toNat := rfl

theorem exec_registerWrite (off : BitVec 26) (size : BitVec 4) (v : BitVec 64) (sill : Bool) (s : State) :
    exec (.registerWrite off size v sill) s = whenBar s sill fun s => s.regWrite off.toNat size.toNat v.toNat sill := rfl

theorem exec_bar4Read (o : BitVec 35) (n : BitVec 13) (s : State) :
    exec (.bar4Read o n) s = whenLive s fun s => s.bar4Read o.toNat n.toNat := rfl

theorem exec_bar4Write (o : BitVec 35) (data : Bytes) (s : State) :
    exec (.bar4Write o data) s = whenBar s false fun s => s.bar4Write o.toNat data := rfl

/-- Settles O40: a command of the BARs is its access out of reset, and each access has the cases of its size, its register, or
the aperture. -/
theorem barAccessesAct : Obligations.BarAccessesAct := by
  intro off size v o n data s hu
  refine ⟨fun hd hg => ?_, fun hd hg => ?_, fun sill ho hg => ?_, fun hd => ⟨?_, ?_, ?_, ?_⟩, fun sill ho hg => ?_,
    fun hd hl => ⟨fun ha => ?_, fun ha => ⟨fun bytes hr => ?_, fun bytes hr => ?_, fun re hr => ?_⟩⟩,
    fun hd => ⟨fun ha hl => ?_, fun ha => ?_⟩⟩
  · rw [exec_registerReadClear, whenLive_up hu, barRead_good hd hg]
  · rw [exec_registerReadClear, whenLive_up hu, barRead_bad hd hg]
  · rw [exec_registerWrite, whenBar_open hu ho, regWrite_bad _ _ hg]
  · rw [exec_registerReadClear, whenLive_up hu, barRead_d3hot _ _ hd]
  · rw [exec_registerWrite, whenBar_d3hot hd]
  · rw [exec_bar4Read, whenLive_up hu, bar4Read_d3hot _ _ hd]
  · rw [exec_bar4Write, whenBar_d3hot hd]
  · rw [exec_registerWrite, whenBar_open hu ho, regWrite_good _ _ hg]
    refine ⟨fun ha => ?_, fun ha => ⟨fun t hw => ?_, fun hw => ⟨?_, ?_, ?_⟩⟩⟩
    · rw [writeWord_absent _ _ _ ha, State.keeping_self]
    · rw [writeWord_special ha hw]
    · rintro rfl
      rw [writeWord_sill ha hw]
    · rintro rfl hc
      rw [writeWord_host ha hw, if_neg (by simp [hc])]
    · rintro rfl hc
      rw [writeWord_host ha hw, if_pos hc]
  · rw [exec_bar4Read, whenLive_up hu, bar4Read_off hd hl ha]
  · rw [exec_bar4Read, whenLive_up hu, bar4Read_on hd hl ha, hr, apertureAnswer]
  · rw [exec_bar4Read, whenLive_up hu, bar4Read_on hd hl ha, hr, apertureAnswer]
  · rw [exec_bar4Read, whenLive_up hu, bar4Read_on hd hl ha, hr, apertureAnswer]
  · rw [exec_bar4Write, whenBar_open hu (.inl hd)]
    exact congrArg (fun t => Host.Outcome.next (State.keeping t s)) (bar4Write_on hl ha)
  · rw [exec_bar4Write, whenBar_open hu (.inl hd), bar4Write_off _ ha, State.keeping_self]

end Sys2Proof.Machine
end

section
/-!
PROOFS. How this device performs its part of a command of Sill firmware, and what the commands of pages, of the owner table and
of channels do.
-/

namespace Sys2Proof.Machine

/-! ### A device's own part of a command (R428, R472, R477) -/

section
variable {s u : State} {r : Req}

/-- What a device's part of a command leaves: it has completed with what it answered, or it waits. -/
def State.answered (r : Req) : State × Answer → State
  | (t, none) => t
  | (t, some (st, r0, r1)) => t.finish r st r0 r1

@[simp] theorem answered_none (r : Req) (t : State) : State.answered r (t, none) = t := rfl

@[simp] theorem answered_just (r : Req) (t : State) (st : Nat) : State.answered r (t, just st) = t.finish r st 0 0 := rfl

/-- Outside the FE state, and with its Sill firmware alive, a device performs its part and completes with the answer. -/
theorem ownPart_alive (feOk : Bool) (part : State → State × Answer) (hf : u.fe = false) (hd : u.host.sillDown = false) :
    u.ownPart r feOk part = State.answered r (part u) := by
  rw [State.ownPart, if_neg (by simp [hd]), if_neg (by simp [hf])]
  rcases part u with ⟨t, _ | ⟨st, r0, r1⟩⟩ <;> rfl

/-- A command of a group is relayed, and performed where this device is of the group. -/
theorem serve_group {sc : Scope} {e : Nat → Bytes} (feOk : Bool) (part : State → State × Answer) (hm : s.isMember = false)
    (hd : (s.group sc).contains (s.relayTo r e (s.group sc) true).dev = true) :
    s.serve r sc feOk e part = (s.relayTo r e (s.group sc) true).ownPart r feOk part := by
  cases sc with
  | target => simp [State.group] at hd
  | lead => simp [State.group] at hd
  | tray k | all =>
    have hne : (s.group _).isEmpty = false := List.isEmpty_eq_false_iff_exists_mem.mpr ⟨_, List.contains_iff_mem.mp hd⟩
    simp only [State.group] at hd hne
    simp only [State.serve, State.group, hm, hne, hd, if_true, Bool.false_eq_true, if_false]

/-- A command of one device is performed in the state as it stands, where this device is its target. -/
theorem serve_here {sc : Scope} {e : Nat → Bytes} (feOk : Bool) (part : State → State × Answer) (hm : s.isMember = false)
    (hs : sc = .target ∨ sc = .lead) (ht : r.target.toNat = s.dev) : s.serve r sc feOk e part = s.ownPart r feOk part := by
  rcases hs with rfl | rfl <;> simp [State.serve, hm, ht]

/-- A device that serves a command completes it with what its part answers in the state it performs it in. -/
theorem serve_of_serves {sc : Scope} {e : Nat → Bytes} (h : s.serves r sc u e) (feOk : Bool) (part : State → State × Answer) :
    whenLive s (fun s => s.serve r sc feOk e part) = .next ((State.answered r (part u)).keeping s) := by
  obtain ⟨hp, hf, hd, hm, ⟨hs, ht, rfl⟩ | ⟨hg, rfl⟩⟩ := h
  · rw [whenLive_up hp, serve_here feOk part hm hs ht, ownPart_alive feOk part hf hd]
  · rw [whenLive_up hp, serve_group feOk part hm hg, ownPart_alive feOk part hf hd]

/-- A command of one device is relayed to no other, whatever its entry holds. -/
theorem serves_entry {sc : Scope} {e : Nat → Bytes} (h : s.serves r sc u e) (hs : sc = .target ∨ sc = .lead)
    (e' : Nat → Bytes) : s.serves r sc u e' := by
  obtain ⟨hp, hf, hd, hm, ho | ⟨hg, -⟩⟩ := h
  · exact ⟨hp, hf, hd, hm, .inl ho⟩
  · rcases hs with rfl | rfl <;> simp [State.group] at hg

end

/-! ### MAP (R14, R485) -/

section
variable {s u : State} {r : Req}

theorem exec_map (h : s.serves r .target u) (va : BitVec 64) (pa : BitVec 48) (flags : BitVec 8) (count : BitVec 32) :
    exec (.map r va pa flags count) s =
      .next ((State.answered r (u.doMap r va.toNat pa.toNat flags.toNat count.toNat)).keeping s) :=
  serve_of_serves (serves_entry h (.inl rfl) _) false (State.doMap r va.toNat pa.toNat flags.toNat count.toNat)

variable {va pa flags count : Nat}

theorem doMap_badFlags (hf : 64 ≤ flags) : u.doMap r va pa flags count = (u, just stBADENTRY) := by
  simp [State.doMap, hf]

theorem doMap_badJob (hf : flags < 64) {st : Nat} (hj : u.jobFails r = some st) :
    u.doMap r va pa flags count = (u, just st) := by
  simp [State.doMap, Nat.not_le.mpr hf, hj]

theorem doMap_snapOpen (hf : flags < 64) (hj : u.jobFails r = none) (ho : u.snapOf r.job.toNat = true) :
    u.doMap r va pa flags count = (u, just stSNAPOPEN) := by
  simp [State.doMap, Nat.not_le.mpr hf, hj, ho]

/-- A range of pages that MAP refuses whatever stands there: none, unaligned, past the VA space, or not in one region. -/
def State.badPages (u : State) (va pa flags count : Nat) : Prop :=
  let size := 2 ^ (21 + 9 * (flags % 2))
  count = 0 ∨ va % size ≠ 0 ∨ pa % size ≠ 0 ∨ 2 ^ 57 < va + count * size ∨
    u.goodRange pa (count * size) (flags % 2 = 1) = false

theorem doMap_badPages (hf : flags < 64) (hj : u.jobFails r = none) (ho : u.snapOf r.job.toNat = false)
    (hb : u.badPages va pa flags count) : u.doMap r va pa flags count = (u, just stBADPARAM) := by
  rw [State.doMap, if_neg (Nat.not_le.mpr hf), hj]
  dsimp only
  rw [if_neg (by simp [ho]), if_pos (by simpa [State.badPages] using hb)]

theorem doMap_goodPages (hf : flags < 64) (hj : u.jobFails r = none) (ho : u.snapOf r.job.toNat = false)
    (hb : ¬u.badPages va pa flags count) : u.doMap r va pa flags count = u.mapRange r va pa flags count := by
  rw [State.doMap, if_neg (Nat.not_le.mpr hf), hj]
  dsimp only
  rw [if_neg (by simp [ho]), if_neg (by simpa [State.badPages] using hb)]

/-- What MAP finds at the places of its pages. -/
def State.found (u : State) (r : Req) (va pa flags count : Nat) : List Slot :=
  (mapPages va pa flags count).map fun p => u.mapSlot r.job.toNat p.1 (flags % 2 = 1)

/-- The state once Sill firmware has read what MAP looks at. -/
def State.placesRead (u : State) (r : Req) (va pa flags count : Nat) : State :=
  u.readPlaces r.job.toNat (flags % 2 = 1) ((mapPages va pa flags count).map fun p => p.1)

/-- The bytes that the pages of a MAP hold. -/
def mapBytes (flags count : Nat) : Nat := count * 2 ^ (21 + 9 * (flags % 2))

/-- What MAP answers in state x once it has put its leaves, or found too few tables; with an invalidation where the leaves
replace others. -/
def State.leavesPut (x : State) (r : Req) (va flags count : Nat) (replaced : Bool) : Option State → State × Answer
  | none => (x, just stNOTABLES)
  | some t =>
    if replaced then t.afterInval r r.job.toNat (va / 2 ^ 21) (mapBytes flags count / 2 ^ 21) else (t, just stSUCCESS)

/-- MAP once its operands and job are good, said of what it finds and of the state that has been read. -/
theorem mapRange_eq : u.mapRange r va pa flags count =
    let found := u.found r va pa flags count
    let x := u.placesRead r va pa flags count
    if found.contains .bad then (x, just stBADPARAM)
    else if x.meetsArea pa (mapBytes flags count) then (x, just stRESERVED)
    else if !(bitOf flags 5) ∧ found.contains .taken then (x, just stMAPPED)
    else x.leavesPut r va flags count (found.contains .taken)
      (x.putLeaves r.job.toNat (mapPages va pa flags count)) := rfl

theorem mapRange_badPlace (hb : (u.found r va pa flags count).contains .bad = true) :
    u.mapRange r va pa flags count = (u.placesRead r va pa flags count, just stBADPARAM) := by
  rw [mapRange_eq]
  exact if_pos hb

section
variable (hb : (u.found r va pa flags count).contains .bad = false)
include hb

theorem mapRange_reserved (ha : (u.placesRead r va pa flags count).meetsArea pa (mapBytes flags count) = true) :
    u.mapRange r va pa flags count = (u.placesRead r va pa flags count, just stRESERVED) := by
  rw [mapRange_eq]
  exact (if_neg (Bool.eq_false_iff.mp hb)).trans (if_pos ha)

variable (ha : (u.placesRead r va pa flags count).meetsArea pa (mapBytes flags count) = false)
include ha

theorem mapRange_mapped (ht : (u.found r va pa flags count).contains .taken = true) (hr : bitOf flags 5 = false) :
    u.mapRange r va pa flags count = (u.placesRead r va pa flags count, just stMAPPED) := by
  rw [mapRange_eq]
  exact (if_neg (Bool.eq_false_iff.mp hb)).trans <| (if_neg (Bool.eq_false_iff.mp ha)).trans <| if_pos ⟨by rw [hr]; rfl, ht⟩

/-- No page is taken, or REPLACE allows it: MAP goes on to put its leaves. -/
theorem mapRange_puts (hr : (u.found r va pa flags count).contains .taken = false ∨ bitOf flags 5 = true) :
    u.mapRange r va pa flags count =
      (u.placesRead r va pa flags count).leavesPut r va flags count ((u.found r va pa flags count).contains .taken)
        ((u.placesRead r va pa flags count).putLeaves r.job.toNat (mapPages va pa flags count)) := by
  have hn : ¬((!(bitOf flags 5)) = true ∧ (u.found r va pa flags count).contains .taken = true) := by
    rintro ⟨hf, ht⟩
    rcases hr with hr | hr
    · exact Bool.false_ne_true (hr.symm.trans ht)
    · simp [hr] at hf
  rw [mapRange_eq]
  exact (if_neg (Bool.eq_false_iff.mp hb)).trans <| (if_neg (Bool.eq_false_iff.mp ha)).trans <| if_neg hn

section
variable (hr : (u.found r va pa flags count).contains .taken = false ∨ bitOf flags 5 = true)
include hr

theorem mapRange_noTables
    (hp : (u.placesRead r va pa flags count).putLeaves r.job.toNat (mapPages va pa flags count) = none) :
    u.mapRange r va pa flags count = (u.placesRead r va pa flags count, just stNOTABLES) := by
  rw [mapRange_puts hb ha hr, hp, State.leavesPut]

variable {t : State}
  (hp : (u.placesRead r va pa flags count).putLeaves r.job.toNat (mapPages va pa flags count) = some t)
include hp

theorem mapRange_free (hf : (u.found r va pa flags count).contains .taken = false) :
    u.mapRange r va pa flags count = (t, just stSUCCESS) := by
  rw [mapRange_puts hb ha hr, hp, State.leavesPut, if_neg (Bool.eq_false_iff.mp hf)]

theorem mapRange_replaces (ht : (u.found r va pa flags count).contains .taken = true) :
    u.mapRange r va pa flags count =
      t.afterInval r r.job.toNat (va / 2 ^ 21) (mapBytes flags count / 2 ^ 21) := by
  rw [mapRange_puts hb ha hr, hp, State.leavesPut, if_pos ht]

end
end
end

/-! ### UNMAP and PROTECT (R14, R485) -/

section
variable {s u : State} {r : Req}

theorem exec_unmap (h : s.serves r .target u) (va : BitVec 64) (count : BitVec 32) :
    exec (.unmap r va count) s =
      .next ((State.answered r (u.changeRange r va.toNat count.toNat fun _ => 0)).keeping s) :=
  serve_of_serves (serves_entry h (.inl rfl) _) false (State.doUnmap r va.toNat count.toNat)

theorem exec_protect (h : s.serves r .target u) (va : BitVec 64) (flags : BitVec 8) (count : BitVec 32) :
    exec (.protect r va flags count) s =
      .next ((State.answered r (u.doProtect r va.toNat flags.toNat count.toNat)).keeping s) :=
  serve_of_serves (serves_entry h (.inl rfl) _) false (State.doProtect r va.toNat flags.toNat count.toNat)

variable {va flags count : Nat}

theorem doProtect_badFlags (hf : flags % 2 = 1 ∨ 32 ≤ flags) : u.doProtect r va flags count = (u, just stBADENTRY) :=
  if_pos hf

theorem doProtect_goodFlags (hf : flags % 2 = 0 ∧ flags < 32) :
    u.doProtect r va flags count = u.changeRange r va count (protectEntry flags) :=
  if_neg (by omega)

variable (f : Nat → Nat)

theorem changeRange_badJob {st : Nat} (hj : u.jobFails r = some st) : u.changeRange r va count f = (u, just st) := by
  simp [State.changeRange, hj]

/-- A range of 2 MiB units that UNMAP and PROTECT refuse whatever stands there: none, unaligned, or past the VA space. -/
def badUnits (va count : Nat) : Prop := count = 0 ∨ va % 2 ^ 21 ≠ 0 ∨ 2 ^ 57 < va + count * 2 ^ 21

/-- The units of a range. -/
def rangeUnits (va count : Nat) : List Nat := (List.range count).map (va / 2 ^ 21 + ·)

/-- The leaf of a unit reaches out of the range. -/
def State.cuts (u : State) (job first count x : Nat) : Bool :=
  match u.leafOf job x with
  | some (l, _, _) => !leafInside first count x l
  | none => false

theorem cuts_eq {job first count x l t e : Nat} (h : u.leafOf job x = some (l, t, e)) :
    u.cuts job first count x = !leafInside first count x l := by
  rw [State.cuts, h]

section
variable (hj : u.jobFails r = none)
include hj

theorem changeRange_snapOpen (ho : u.snapOf r.job.toNat = true) : u.changeRange r va count f = (u, just stSNAPOPEN) := by
  simp [State.changeRange, hj, ho]

variable (ho : u.snapOf r.job.toNat = false)
include ho

theorem changeRange_badUnits (hw : badUnits va count) : u.changeRange r va count f = (u, just stBADPARAM) := by
  simp only [State.changeRange, hj, ho, Bool.false_eq_true, if_false]
  exact if_pos hw

variable (hw : ¬badUnits va count)
include hw

/-- A good range is changed unless a unit of it is unmapped, or its leaf reaches out of the range. -/
theorem changeRange_goodUnits : u.changeRange r va count f =
    let units := rangeUnits va count
    let y := u.readPaths r.job.toNat units
    if units.any fun x => (u.leafOf r.job.toNat x).isNone then (y, just stNOTMAPPED)
    else if units.any (u.cuts r.job.toNat (va / 2 ^ 21) count) then (y, just stBADPARAM)
    else (y.changeLeaves r.job.toNat units f).afterInval r r.job.toNat (va / 2 ^ 21) count := by
  simp only [State.changeRange, hj, ho, Bool.false_eq_true, if_false]
  refine (if_neg hw).trans ?_
  simp only [rangeUnits, List.any_map]
  rfl

theorem changeRange_unmapped (hn : ∃ x ∈ rangeUnits va count, u.leafOf r.job.toNat x = none) :
    u.changeRange r va count f = (u.readPaths r.job.toNat (rangeUnits va count), just stNOTMAPPED) := by
  rw [changeRange_goodUnits f hj ho hw]
  exact if_pos (List.any_eq_true.mpr (by simpa using hn))

section
variable (hm : ∀ x ∈ rangeUnits va count, u.leafOf r.job.toNat x ≠ none)
include hm

theorem changeRange_mapped : u.changeRange r va count f =
    let units := rangeUnits va count
    let y := u.readPaths r.job.toNat units
    if units.any (u.cuts r.job.toNat (va / 2 ^ 21) count) then (y, just stBADPARAM)
    else (y.changeLeaves r.job.toNat units f).afterInval r r.job.toNat (va / 2 ^ 21) count := by
  rw [changeRange_goodUnits f hj ho hw]
  refine if_neg fun hn => ?_
  obtain ⟨x, hx, hl⟩ := List.any_eq_true.mp hn
  exact hm x hx (Option.isNone_iff_eq_none.mp hl)

theorem changeRange_cut (hc : ∃ x ∈ rangeUnits va count, ∃ l t e, u.leafOf r.job.toNat x = some (l, t, e) ∧
      leafInside (va / 2 ^ 21) count x l = false) :
    u.changeRange r va count f = (u.readPaths r.job.toNat (rangeUnits va count), just stBADPARAM) := by
  obtain ⟨x, hx, l, t, e, hl, hi⟩ := hc
  rw [changeRange_mapped f hj ho hw hm]
  exact if_pos (List.any_eq_true.mpr ⟨x, hx, by rw [cuts_eq hl, hi]; rfl⟩)

end

theorem changeRange_changes (hi : ∀ x ∈ rangeUnits va count, ∃ l t e, u.leafOf r.job.toNat x = some (l, t, e) ∧
      leafInside (va / 2 ^ 21) count x l = true) :
    u.changeRange r va count f = ((u.readPaths r.job.toNat (rangeUnits va count)).changeLeaves r.job.toNat
      (rangeUnits va count) f).afterInval r r.job.toNat (va / 2 ^ 21) count := by
  have hm : ∀ x ∈ rangeUnits va count, u.leafOf r.job.toNat x ≠ none := fun x hx hn => by
    obtain ⟨l, t, e, hl, -⟩ := hi x hx
    simp [hn] at hl
  rw [changeRange_mapped f hj ho hw hm]
  refine if_neg fun hc => ?_
  obtain ⟨x, hx, hx'⟩ := List.any_eq_true.mp hc
  obtain ⟨l, t, e, hl, hin⟩ := hi x hx
  rw [cuts_eq hl, hin] at hx'
  exact Bool.false_ne_true hx'

end
end

/-! ### OWNER_TABLE (R174, R486) -/

section
variable {s u : State} {r : Req}

theorem exec_ownerTable (h : s.serves r .lead u) (va : BitVec 64) (length : BitVec 32) :
    exec (.ownerTable r va length) s =
      .next ((State.answered r (u.doOwnerTable r va.toNat length.toNat)).keeping s) :=
  serve_of_serves (serves_entry h (.inr rfl) _) false (State.doOwnerTable r va.toNat length.toNat)

variable {va length : Nat}

theorem doOwnerTable_short (hl : length < 56) : u.doOwnerTable r va length = (u, just stBADPARAM) := if_pos hl

section
variable (hl : 56 ≤ length)
include hl

theorem doOwnerTable_unread {st : Nat} (hp : (u.readParam r va length).2 = .inl st) :
    u.doOwnerTable r va length = ((u.readParam r va length).1, just st) := by
  rw [State.doOwnerTable, if_neg (by omega)]
  generalize u.readParam r va length = p at *
  obtain ⟨t, x⟩ := p
  obtain rfl : x = _ := hp
  rfl

variable {b : Bytes} (hp : (u.readParam r va length).2 = .inr b)
include hp

theorem doOwnerTable_bad (ho : (u.readParam r va length).1.ownerOk b length = false) :
    u.doOwnerTable r va length = ((u.readParam r va length).1, just stBADPARAM) := by
  rw [State.doOwnerTable, if_neg (by omega)]
  generalize u.readParam r va length = p at *
  obtain ⟨t, x⟩ := p
  obtain rfl : x = _ := hp
  exact if_neg (Bool.eq_false_iff.mp ho)

theorem doOwnerTable_good (ho : (u.readParam r va length).1.ownerOk b length = true) : u.doOwnerTable r va length =
    let t := (u.readParam r va length).1
    ({ t with host := { t.host with owners := assocPut (field b 0 2) b t.host.owners } }, just stSUCCESS) := by
  rw [State.doOwnerTable, if_neg (by omega)]
  generalize u.readParam r va length = p at *
  obtain ⟨t, x⟩ := p
  obtain rfl : x = _ := hp
  exact if_pos ho

end
end

/-! ### CHANNEL_SET (R265, R486) -/

section
variable {s u : State} {r : Req}

theorem exec_channelSet (h : s.serves r .target u) (m : BitVec 8) (ch : BitVec 16) (w0 : BitVec 64) (clear : Bool) :
    exec (.channelSet r m ch w0 clear) s =
      .next ((State.answered r (u.doChannelSet m.toNat ch.toNat w0.toNat clear)).keeping s) :=
  serve_of_serves (serves_entry h (.inl rfl) _) false (State.doChannelSet m.toNat ch.toNat w0.toNat clear)

variable {m ch : Nat} (w0 : Nat) (clear : Bool)

theorem doChannelSet_badChannel (hc : 7 < m ∨ 4095 < ch) : u.doChannelSet m ch w0 clear = (u, just stBADPARAM) :=
  if_pos hc

section
variable (hm : m ≤ 7) (hc : ch ≤ 4095)
include hm hc

theorem doChannelSet_absent (hp : u.present m = false) : u.doChannelSet m ch w0 clear = (u, just stNOCORE) := by
  rw [State.doChannelSet, if_neg (by omega), if_pos (by simp [hp])]

variable (hp : u.present m = true)
include hp

theorem doChannelSet_busy (hi : u.chanIdle m ch = false) : u.doChannelSet m ch w0 clear = (u, just stBUSY) := by
  rw [State.doChannelSet, if_neg (by omega), if_neg (by simp [hp]), if_pos (by simp [hi])]

variable (hi : u.chanIdle m ch = true) {w0 : Nat}
include hi

theorem doChannelSet_noJob (hv : bitOf w0 63 = true) (hj : u.jobValid (w0 % 64) = false) :
    u.doChannelSet m ch w0 clear = (u, just stNOJOB) := by
  rw [State.doChannelSet, if_neg (by omega), if_neg (by simp [hp]), if_neg (by simp [hi]), if_pos (by simp [hv, hj])]

theorem doChannelSet_writes (hj : bitOf w0 63 = true → u.jobValid (w0 % 64) = true) :
    u.doChannelSet m ch w0 clear =
      let t := u.setCtx m ch 0 (ctxMask w0)
      (if clear then [2, 3, 4, 5, 6].foldl (fun x k => x.setCtx m ch k 0) t else t, just stSUCCESS) := by
  rw [State.doChannelSet, if_neg (by omega), if_neg (by simp [hp]), if_neg (by simp [hi]),
    if_neg (by simpa using hj)]

end
end

/-- Settles O47: a command is what its part answers where this device is the target, and the part answers by the checks it makes
in order. -/
theorem mappingCommandsAct : Obligations.MappingCommandsAct := by
  intro r va pa flags count m ch w0 clear s u
  have hz : count = 0 ↔ count.toNat = 0 := by simp [BitVec.toNat_eq]
  simp only [hz]
  refine ⟨fun h hf => ⟨fun st hj => ?badJob, fun hj ho => ?snapOpen⟩, fun h hf => ?mapFlags, fun h hf => ?protectFlags,
    fun h hj ho => ⟨fun hf => ?map, ?change⟩, fun h => ?ownerTable, fun h => ?channelSet⟩
  case badJob =>
    refine ⟨?_, ?_, fun h2 h5 => ?_⟩
    · rw [exec_map h, doMap_badJob hf hj, answered_just]
    · rw [exec_unmap h, changeRange_badJob _ hj, answered_just]
    · rw [exec_protect h, doProtect_goodFlags ⟨h2, h5⟩, changeRange_badJob _ hj, answered_just]
  case snapOpen =>
    refine ⟨?_, ?_, fun h2 h5 => ?_⟩
    · rw [exec_map h, doMap_snapOpen hf hj ho, answered_just]
    · rw [exec_unmap h, changeRange_snapOpen _ hj ho, answered_just]
    · rw [exec_protect h, doProtect_goodFlags ⟨h2, h5⟩, changeRange_snapOpen _ hj ho, answered_just]
  case mapFlags => rw [exec_map h, doMap_badFlags hf, answered_just]
  case protectFlags => rw [exec_protect h, doProtect_badFlags hf, answered_just]
  case map =>
    refine ⟨fun hb => ?_, fun hb hs => ?_, fun hb hs => ⟨fun ha => ?_, fun ha => ⟨fun ht hr => ?_, fun hr =>
      ⟨fun hp => ?_, fun t hp => ⟨fun ht => ?_, fun ht => ?_⟩⟩⟩⟩⟩
    · rw [exec_map h, doMap_badPages hf hj ho hb, answered_just]
    · rw [exec_map h, doMap_goodPages hf hj ho hb, mapRange_badPlace hs]; rfl
    · rw [exec_map h, doMap_goodPages hf hj ho hb, mapRange_reserved hs ha]; rfl
    · rw [exec_map h, doMap_goodPages hf hj ho hb, mapRange_mapped hs ha ht hr]; rfl
    · rw [exec_map h, doMap_goodPages hf hj ho hb, mapRange_noTables hs ha hr hp]; rfl
    · rw [exec_map h, doMap_goodPages hf hj ho hb, mapRange_free hs ha hr hp ht]; rfl
    · rw [exec_map h, doMap_goodPages hf hj ho hb, mapRange_replaces hs ha hr hp ht]; rfl
  case change =>
    refine ⟨fun hw => ⟨?_, fun hk => ?_⟩, fun hw hn => ⟨?_, fun hk => ?_⟩, fun hw hm hc => ⟨?_, fun hk => ?_⟩,
      fun hw hi => ⟨?_, fun hk => ?_⟩⟩
    · rw [exec_unmap h, changeRange_badUnits _ hj ho hw, answered_just]
    · rw [exec_protect h, doProtect_goodFlags hk, changeRange_badUnits _ hj ho hw, answered_just]
    · rw [exec_unmap h, changeRange_unmapped _ hj ho hw hn]; rfl
    · rw [exec_protect h, doProtect_goodFlags hk, changeRange_unmapped _ hj ho hw hn]; rfl
    · rw [exec_unmap h, changeRange_cut _ hj ho hw hm hc]; rfl
    · rw [exec_protect h, doProtect_goodFlags hk, changeRange_cut _ hj ho hw hm hc]; rfl
    · rw [exec_unmap h, changeRange_changes _ hj ho hw hi]; rfl
    · rw [exec_protect h, doProtect_goodFlags hk, changeRange_changes _ hj ho hw hi]; rfl
  case ownerTable =>
    refine ⟨fun hl => ?_, fun hl => ⟨fun st hp => ?_, fun b hp ho => ?_, fun b hp ho => ?_⟩⟩
    · rw [exec_ownerTable h, doOwnerTable_short hl, answered_just]
    · rw [exec_ownerTable h, doOwnerTable_unread hl hp, answered_just]
    · rw [exec_ownerTable h, doOwnerTable_bad hl hp ho, answered_just]
    · rw [exec_ownerTable h, doOwnerTable_good hl hp ho]; rfl
  case channelSet =>
    refine ⟨fun hc => ?_, fun hm hc => ⟨fun hp => ?_, fun hp hi => ?_, fun hp hi => ⟨fun hv hj => ?_, fun hj => ?_⟩⟩⟩
    · rw [exec_channelSet h, doChannelSet_badChannel _ _ hc, answered_just]
    · rw [exec_channelSet h, doChannelSet_absent _ _ hm hc hp, answered_just]
    · rw [exec_channelSet h, doChannelSet_busy _ _ hm hc hp hi, answered_just]
    · rw [exec_channelSet h, doChannelSet_noJob _ hm hc hp hi hv hj, answered_just]
    · rw [exec_channelSet h, doChannelSet_writes _ hm hc hp hi hj]; rfl

end Sys2Proof.Machine
end

section
/-!
PROOFS. What the passing of device time leaves, and what a step does on an empty queue.
-/

namespace Sys2Proof.Machine

/-! ### Device time passes (R33) -/

/-- The passing of time touches nothing but registers and cores. -/
theorem passTo_eq (s : State) (t : Nat) :
    s.passTo t = { s with regs := (s.passTo t).regs, cores := (s.passTo t).cores } :=
  congrArg (fun x : State => { x with regs := (s.passTo t).regs, cores := (s.passTo t).cores })
    (passTo_part (fun x => { x with regs := [], cores := [] }) s t (fun _ _ => rfl) (fun _ _ _ => rfl) (fun _ _ _ => rfl)
      (fun _ _ => rfl) fun _ _ => rfl)

@[simp] theorem passTo_mem (s : State) (t : Nat) : (s.passTo t).mem = s.mem := by rw [passTo_eq]
@[simp] theorem passTo_net (s : State) (t : Nat) : (s.passTo t).net = s.net := by rw [passTo_eq]
@[simp] theorem passTo_runs (s : State) (t : Nat) : (s.passTo t).runs = s.runs := by rw [passTo_eq]

/-- A part of a core that noting its idleness leaves is left by the passing of time. -/
theorem passTo_core {β : Type} (g : CoreSt → β) (hg : ∀ (s : State) n m, g ((s.noteIdle n).core m) = g (s.core m))
    (s : State) (t n : Nat) : g ((s.passTo t).core n) = g (s.core n) :=
  passTo_part (fun x => g (x.core n)) s t (fun x m => hg x m n) (fun _ _ _ => rfl) (fun _ _ _ => rfl) (fun _ _ => rfl)
    fun _ _ => rfl

@[simp] theorem passTo_window (s : State) (t n : Nat) : ((s.passTo t).core n).window = (s.core n).window :=
  passTo_core CoreSt.window (fun s n m => (noteIdle_core s n m).1) s t n

@[simp] theorem passTo_slots (s : State) (t n : Nat) : ((s.passTo t).core n).slots = (s.core n).slots :=
  passTo_core CoreSt.slots (fun s n m => (noteIdle_core s n m).2.1) s t n

@[simp] theorem passTo_fetched (s : State) (t n : Nat) : ((s.passTo t).core n).fetched = (s.core n).fetched :=
  passTo_core CoreSt.fetched (fun s n m => (noteIdle_core s n m).2.2) s t n

/-- A register that is neither TIME.NOW nor a counter of waiting. -/
def Fld.countsNoTime (f : Fld) : Prop :=
  f.key ≠ Reg.TIME.NOW.key ∧ (∀ n, f.key ≠ (Reg.CORE.ADMIT_WAIT_NS n).key) ∧
    (∀ d, f.key ≠ (Reg.DOOR.LEDGER_FULL_NS d).key) ∧ f.key ≠ Reg.SNAP.RESERVE_FULL_NS.key

/-- Such a register is left by the passing of time. -/
theorem passTo_get (s : State) (t : Nat) {f : Fld} (h : f.countsNoTime) : (s.passTo t).get f = s.get f := by
  obtain ⟨hnow, hadmit, hledger, hreserve⟩ := h
  exact passTo_part (State.get · f) s t (fun _ _ => rfl) (fun _ n _ => State.get_inc_ne _ _ _ _ (hadmit n))
    (fun _ d _ => State.get_inc_ne _ _ _ _ (hledger d)) (fun _ _ => State.get_inc_ne _ _ _ _ hreserve)
    fun _ _ => State.get_put_ne _ _ _ _ hnow

/-- Device time that has come to its greatest value stays there. -/
theorem passTo_reached (s : State) {t : Nat} (h : min t maxTime ≤ s.now) : s.passTo t = s := if_neg (Nat.not_lt.mpr h)

/-- One nanosecond passes, up to the greatest device time. -/
theorem passTo_tick (s : State) : (s.passTo (s.now + 1)).now = if s.now < maxTime then s.now + 1 else s.now := by
  split
  · have hmin : min (s.now + 1) maxTime = s.now + 1 := by omega
    rw [passTo_now s _ (by omega), hmin]
  · rw [passTo_reached s (by omega)]

/-! ### A step on an empty queue -/

theorem step_empty {s : State} (hq : s.pending = []) : step s = .next s.idle := by
  rw [step, hq]

theorem idle_reset {s : State} (hp : s.phase ≠ .up) : s.idle = s := by
  simp [State.idle, State.live, hp]

theorem idle_up {s : State} (hp : s.phase = .up) : s.idle = s.passTo (s.now + 1) := by
  simp [State.idle, State.live, hp]

/-- Settles O2: on an empty queue a step is the passing of one nanosecond, which touches registers and cores alone, and of these
only TIME.NOW, the counters of waiting, and since when a core is idle. -/
theorem stepIdles : Obligations.StepIdles := by
  intro s hq
  refine ⟨fun hp => by rw [step_empty hq, idle_reset hp], fun hp => ?_⟩
  let u := s.passTo (s.now + 1)
  have hstep : step s = .next { s with regs := u.regs, cores := u.cores } := by
    rw [step_empty hq, idle_up hp, passTo_eq]
  refine ⟨_, hstep, passTo_tick s, rfl, rfl, rfl, rfl, rfl, rfl, rfl, rfl, rfl, rfl, rfl, rfl, rfl, rfl, rfl, rfl, rfl, rfl,
    rfl, hp, hq, fun n => ?_, fun f hnow hadmit hledger hreserve => ?_⟩
  · exact ⟨passTo_window s _ n, passTo_slots s _ n, passTo_fetched s _ n⟩
  · exact passTo_get s _ ⟨hnow, hadmit, hledger, hreserve⟩

end Sys2Proof.Machine
end

section
/-!
PROOFS. Fetch, admission, launch times and completion: what the issue unit's own commands do.
-/

namespace Sys2Proof.Machine

/-! ### Fetch (R192) -/

section
variable {s : State} {n : Nat}

/-- A running stream, no end of which has been admitted, takes the word at its fetch address, where the page translates and the
word is not poisoned. -/
theorem fetch_reads {s1 s2 : State} {pa : Nat} {kill snap : Bool} {data : Bytes} (hs : s.streamState n = 1)
    (he : (s.core n).endSeen = false) (hp : s.present n = true)
    (hx : s.xlat n (s.jobOf n) (s.core n).fetchPc true false = (s1, .ok pa kill snap))
    (hr : s1.readPa n (s.jobOf n) pa 16 = (s2, data, false)) :
    s.fetch n = s2.setCore n { s2.core n with
      fetched := (s2.core n).fetched ++ [⟨(s.core n).fetchPc, BitVec.ofNat 128 (natOf data), pa⟩],
      fetchPc := ((s.core n).fetchPc + 16) % 2 ^ 57 } := by
  simp [State.fetch, hs, he, hp, hx, hr]

/-! ### Admission (R41, R195, R200, R401) -/

/-- The head f of core n's stream, as an instruction with what it captures. -/
def State.headInsn (s : State) (n : Nat) (f : Fetched) : Insn :=
  let j := mkInsn (s.get (Reg.CORE.TAG_NEXT n)) f.addr f.word
  { j with dD := s.slot n j.dslot, dA := s.slot n j.aslot, dB := s.slot n j.bslot, dX := s.slot n j.xslot,
           time := s.get (Reg.CORE.LSLOT_TIME n j.lslot) }

/-- The state in which the head f has left the words ahead, and has been counted, with a tag of its own. -/
def State.headTaken (s : State) (n : Nat) (f : Fetched) (rest : List Fetched) : State :=
  (((s.setCore n { s.core n with fetched := rest }).put (Reg.CORE.TAG_NEXT n)
    (nextTag (s.get (Reg.CORE.TAG_NEXT n)))).put (Reg.CORE.PC n) ((f.addr + 16) % 2 ^ 57)).inc (Reg.CORE.ADMITTED n) 1

/-- The state in which an instruction stands in the window, and its watch is on its way. -/
def State.entered (s : State) (n : Nat) (i : Insn) : State :=
  let v := s.setCore n { s.core n with window := (s.core n).window ++ [i], endSeen := i.op == 1 }
  if i.waitV then v.sendWatch n i.wait else v

/-- Admission leaves which launch slots are loaded. -/
theorem headTaken_slotValid (f : Fetched) (rest : List Fetched) :
    (s.headTaken n f rest).get (Reg.CORE.LSLOT_VALID n) = s.get (Reg.CORE.LSLOT_VALID n) := by
  have hkey : ∀ g ∈ [Reg.CORE.TAG_NEXT n, Reg.CORE.PC n, Reg.CORE.ADMITTED n], (Reg.CORE.LSLOT_VALID n).key ≠ g.key := by
    simp [Fld.key, Reg.CORE.LSLOT_VALID, Reg.CORE.TAG_NEXT, Reg.CORE.PC, Reg.CORE.ADMITTED]
  rw [State.headTaken, State.get_inc_ne _ _ _ _ (hkey _ (by simp)), State.get_put_ne _ _ _ _ (hkey _ (by simp)),
    State.get_put_ne _ _ _ _ (hkey _ (by simp))]
  rfl

/-- Admission leaves which words have failed parity. -/
theorem headTaken_parityFlt (f : Fetched) (rest : List Fetched) (i : Insn) :
    (s.headTaken n f rest).parityFlt n i = s.parityFlt n i := by
  have hbad : ((s.headTaken n f rest).core n).badWords = (s.core n).badWords :=
    (congrArg CoreSt.badWords (State.core_setCore_self s n _) :)
  rw [State.parityFlt, hbad, State.parityFlt]

/-- A head that has been read, that nothing blocks, and that no check of admission faults enters the window; an early jmp moves
the fetch to its target. -/
theorem admitNext_enters {f : Fetched} {rest : List Fetched} (hf : (s.core n).fetched = f :: rest)
    (hs : s.streamState n = 1) (he : (s.core n).endSeen = false)
    (hb : s.admitBlocked n (mkInsn 0 f.addr f.word) = false) (ho : s.fetchOpen n f = false)
    (hg : (s.headInsn n f).badEncoding = false)
    (hl : (s.headInsn n f).launch = 1 ∨ (s.headInsn n f).launch = 2 →
      bitOf (s.get (Reg.CORE.LSLOT_VALID n)) (s.headInsn n f).lslot = true)
    (hp : s.parityFlt n (s.headInsn n f) = none) :
    s.admitNext n =
      let i := s.headInsn n f
      let w := (s.headTaken n f rest).entered n i
      if i.op = 2 ∧ !i.lateJmp then w.redirect n i.target else w := by
  have hl' : ¬(((s.headInsn n f).launch = 1 ∨ (s.headInsn n f).launch = 2) ∧
      (!bitOf ((s.headTaken n f rest).get (Reg.CORE.LSLOT_VALID n)) (s.headInsn n f).lslot) = true) := by
    rintro ⟨hm, hv⟩
    rw [headTaken_slotValid, hl hm] at hv
    exact Bool.false_ne_true hv
  have hp' : (s.headTaken n f rest).parityFlt n (s.headInsn n f) = none := (headTaken_parityFlt f rest _).trans hp
  rw [State.admitNext, hf]
  dsimp only
  rw [if_pos (by simp [hs, he, hb, ho])]
  refine (if_neg (Bool.eq_false_iff.mp hg)).trans ((if_neg hl').trans ?_)
  split
  · rename_i h
    exact absurd (h.symm.trans hp') (Option.some_ne_none _)
  · rfl

/-! ### Launch times and completion (R44, R204) -/

section
variable {tag : Nat} {i : Insn} (hi : (s.core n).window.find? (fun i => i.tag = tag) = some i)
include hi

theorem reachLaunch_waits (hd : i.dispatched = false) (hl : i.launch = 1 ∨ i.launch = 2) :
    s.reachLaunch n tag = s.passTo i.time := by
  simp [State.reachLaunch, hi, hd, hl]

/-- An instruction that completes leaves the window; its counts, its request line and its post latch follow, and an end ends the
stream. -/
theorem finishInsn_completes (hc : s.atCompletion n i = true) (hn : s.numericFault n i = false) :
    s.finishInsn n tag =
      let u := ((s.addCounts n i).dropInsn n tag).routeReq n (queueOf i.op)
      let v := if i.postV then u.sendLatch n i.post true none else u
      (if i.op = 1 ∧ v.streamState n = 1 then
        (v.put (Reg.CORE.STREAM_STATE n) 3).event 1 (v.jobOf n) n 0 i.tag else v).applyHeldGen n := by
  rw [State.finishInsn, hi]
  exact (if_pos hc).trans (if_neg (Bool.eq_false_iff.mp hn))

end
end

/-! ### The commands of the issue unit -/

theorem exec_instructionFetch (c : CoreIx) (s : State) :
    exec (.instructionFetch c) s = whenLive s fun s => s.fetch c.val := rfl

theorem exec_admission (c : CoreIx) (s : State) : exec (.admission c) s = whenLive s fun s => s.admitNext c.val := rfl

theorem exec_launchTimeReached (c : CoreIx) (tag : BitVec 32) (s : State) :
    exec (.launchTimeReached c tag) s = whenLive s fun s => s.reachLaunch c.val tag.toNat := rfl

theorem exec_instructionComplete (c : CoreIx) (tag : BitVec 32) (s : State) :
    exec (.instructionComplete c tag) s = whenLive s fun s => s.finishInsn c.val tag.toNat := rfl

/-- Settles O16: each command is its operation on the core, and time passes to a launch time that is still to come. -/
theorem issueUnitRuns : Obligations.IssueUnitRuns := by
  intro c tag s s1 s'
  refine ⟨fun pa kill snap data hu hs he hp hx hr => ?_, fun f rest hu hf hs he hb ho hg hp hl => ?_,
    fun i hu hi hd hl hlt hmax => ?_, fun i hu hi hc hn => ?_⟩
  · rw [exec_instructionFetch, whenLive_up hu, fetch_reads hs he hp hx hr]
  · rw [exec_admission, whenLive_up hu, admitNext_enters hf hs he hb ho hg hl hp]
    rfl
  · have hmin : min i.time maxTime = i.time := by rw [maxTime]; omega
    have hnow : (s.passTo i.time).now = i.time := by rw [passTo_now s _ (hmin.symm ▸ hlt), hmin]
    exact ⟨(s.passTo i.time).keeping s, by rw [exec_launchTimeReached, whenLive_up hu, reachLaunch_waits hi hd hl], hnow,
      passTo_mem s _, passTo_net s _, passTo_runs s _, passTo_window s _ _⟩
  · rw [exec_instructionComplete, whenLive_up hu, finishInsn_completes hi hc hn]

end Sys2Proof.Machine
end

section
/-!
PROOFS. The steps of boot, and what the host's link, its reset, the loss of the reference and a tripped sensor do.
-/

namespace Sys2Proof.Machine

/-! ### Writes of several registers -/

/-- What no write of a register touches several of them leave. -/
theorem puts_part {β : Type} (g : State → β) (hg : ∀ (s : State) f v, g (s.put f v) = g s) (s : State)
    (l : List (Fld × Nat)) : g (s.puts l) = g s :=
  foldl_part g (fun s (e : Fld × Nat) => s.put e.1 e.2) (fun s e => hg s e.1 e.2) l s

/-- A register that step k of a fold sets, and that every other step leaves, has been set where k is in the list. -/
theorem get_foldl_set {g : Fld} {x k : Nat} {f : State → Nat → State} (hset : ∀ s, (f s k).get g = x)
    (hkeep : ∀ s j, j ≠ k → (f s j).get g = s.get g) {l : List Nat} (hk : k ∈ l) (s : State) : (l.foldl f s).get g = x := by
  induction l using List.reverseRecOn with
  | nil => simp at hk
  | append_singleton r a ih =>
    rw [List.foldl_append, List.foldl_cons, List.foldl_nil]
    by_cases ha : a = k
    · rw [ha, hset]
    · rw [hkeep _ _ ha, ih (by simpa [Ne.symm ha] using hk)]

/-! ### The security block, the rails and the casements (R509, R522, R535) -/

section
variable {s : State}

/-- All tests passed, and the identity alive: the attestation key is made, and Sill firmware starts. -/
theorem securityReady_passed (hr : s.get Reg.SEC.READY ≠ 1) (hs : s.get Reg.FW.STAGE = 0)
    (hd : s.kept.identityDead = false) :
    s.securityReady true true true = ((({ s with
      freeCtr := s.freeCtr + 1, kept := { s.kept with bootCount := min (2 ^ 32 - 1) (s.kept.bootCount + 1) },
      sec := { s.sec with akSeed := some s.freeCtr } } : State).puts
        [(Reg.SEC.ID_VALID, 1), (Reg.SEC.AK_VALID, 1)]).inc Reg.SEC.SIGN_CNT 1).puts
        [(Reg.SEC.READY, 1), (Reg.FW.STAGE, 1)] := by
  simp [State.securityReady, State.bootIdentity, State.drawn, State.draw, hr, hs, hd]

theorem setRails_good (hs : s.get Reg.FW.STAGE = 1) (hf : s.fe = false) :
    s.setRails =
      let a := s.kept.retiredTiles.foldl State.applyTiles s
      let u := a.kept.retiredCores.foldl State.applyCore a
      let v := u.coreList.foldl (fun t n => t.putRail n 750) u
      (({ v with pwr := { v.pwr with
        uncoreMv := 750, storeMv := 750, optMv := (List.range 16).map fun c => (c, 900) } } : State).puts
          [(Reg.PWR.LEND_EN, 1), (Reg.FW.STAGE, 3)]).litStage :=
  if_neg (by simp [hs, hf])

theorem calibrateBoot_good {c a b : Nat} (hc : s.doors.calibrated.contains c = false) (hs : s.get Reg.FW.STAGE < 5)
    (hg : s.feedGood c a = true ∨ s.feedGood c b = true) :
    s.calibrateBoot c a b = (({ s with doors := { s.doors with
        calibrated := setInsert c s.doors.calibrated } } : State).puts [(Reg.CASE.A_CDBM c, a),
        (Reg.CASE.B_CDBM c, b), (Reg.CASE.A_OK c, ofBool (s.feedGood c a)), (Reg.CASE.B_OK c, ofBool (s.feedGood c b)),
        (Reg.CASE.ACTIVE c, ofBool (!s.feedGood c a))]).litStage := by
  have hno : ¬(s.doors.calibrated.contains c = true ∨ 5 ≤ s.get Reg.FW.STAGE ∨
      (!(s.feedGood c a || s.feedGood c b)) = true) := by
    rintro (h | h | h)
    · exact Bool.false_ne_true (hc.symm.trans h)
    · omega
    · rcases hg with hg | hg <;> simp [hg] at h
  exact if_neg hno

/-! ### The windows and the map (R258) -/

/-- Either of two values by whether some element fails a test. -/
theorem ite_any_not {α β : Type} (l : List β) (p : β → Bool) (x y : α) :
    (if l.any fun c => !p c then x else y) = if l.all p then y else x := by
  rw [List.all_eq_not_any_not]
  cases l.any fun c => !p c <;> rfl

/-- The windows start once, after the rails: those of lit casements train, and the others are excluded. -/
theorem startWindows_starts (h3 : 3 ≤ s.get Reg.FW.STAGE) (h5 : s.get Reg.FW.STAGE < 5) :
    s.startWindows =
      let a0 := if ((List.range 16).any fun c => !s.doors.calibrated.contains c) then s.passTo 1000000000 else s
      let a := if ((List.range 16).any fun c => !a0.lit c) then a0.put Reg.FW.CASEMENT_DARK 1 else a0
      let b := (List.range 32).foldl (fun t w =>
        if t.lit (w / 2) then ((t.put (Reg.WIN.STATE w) 1).setWin w { t.win w with startedAt := t.now }).setLink w LinkSt.zero
        else t.exclude w) a
      ((List.range 16).foldl State.trainDoor b).put Reg.FW.STAGE 5 := by
  simp only [ite_any_not]
  exact if_neg (by omega)

theorem formMap_forms (hs : s.get Reg.FW.STAGE = 5) :
    s.formMap =
      let t0 := ((List.range 32).map fun w => (s.win w).startedAt).foldl max 0
      let a := if s.unsettled = [] then s else s.unsettled.foldl State.exclude (s.passTo (t0 + 2000000000))
      let ws := (List.range 32).filter fun w => a.get (Reg.WIN.STATE w) == 3
      ((if ws = [] then a.put Reg.FW.NO_MEMORY 1 else a).fixMap ws).put Reg.FW.STAGE 6 := by
  simp only [State.formMap, hs, ne_eq, not_true_eq_false, if_false, List.isEmpty_iff]

theorem bootReady_lays (hs : s.get Reg.FW.STAGE = 6) :
    s.bootReady =
      let t := if s.memTop = 0 then s.setLayout 0 0 0 else s.setLayout (2 ^ 30) (2 ^ 28) 0
      t.puts [(Reg.FW.STAGE, 8), (Reg.GEN.READY, 1), (Reg.GEN.LEAD, 1), (Reg.FW.T_READY, t.now)] :=
  if_neg (by simp [hs])

/-! ### The reset of the host interface (R451) -/

/-- The registers that a reset of the host interface resets. -/
def State.portRegs (s : State) (down : Bool) : State :=
  let t := s.resetMsix.puts [(Reg.GEN.BAR4_EN, 0), (Reg.GEN.BAR4_BASE, 0), (Reg.GEN.BAR4_JOB, 0),
    (Reg.GEN.MEMBER_VEC_EN, 0), (Reg.GEN.MEMBER_VEC_VEC, 0)]
  let u := (List.range 8).foldl (fun s j => s.puts [(Reg.GEN.HLATCH_EN j, 0), (Reg.GEN.HLATCH_VEC j, 0)]) t
  if down then u.put Reg.GEN.LINK_UP 0 else u

/-- A reset of the host interface stops the rings, drops the reads of entries, ends D3hot, and resets registers. -/
theorem resetPort_eq (s : State) (down : Bool) : ∃ reads, s.resetPort down =
    State.portRegs { s with host := { s.host with rings := s.host.rings.map Ring.stop, reads := reads, d3hot := false } }
      down :=
  ⟨_, rfl⟩

theorem portRegs_part {β : Type} (g : State → β) (hg : ∀ (s : State) f v, g (s.put f v) = g s) (s : State) (down : Bool) :
    g (s.portRegs down) = g s := by
  have hmsix : g s.resetMsix = g s := foldl_part g _ (fun s _ => puts_part g hg s _) _ s
  have hlatches : ∀ t : State, g ((List.range 8).foldl (fun s j => s.puts [(Reg.GEN.HLATCH_EN j, 0), (Reg.GEN.HLATCH_VEC j, 0)])
      t) = g t := foldl_part g _ (fun s _ => puts_part g hg s _) _
  unfold State.portRegs
  cases down
  · rw [if_neg Bool.false_ne_true, hlatches, puts_part g hg, hmsix]
  · rw [if_pos rfl, hg, hlatches, puts_part g hg, hmsix]

theorem resetPort_host (s : State) (down : Bool) : ∃ reads, (s.resetPort down).host =
    { s.host with rings := s.host.rings.map Ring.stop, reads := reads, d3hot := false } := by
  obtain ⟨reads, he⟩ := resetPort_eq s down
  exact ⟨reads, by rw [he, portRegs_part State.host fun _ _ _ => rfl]⟩

theorem resetPort_mem (s : State) (down : Bool) : (s.resetPort down).mem = s.mem := by
  obtain ⟨reads, he⟩ := resetPort_eq s down
  rw [he, portRegs_part State.mem fun _ _ _ => rfl]

theorem resetPort_cores (s : State) (down : Bool) : (s.resetPort down).cores = s.cores := by
  obtain ⟨reads, he⟩ := resetPort_eq s down
  rw [he, portRegs_part State.cores fun _ _ _ => rfl]

/-- A register that is none of HLATCH and LINK_UP keeps its value over the last part of the reset. -/
theorem portRegs_get {s : State} {down : Bool} {f : Fld} (hu : f.key ≠ Reg.GEN.LINK_UP.key)
    (he : ∀ j, f.key ≠ (Reg.GEN.HLATCH_EN j).key) (hv : ∀ j, f.key ≠ (Reg.GEN.HLATCH_VEC j).key) :
    (s.portRegs down).get f = (s.resetMsix.puts [(Reg.GEN.BAR4_EN, 0), (Reg.GEN.BAR4_BASE, 0), (Reg.GEN.BAR4_JOB, 0),
      (Reg.GEN.MEMBER_VEC_EN, 0), (Reg.GEN.MEMBER_VEC_VEC, 0)]).get f := by
  have hlatches (t : State) : State.get ((List.range 8).foldl (fun s j => s.puts [(Reg.GEN.HLATCH_EN j, 0),
      (Reg.GEN.HLATCH_VEC j, 0)]) t) f = t.get f :=
    foldl_part (State.get · f) _ (fun s j => State.get_puts_ne _ _ _ (by simp [he j, hv j])) _ _
  unfold State.portRegs
  cases down
  · rw [if_neg Bool.false_ne_true, hlatches]
  · rw [if_pos rfl, State.get_put_ne _ _ _ _ hu, hlatches]

theorem resetPort_bar4 (s : State) (down : Bool) : (s.resetPort down).get Reg.GEN.BAR4_EN = 0 := by
  obtain ⟨reads, he⟩ := resetPort_eq s down
  rw [he, portRegs_get (by decide) (by simp [Fld.key, Reg.GEN.BAR4_EN, Reg.GEN.HLATCH_EN]; omega)
    (by simp [Fld.key, Reg.GEN.BAR4_EN, Reg.GEN.HLATCH_VEC]; omega), State.puts, List.foldl_cons]
  exact (State.get_puts_ne _ _ _ (by decide)).trans (State.get_put_self _ _ _)

theorem resetPort_linkUp (s : State) : (s.resetPort true).get Reg.GEN.LINK_UP = 0 := by
  obtain ⟨reads, he⟩ := resetPort_eq s true
  rw [he, State.portRegs, if_pos rfl, State.get_put_self, Nat.zero_mod]

theorem resetPort_masked (s : State) (down : Bool) {v : Nat} (hv : v < 256) :
    (s.resetPort down).get (Reg.GEN.MSIX_MASK v) = 1 := by
  obtain ⟨reads, he⟩ := resetPort_eq s down
  rw [he, portRegs_get (by simp [Fld.key, Reg.GEN.MSIX_MASK, Reg.GEN.LINK_UP]; omega)
    (by simp [Fld.key, Reg.GEN.MSIX_MASK, Reg.GEN.HLATCH_EN]; omega)
    (by simp [Fld.key, Reg.GEN.MSIX_MASK, Reg.GEN.HLATCH_VEC]; omega),
    State.get_puts_ne _ _ _ (by simp [Fld.key, Reg.GEN.MSIX_MASK, Reg.GEN.BAR4_EN, Reg.GEN.BAR4_BASE, Reg.GEN.BAR4_JOB,
      Reg.GEN.MEMBER_VEC_EN, Reg.GEN.MEMBER_VEC_VEC]; omega), State.resetMsix]
  refine get_foldl_set (fun s => ?_) (fun s j hj => ?_) (List.mem_range.mpr hv) _
  · show (((_ : State).put (Reg.GEN.MSIX_MASK v) 1).put (Reg.GEN.MSIX_PENDING v) 0).get _ = 1
    rw [State.get_put_ne _ _ _ _ (by simp [Fld.key, Reg.GEN.MSIX_MASK, Reg.GEN.MSIX_PENDING]; omega), State.get_put_self]
    rfl
  · refine State.get_puts_ne _ _ _ ?_
    simp [Fld.key, Reg.GEN.MSIX_MASK, Reg.GEN.MSIX_ADDR, Reg.GEN.MSIX_DATA, Reg.GEN.MSIX_PENDING]
    omega

end

/-! ### A tripped sensor (R521, R522) -/

/-- Out of reset a tripped sensor latches the highest level, notes the lowest sensor, and, from level 2 on, erases the keys and
stops the device. -/
theorem tamper_trips {s : State} {sensors : Nat} (hu : s.phase = .up) (hp : s.sec.powered = true)
    (hh : bitsIn 8 sensors ≠ []) :
    s.tamper sensors =
      let hit := bitsIn 8 sensors
      let level := (hit.map s.alarmLevel).foldl max 0
      let u := ((s.latchAlarm level).inc Reg.SEC.NOTICE_CNT 1).puts [(Reg.SEC.SENSORS, sensors),
        (Reg.SEC.LAST_ALARM_TIME, (s.latchAlarm level).now), (Reg.SEC.LAST_ALARM_LEVEL, level),
        (Reg.SEC.LAST_ALARM_SENSOR, hit.headD 0)]
      if level < 2 then u else u.eraseKeys.raiseFE secSrc 0x13 0x30 (hit.headD 0 + level * 2 ^ 4 + 2 ^ 7) := by
  have he : ¬(bitsIn 8 sensors).isEmpty = true := by simpa using hh
  rw [State.tamper, if_neg (by simp [hp]), if_neg (by simp [hu]), if_neg he]
  exact if_congr Iff.rfl rfl (if_pos hu)

/-! ### The commands of boot -/

section
variable (s : State)

theorem exec_securityReady (katOk romOk idOk : Bool) :
    exec (.securityReady katOk romOk idOk) s = whenLive s fun s => s.securityReady katOk romOk idOk := rfl

theorem exec_railsSet : exec .railsSet s = whenLive s State.setRails := rfl

theorem exec_casementCalibrateBoot (c : CaseIx) (a b : BitVec 16) :
    exec (.casementCalibrateBoot c a b) s = whenLive s fun s => s.calibrateBoot c.val a.toNat b.toNat := rfl

theorem exec_windowsStart : exec .windowsStart s = whenLive s State.startWindows := rfl

theorem exec_mapForm : exec .mapForm s = whenLive s State.formMap := rfl

theorem exec_bootReady : exec .bootReady s = whenLive s State.bootReady := rfl

theorem exec_pcieLinkUp (speed width : BitVec 4) :
    exec (.pcieLinkUp speed width) s = whenLive s fun s =>
      if 1 ≤ speed.toNat ∧ speed.toNat ≤ 7 ∧ (width = 1 ∨ width = 2 ∨ width = 4) then
        s.puts [(Reg.GEN.LINK_UP, 1), (Reg.GEN.LINK_SPEED, speed.toNat), (Reg.GEN.LINK_WIDTH, width.toNat),
          (Reg.FW.LINK_REDUCED, ofBool (decide (speed.toNat < 7 ∨ width.toNat < 4)))]
      else s := rfl

theorem exec_pcieReset (kind : PcieResetKind) :
    exec (.pcieReset kind) s = whenLive s fun s => s.resetPort (kind = .linkDown) := rfl

theorem exec_refLost (ns : Nat) :
    exec (.refLost ns) s = whenLive s fun s =>
      if 1000 < ns ∧ s.get Reg.TIME.REF_LOST = 0 then (s.put Reg.TIME.REF_LOST 1).raiseFE 0x405 0x10 0x2A 0 else s := rfl

theorem exec_tamperTrip (sensors : BitVec 8) :
    exec (.tamperTrip sensors) s = .next ((s.tamper sensors.toNat).keeping s) := rfl

end

/-- Settles O24: out of reset each command is its step, and each step has the conditions of its stage. -/
theorem bootRuns : Obligations.BootRuns := by
  intro ns c aCdbm bCdbm speed width sensors s hu
  refine ⟨fun hr hs hd => ?_, fun hs hf => ?_, fun hc hs hg => ?_, fun h3 h5 => ?_, fun hs => ?_, fun hs => ?_,
    fun h1 h7 hw => ?_, fun kind => ?_, fun hn hl => ?_, fun hp hh => ?_⟩
  · rw [exec_securityReady, whenLive_up hu, securityReady_passed hr hs hd]
    rfl
  · rw [exec_railsSet, whenLive_up hu, setRails_good hs hf]
  · rw [exec_casementCalibrateBoot, whenLive_up hu, calibrateBoot_good hc hs hg]
  · rw [exec_windowsStart, whenLive_up hu, startWindows_starts h3 h5]
  · rw [exec_mapForm, whenLive_up hu, formMap_forms hs]
  · rw [exec_bootReady, whenLive_up hu, bootReady_lays hs]
  · rw [exec_pcieLinkUp, whenLive_up hu, if_pos ⟨h1, h7, hw⟩, State.keeping_puts, State.keeping_self]
  · obtain ⟨reads, hhost⟩ := resetPort_host s (kind = .linkDown)
    refine ⟨(s.resetPort (kind = .linkDown)).keeping s, by rw [exec_pcieReset, whenLive_up hu],
      congrArg HostSt.rings hhost, congrArg HostSt.d3hot hhost, resetPort_mem s _, resetPort_cores s _,
      (congrArg HostSt.out hhost :), resetPort_bar4 s _, ?_, fun v hv => resetPort_masked s _ hv⟩
    intro hk
    rw [State.keeping_get, decide_eq_true hk, resetPort_linkUp]
  · rw [exec_refLost, whenLive_up hu, if_pos ⟨hn, hl⟩]
  · rw [exec_tamperTrip, tamper_trips hu hp hh]

end Sys2Proof.Machine
end

section
/-!
PROOFS. What the power manager does.
-/

namespace Sys2Proof.Machine

section
variable {s : State}

/-! ### Holding and lending (R48 to R51) -/

theorem holdStart_holds {n : Nat} (hl : s.get Reg.PWR.LEND_EN = 1) (hp : s.present n = true)
    (hc : s.get (Reg.PWR.CSTAT_STATE n) = 0) (hs : s.stalled n = true) (hf : s.fe = false) :
    s.holdStart n = ((s.passTo ((s.core n).idleSince.getD s.now + s.get Reg.PWR.HOLD_DWELL * 100)).rampRail n 600).put
      (Reg.PWR.CSTAT_STATE n) 1 :=
  if_pos ⟨hl, hp, hc, hs, by rw [hf]; rfl⟩

theorem holdEnd_ends {n : Nat} (hc : s.get (Reg.PWR.CSTAT_STATE n) = 1) (hs : s.stalled n = false) (hf : s.fe = false) :
    s.holdEnd n = (s.rampRail n s.pwr.base).put (Reg.PWR.CSTAT_STATE n) 0 :=
  if_pos ⟨hc, by rw [hs]; rfl, by rw [hf]; rfl⟩

/-- What is measured keeps the budget (R51). -/
theorem withinBudget_iff {m : Lending} :
    s.withinBudget m = true ↔ m.mean ≤ 1000 * s.dieBudget ∧ m.peak ≤ 1100 * s.dieBudget ∧
      (m.peak ≤ 1000 * s.dieBudget ∨ m.peakNs ≤ 10000) := by
  simp [State.withinBudget, and_assoc]

/-- Rails that are allowed over the base, each fair where there is budget to lend, within the budget, become those of the
computing cores. -/
theorem lend_adjusts {mv : Nat → Nat} {m : Lending}
    (hr : ∀ n ∈ s.computing, s.railOk (s.baseFor (s.computing.map mv)) (mv n) = true)
    (hl : s.canLend = true → ∀ n ∈ s.computing,
      fairShare (m.cores.toList.getD n ⟨0, 0, 0, 0⟩) (m.freed / s.computing.length) (mv n) = true)
    (hb : s.withinBudget m = true) (hf : s.fe = false) :
    s.lend mv m = s.computing.foldl (fun (t : State) n => t.rampRail n (mv n))
      { s with pwr := { s.pwr with base := s.baseFor (s.computing.map mv) } } := by
  refine if_pos ⟨List.all_eq_true.mpr fun n hn => ?_, hb, by rw [hf]; rfl⟩
  cases hc : s.canLend
  · simp [hr n hn]
  · rw [hr n hn, hl hc n hn]
    rfl

/-! ### The FE state (R428) -/

section
variable (hf : s.fe = true)
include hf

theorem holdStart_fe (n : Nat) : s.holdStart n = s := if_neg (by simp [hf])

theorem holdEnd_fe (n : Nat) : s.holdEnd n = s := if_neg (by simp [hf])

theorem lend_fe (mv : Nat → Nat) (m : Lending) : s.lend mv m = s := if_neg (by simp [hf])

theorem setRails_fe : s.setRails = s := if_pos (.inr hf)

end

/-! ### The ceiling (R53) -/

/-- What a sensor reads changes its own register, or the power manager's note of the uncore. -/
theorem putTj_part {β : Type} (g : State → β) (sensor tj : Nat)
    (hu : g { s with pwr := { s.pwr with uncoreTj := tj } } = g s) (hc : g (s.put (Reg.PWR.CSTAT_TJ sensor) tj) = g s) :
    g (s.putTj sensor tj) = g s := by
  unfold State.putTj
  split
  · exact hu
  · split
    · exact hc
    · rfl

theorem putTj_keeping (sensor tj : Nat) : (s.putTj sensor tj).keeping s = s.putTj sensor tj :=
  State.keeping_eq _ _ (putTj_part State.phase sensor tj rfl rfl) (putTj_part State.pending sensor tj rfl rfl)

theorem putTj_ceiling (sensor tj : Nat) : (s.putTj sensor tj).pwr.ceiling = s.pwr.ceiling :=
  putTj_part (fun t => t.pwr.ceiling) sensor tj rfl rfl

theorem putTj_fe (sensor tj : Nat) : (s.putTj sensor tj).fe = s.fe := by
  refine putTj_part State.fe sensor tj rfl ?_
  rw [State.fe, State.get_put_ne _ _ _ _ (by simp [Fld.key, Reg.ERR.STATUS_FE, Reg.PWR.CSTAT_TJ]; omega), State.fe]

/-- The reading at which the ceiling acts, in quarters of a degree (R53). -/
def State.tjTop (s : State) : Int := 4 * ((min 105 (s.get Reg.PWR.TJ_CEIL) : Nat) : Int)

/-- The reading to which a sensor falls before it governs no more (R53). -/
def State.tjLow (s : State) : Int := s.tjTop - 4 * ((max 1 (s.get Reg.PWR.HYST) : Nat) : Int)

/-- A sensor begins to govern, or goes on to: it is noted when, and its rails step down. -/
def State.stepDown (s : State) (sensor : Nat) : State :=
  let v : State := { s with pwr := { s.pwr with ceiling := assocPut sensor s.now s.pwr.ceiling } }
  (v.governed sensor).foldl State.lowerRail v

/-- A sensor governs no more: the rails that none limits any longer are released. -/
def State.stopGoverning (s : State) (sensor : Nat) : State :=
  let v : State := { s with pwr := { s.pwr with ceiling := s.pwr.ceiling.filter fun x => x.1 ≠ sensor } }
  (v.governed sensor).foldl State.releaseRail v

theorem ceilingStep_fe {sensor tj : Nat} (hf : s.fe = true) : s.ceilingStep sensor tj = s.putTj sensor tj :=
  if_pos ((putTj_fe sensor tj).trans hf)

section
variable {sensor tj : Nat} (hf : s.fe = false)
include hf

/-- Out of the FE state the ceiling acts by whether the sensor governs already. -/
theorem ceilingStep_eq : s.ceilingStep sensor tj =
    match s.pwr.ceiling.find? (fun e => e.1 = sensor) with
    | some e =>
      if signed 16 tj ≤ s.tjLow then (s.putTj sensor tj).stopGoverning sensor
      else ((s.putTj sensor tj).passTo (e.2 + 10000)).stepDown sensor
    | none => if s.tjTop ≤ signed 16 tj then (s.putTj sensor tj).stepDown sensor else s.putTj sensor tj := by
  have hn : ¬(s.putTj sensor tj).fe = true := by rw [putTj_fe, hf]; exact Bool.false_ne_true
  refine (if_neg hn).trans ?_
  rw [← putTj_ceiling (s := s) sensor tj]
  rfl

theorem ceilingStep_cool (hc : s.pwr.ceiling.find? (fun e => e.1 = sensor) = none) (ht : signed 16 tj < s.tjTop) :
    s.ceilingStep sensor tj = s.putTj sensor tj := by
  rw [ceilingStep_eq hf, hc]
  exact if_neg (not_le.mpr ht)

theorem ceilingStep_reached (hc : s.pwr.ceiling.find? (fun e => e.1 = sensor) = none) (ht : s.tjTop ≤ signed 16 tj) :
    s.ceilingStep sensor tj = (s.putTj sensor tj).stepDown sensor := by
  rw [ceilingStep_eq hf, hc]
  exact if_pos ht

variable {e : Nat × Nat} (hc : s.pwr.ceiling.find? (fun e => e.1 = sensor) = some e)
include hc

theorem ceilingStep_fallen (ht : signed 16 tj ≤ s.tjLow) :
    s.ceilingStep sensor tj = (s.putTj sensor tj).stopGoverning sensor := by
  rw [ceilingStep_eq hf, hc]
  exact if_pos ht

theorem ceilingStep_again (ht : s.tjLow < signed 16 tj) :
    s.ceilingStep sensor tj = ((s.putTj sensor tj).passTo (e.2 + 10000)).stepDown sensor := by
  rw [ceilingStep_eq hf, hc]
  exact if_neg (not_le.mpr ht)

end
end

/-! ### The commands of the power manager -/

section
variable (s : State)

theorem exec_holdStart (c : CoreIx) : exec (.holdStart c) s = whenLive s fun s => s.holdStart c.val := rfl

theorem exec_holdEnd (c : CoreIx) : exec (.holdEnd c) s = whenLive s fun s => s.holdEnd c.val := rfl

theorem exec_lendingAdjust (m : Lending) :
    exec (.lendingAdjust m) s = whenLive s fun s => s.lend (fun n => (m.railMv.toList.getD n 0).toNat) m := rfl

theorem exec_overtemp (sensor : Fin 9) (tj : BitVec 16) :
    exec (.overtemp sensor tj) s = whenLive s fun s =>
      if 460 ≤ signed 16 tj.toNat ∧ (sensor.val = 8 ∨ s.present sensor.val) then (s.putTj sensor.val tj.toNat).tooHot
      else s := rfl

theorem exec_casementOvertemp (k : CaseIx) (tj : BitVec 16) :
    exec (.casementOvertemp k tj) s = whenLive s fun s =>
      if 400 ≤ signed 16 tj.toNat then (s.put (Reg.CASE.TJ k.val) tj.toNat).tooHot else s := rfl

theorem exec_beatRateSample (c : CoreIx) (mhz : BitVec 16) :
    exec (.beatRateSample c mhz) s = whenLive s fun s =>
      if s.present c.val then s.put (Reg.PWR.CSTAT_BEAT_MHZ c.val) mhz.toNat else s := rfl

/-- A sensor that the device has takes its step. -/
theorem exec_thermalCeiling {s : State} {sensor : Fin 9} (hu : s.phase = .up)
    (hp : sensor.val = 8 ∨ s.present sensor.val = true) (tj : BitVec 16) :
    exec (.thermalCeiling sensor tj) s = .next ((s.ceilingStep sensor.val tj.toNat).keeping s) := by
  show whenLive s _ = _
  rw [whenLive_up hu, if_pos hp]

end

/-- Settles O25: each command is its operation out of reset, and each operation has the conditions of its rule. -/
theorem powerManagerActs : Obligations.PowerManagerActs := by
  intro c k sensor tj mhz m s hu
  refine ⟨fun hl hp hc hs hf => ?_, fun hc hs hf => ?_, fun hr hl hmean hpeak hns hf => ?_,
    fun hf => ⟨?_, ?_, ?_, ?_, fun hp => ?_⟩, fun hp hf hn => ⟨fun ht => ?_, fun ht => ?_⟩,
    fun e hp hf he => ⟨fun ht => ?_, fun ht => ?_⟩, fun ht hp => ?_, fun ht => ?_, fun hp => ?_⟩
  · rw [exec_holdStart, whenLive_up hu, holdStart_holds hl hp hc hs hf]
  · rw [exec_holdEnd, whenLive_up hu, holdEnd_ends hc hs hf]
    rfl
  · rw [exec_lendingAdjust, whenLive_up hu, lend_adjusts hr hl (withinBudget_iff.mpr ⟨hmean, hpeak, hns⟩) hf]
  · rw [exec_holdStart, whenLive_up hu, holdStart_fe hf, State.keeping_self]
  · rw [exec_holdEnd, whenLive_up hu, holdEnd_fe hf, State.keeping_self]
  · rw [exec_lendingAdjust, whenLive_up hu, lend_fe hf, State.keeping_self]
  · rw [exec_railsSet, whenLive_up hu, setRails_fe hf, State.keeping_self]
  · rw [exec_thermalCeiling hu hp, ceilingStep_fe hf, putTj_keeping]
  · rw [exec_thermalCeiling hu hp, ceilingStep_cool hf hn ht, putTj_keeping]
  · rw [exec_thermalCeiling hu hp, ceilingStep_reached hf hn ht]
    rfl
  · rw [exec_thermalCeiling hu hp, ceilingStep_fallen hf he ht]
    rfl
  · rw [exec_thermalCeiling hu hp, ceilingStep_again hf he ht]
    rfl
  · rw [exec_overtemp, whenLive_up hu, if_pos ⟨ht, hp⟩]
  · rw [exec_casementOvertemp, whenLive_up hu, if_pos ht]
  · rw [exec_beatRateSample, whenLive_up hu, if_pos hp]
    rfl

end Sys2Proof.Machine
end

section
/-!
PROOFS. What a door's links, the feeds of the casements and the time exchange do.
-/

namespace Sys2Proof.Machine

section
variable {s : State}

/-! ### The identity of links (R322) -/

/-- What a HELLO from a link says is noted of it. -/
def State.helloNoted (s : State) (d k peer peerDoor peerPair serial pairs : Nat) : State :=
  let j := doorLink d k
  let full := if d = 15 then 1 else 3
  ((s.heardDoor d k).inc (Reg.DOOR.RX_BYTES d) 96).puts [(Reg.DOOR.PEER d j, peer), (Reg.DOOR.PEER_DOOR d j, peerDoor),
    (Reg.DOOR.PEER_PAIR d j, if d = 15 then peerPair else 0), (Reg.DOOR.PEER_SERIAL d, serial),
    (Reg.DOOR.PAIRS d j, min pairs full), (Reg.DOOR.DEGRADED d j, ofBool (decide (pairs < full)))]

/-- The peer that a HELLO names is the one that the cabling gives, and not this device. -/
abbrev State.rightPeer (s : State) (d k peer peerDoor peerPair : Nat) : Prop :=
  peer = (s.peerOf d k).1 ∧ peerDoor = (s.peerOf d k).2.1 ∧ (d ≠ 15 ∨ peerPair = (s.peerOf d k).2.2) ∧ peer ≠ s.dev

section
variable {d k peer peerDoor peerPair : Nat} (serial pairs : Nat)
  (ht : s.get (Reg.DOOR.LINK_STATE d (doorLink d k)) = 1 ∨ s.get (Reg.DOOR.LINK_STATE d (doorLink d k)) = 2)
  (hl : s.lit d = true)
include ht hl

/-- The HELLO of a trained link is noted, and its peer is judged. -/
theorem gotHello_trained : s.gotHello d k peer peerDoor peerPair serial pairs =
    let u := s.helloNoted d k peer peerDoor peerPair serial pairs
    if u.rightPeer d k peer peerDoor peerPair then u.put (Reg.DOOR.LINK_STATE d (doorLink d k)) 3
    else (u.put (Reg.DOOR.LINK_STATE d (doorLink d k)) 5).ce (0x200 + d) 9 0x50 0 := by
  refine if_neg ?_
  rintro (⟨h1, h2⟩ | h)
  · exact ht.elim h1 h2
  · simp [hl] at h

theorem gotHello_right (hr : (s.helloNoted d k peer peerDoor peerPair serial pairs).rightPeer d k peer peerDoor peerPair) :
    s.gotHello d k peer peerDoor peerPair serial pairs =
      (s.helloNoted d k peer peerDoor peerPair serial pairs).put (Reg.DOOR.LINK_STATE d (doorLink d k)) 3 :=
  (gotHello_trained serial pairs ht hl).trans (if_pos hr)

theorem gotHello_wrong (hr : ¬(s.helloNoted d k peer peerDoor peerPair serial pairs).rightPeer d k peer peerDoor peerPair) :
    s.gotHello d k peer peerDoor peerPair serial pairs =
      ((s.helloNoted d k peer peerDoor peerPair serial pairs).put (Reg.DOOR.LINK_STATE d (doorLink d k)) 5).ce
        (0x200 + d) 9 0x50 0 :=
  (gotHello_trained serial pairs ht hl).trans (if_neg hr)

end

/-! ### The feeds of a casement (R327, R328) -/

/-- A field of one bit reads as the condition that was put. -/
theorem get_put_ofBool (s : State) {f : Fld} (b : Bool) (h : f.w = 1) : (s.put f (ofBool b)).get f = ofBool b := by
  rw [State.get_put_self, h]
  cases b <;> rfl

theorem ofBool_beq_one (b : Bool) : (ofBool b == 1) = b := by cases b <;> rfl

/-- The powers of a casement's feeds, and whether each is good, as a check reads them. -/
def State.feedsRead (s : State) (c a b : Nat) : State :=
  s.puts [(Reg.CASE.A_CDBM c, a), (Reg.CASE.B_CDBM c, b), (Reg.CASE.A_OK c, ofBool (s.feedGood c a)),
    (Reg.CASE.B_OK c, ofBool (s.feedGood c b))]

section
variable {c a b : Nat}

theorem feedsRead_aOk : (s.feedsRead c a b).get (Reg.CASE.A_OK c) = ofBool (s.feedGood c a) :=
  (State.get_put_ne _ _ _ _ (by simp [Fld.key, Reg.CASE.A_OK, Reg.CASE.B_OK])).trans (get_put_ofBool _ _ rfl)

theorem feedsRead_bOk : (s.feedsRead c a b).get (Reg.CASE.B_OK c) = ofBool (s.feedGood c b) := get_put_ofBool _ _ rfl

theorem feedsRead_active : (s.feedsRead c a b).get (Reg.CASE.ACTIVE c) = s.get (Reg.CASE.ACTIVE c) :=
  State.get_puts_ne _ _ _ (by simp [Fld.key, Reg.CASE.ACTIVE, Reg.CASE.A_CDBM, Reg.CASE.B_CDBM, Reg.CASE.A_OK, Reg.CASE.B_OK])

theorem feedsRead_lit : (s.feedsRead c a b).lit c = (s.feedGood c a || s.feedGood c b) := by
  rw [State.lit, feedsRead_aOk, feedsRead_bOk, ofBool_beq_one, ofBool_beq_one]

theorem feedsRead_activeGood : (s.feedsRead c a b).activeGood c =
    if s.get (Reg.CASE.ACTIVE c) = 1 then s.feedGood c b else s.feedGood c a := by
  rw [State.activeGood, feedsRead_active]
  split
  · rw [feedsRead_bOk, ofBool_beq_one]
  · rw [feedsRead_aOk, ofBool_beq_one]

/-- The check of a casement, said of the powers that it reads. -/
theorem checkFeeds_eq : s.checkFeeds c a b =
    if !(s.feedGood c a || s.feedGood c b) then
      if s.lit c then (s.feedsRead c a b).feedLost c else s.feedsRead c a b
    else if s.activeGood c ∧ !(if s.get (Reg.CASE.ACTIVE c) = 1 then s.feedGood c b else s.feedGood c a) then
      (((s.feedsRead c a b).put (Reg.CASE.ACTIVE c) (1 - s.get (Reg.CASE.ACTIVE c))).inc
        (Reg.CASE.FEED_SWITCH_CNT c) 1).ce (0x300 + c) 0x0A 0x57 0
    else s.feedsRead c a b := by
  rw [← feedsRead_lit, ← feedsRead_activeGood, ← feedsRead_active (s := s) (a := a) (b := b)]
  rfl

section
variable (hg : s.feedGood c a = true ∨ s.feedGood c b = true)
include hg

/-- Some feed is good: the active one is switched where it is good no longer. -/
theorem checkFeeds_light : s.checkFeeds c a b =
    if s.activeGood c ∧ !(if s.get (Reg.CASE.ACTIVE c) = 1 then s.feedGood c b else s.feedGood c a) then
      (((s.feedsRead c a b).put (Reg.CASE.ACTIVE c) (1 - s.get (Reg.CASE.ACTIVE c))).inc
        (Reg.CASE.FEED_SWITCH_CNT c) 1).ce (0x300 + c) 0x0A 0x57 0
    else s.feedsRead c a b := by
  rw [checkFeeds_eq]
  exact if_neg (by rcases hg with h | h <;> simp [h])

theorem checkFeeds_stays
    (hs : s.activeGood c = false ∨ (if s.get (Reg.CASE.ACTIVE c) = 1 then s.feedGood c b else s.feedGood c a) = true) :
    s.checkFeeds c a b = s.feedsRead c a b := by
  rw [checkFeeds_light hg]
  refine if_neg fun ⟨hw, hn⟩ => ?_
  rcases hs with hs | hs
  · exact Bool.false_ne_true (hs.symm.trans hw)
  · rw [hs] at hn
    exact Bool.false_ne_true hn

theorem checkFeeds_switches (hw : s.activeGood c = true)
    (hn : (if s.get (Reg.CASE.ACTIVE c) = 1 then s.feedGood c b else s.feedGood c a) = false) :
    s.checkFeeds c a b =
      (((s.feedsRead c a b).put (Reg.CASE.ACTIVE c) (1 - s.get (Reg.CASE.ACTIVE c))).inc
        (Reg.CASE.FEED_SWITCH_CNT c) 1).ce (0x300 + c) 0x0A 0x57 0 := by
  rw [checkFeeds_light hg]
  exact if_pos ⟨hw, by rw [hn]; rfl⟩

end

section
variable (ha : s.feedGood c a = false) (hb : s.feedGood c b = false)
include ha hb

/-- No feed is good: the light of a lit casement is lost. -/
theorem checkFeeds_dark : s.checkFeeds c a b =
    if s.lit c then (s.feedsRead c a b).feedLost c else s.feedsRead c a b := by
  rw [checkFeeds_eq]
  exact if_pos (by rw [ha, hb]; rfl)

theorem checkFeeds_lost (hl : s.lit c = true) : s.checkFeeds c a b = (s.feedsRead c a b).feedLost c :=
  (checkFeeds_dark ha hb).trans (if_pos hl)

theorem checkFeeds_darkStill (hl : s.lit c = false) : s.checkFeeds c a b = s.feedsRead c a b :=
  (checkFeeds_dark ha hb).trans (if_neg (Bool.eq_false_iff.mp hl))

end
end

/-- A calibration that is asked for waits while the spare pair is in use (R329). -/
theorem askCalibration_eq (c : Nat) : s.askCalibration c =
    s.put (Reg.CASE.CAL_STATE c) (if s.get (Reg.CASE.SPARE_STATE c) = 1 then 2 else 1) :=
  (apply_ite (s.put (Reg.CASE.CAL_STATE c)) _ _ _).symm

theorem selectFeed_feedA {c : Nat} (h : s.get (Reg.CASE.A_OK c) = 1) : s.selectFeed c 1 = s.put (Reg.CASE.ACTIVE c) 0 :=
  if_pos ⟨rfl, h⟩

theorem selectFeed_feedB {c : Nat} (h : s.get (Reg.CASE.B_OK c) = 1) : s.selectFeed c 2 = s.put (Reg.CASE.ACTIVE c) 1 :=
  (if_neg (by simp)).trans (if_pos ⟨rfl, h⟩)

/-! ### The time exchange (R36, R38, R323) -/

/-- A follower whose exchange gives it an offset slews by that offset. -/
def State.offsetTaken (s : State) (off : Int) : State :=
  ({ s.askTime with doors := { s.askTime.doors with slewPs := off } } : State).puts
    [(Reg.TIME.OFFSET_PS, unsigned 32 off), (Reg.TIME.SLEWING, ofBool (off != 0))]

section
variable (hm : s.isMember = true) (t1 t2 t3 t4 : Nat)
include hm

theorem exchangeTime_takes (ht : (s.slewed.route s.slewed.timeMaster).isSome = true)
    (hl : (s.slewed.route s.slewed.lead).isSome = true) :
    s.exchangeTime t1 t2 t3 t4 true =
      let off := offsetOfStamps t1 t2 t3 t4
      let w := s.slewed.offsetTaken off
      if 3000 < off.natAbs then w.loseAlignment else w.put Reg.TIME.ALIGNED 1 := by
  have hpath : s.slewed.timeless = false := by
    rw [State.timeless, Option.isNone_eq_false_iff.mpr ht, Option.isNone_eq_false_iff.mpr hl]
    rfl
  rw [State.exchangeTime, if_neg (by simp [hm]), if_neg (by simp [hpath])]
  rfl

theorem exchangeTime_alone {up : Bool} (hp : up = false ∨ (s.slewed.route s.slewed.timeMaster).isNone = true ∨
      (s.slewed.route s.slewed.lead).isNone = true) : s.exchangeTime t1 t2 t3 t4 up = s.slewed.ownTime := by
  have hno : (!up) = true ∨ s.slewed.timeless = true := by
    rw [State.timeless, Bool.or_eq_true]
    exact hp.imp_left fun h => by rw [h]; rfl
  rw [State.exchangeTime, if_neg (by simp [hm]), if_pos hno]

end
end

/-! ### The commands of links, feeds and time -/

section
variable (s : State) (d : DoorIx) (k : Fin 3) (c : CaseIx)

theorem exec_hello (peer : BitVec 6) (pd : BitVec 4) (pp : BitVec 2) (serial : BitVec 64) (ver : BitVec 8) (pairs : BitVec 3) :
    exec (.hello d k peer pd pp serial ver pairs) s =
      whenLive s fun s => s.gotHello d.val k.val peer.toNat pd.toNat pp.toNat serial.toNat pairs.toNat := rfl

theorem exec_doorDown (cause : DownCause) :
    exec (.doorDown d k cause) s = whenLive s fun s =>
      if s.linkUsable d.val k.val ∧ s.linkFailed d.val k.val cause then s.linkGoesDown d.val k.val else s := rfl

theorem exec_feedSwitch (a b : BitVec 16) :
    exec (.feedSwitch c a b) s = whenLive s fun s => s.checkFeeds c.val a.toNat b.toNat := rfl

theorem exec_calReq (sill : Bool) :
    exec (.calReq c sill) s = whenBar s sill fun s =>
      if sill then s.askCalibration c.val else s.hostRefused (caseBase c.val + 0x20) 4 := rfl

theorem exec_selReq (sel : BitVec 2) (sill : Bool) :
    exec (.selReq c sel sill) s = whenBar s sill fun s =>
      if sill then s.selectFeed c.val sel.toNat else if sel = 0 then s
      else s.hostRefused (caseBase c.val + 8) (sel.toNat * 2 ^ 16) := rfl

theorem exec_timeExchange (t1 t2 t3 t4 : BitVec 64) (up : Bool) :
    exec (.timeExchange t1 t2 t3 t4 up) s =
      whenLive s fun s => s.exchangeTime t1.toNat t2.toNat t3.toNat t4.toNat up := rfl

end

/-- Settles O34: each command is its operation, and each operation has the conditions of its rule. -/
theorem linksFeedsAndTimeAct : Obligations.LinksFeedsAndTimeAct := by
  intro d k c peer pd pp serial t1 t2 t3 t4 ver pairs a b s hu
  refine ⟨fun ht hl => ⟨fun hr => ?_, fun hr => ?_⟩, fun cause hlu hlf => ?_,
    ⟨fun hg hs => ?_, fun hg hw hn => ?_, fun ha hb hl => ?_, fun ha hb hl => ?_⟩, ?_, fun hd => ?_, fun ha => ?_,
    fun hb => ?_, fun hd sel hs => ?_, fun hm => ⟨fun ht hl => ?_, fun up hp => ?_⟩⟩
  · rw [exec_hello, whenLive_up hu, gotHello_right _ _ ht hl hr]
    rfl
  · rw [exec_hello, whenLive_up hu, gotHello_wrong _ _ ht hl hr]
    rfl
  · rw [exec_doorDown, whenLive_up hu, if_pos ⟨hlu, hlf⟩]
  · rw [exec_feedSwitch, whenLive_up hu, checkFeeds_stays hg hs]
    rfl
  · rw [exec_feedSwitch, whenLive_up hu, checkFeeds_switches hg hw hn]
    rfl
  · rw [exec_feedSwitch, whenLive_up hu, checkFeeds_lost ha hb hl]
    rfl
  · rw [exec_feedSwitch, whenLive_up hu, checkFeeds_darkStill ha hb hl]
    rfl
  · rw [exec_calReq, whenBar_open hu (.inr rfl), if_pos rfl, askCalibration_eq]
    rfl
  · rw [exec_calReq, whenBar_open hu (.inl hd), if_neg Bool.false_ne_true]
  · rw [exec_selReq, whenBar_open hu (.inr rfl), if_pos rfl]
    exact congrArg (fun t => Host.Outcome.next (State.keeping t s)) (selectFeed_feedA ha)
  · rw [exec_selReq, whenBar_open hu (.inr rfl), if_pos rfl]
    exact congrArg (fun t => Host.Outcome.next (State.keeping t s)) (selectFeed_feedB hb)
  · rw [exec_selReq, whenBar_open hu (.inl hd), if_neg Bool.false_ne_true, if_neg hs]
  · rw [exec_timeExchange, whenLive_up hu, exchangeTime_takes hm _ _ _ _ ht hl]
    rfl
  · rw [exec_timeExchange, whenLive_up hu, exchangeTime_alone hm _ _ _ _ hp]
    rfl

end Sys2Proof.Machine
end

section
/-!
PROOFS. What the commands of Sill firmware that configure units do.
-/

namespace Sys2Proof.Machine

section
variable {s u : State} {r : Req}

/-! ### Commands that read an image (R475) -/

/-- A command whose parameters are an image answers by it, or with the status with which the read of it failed. -/
def afterRead (f : State → Bytes → State × Answer) : State × (Nat ⊕ Bytes) → State × Answer
  | (x, .inl st) => (x, just st)
  | (x, .inr b) => f x b

theorem afterRead_failed (f : State → Bytes → State × Answer) {p : State × (Nat ⊕ Bytes)} {st : Nat} (hp : p.2 = .inl st) :
    afterRead f p = (p.1, just st) := by
  obtain ⟨x, y⟩ := p
  obtain rfl : y = _ := hp
  rfl

theorem afterRead_done (f : State → Bytes → State × Answer) {p : State × (Nat ⊕ Bytes)} {b : Bytes} (hp : p.2 = .inr b) :
    afterRead f p = f p.1 b := by
  obtain ⟨x, y⟩ := p
  obtain rfl : y = _ := hp
  rfl

/-! ### PLACEMENT (R332, R493) -/

theorem exec_placement {va : BitVec 64} {tray : BitVec 8} (h : s.serves r (.tray tray.toNat) u
      (fun d => mkEntry 0x0117 r d [(16, 8, va.toNat), (24, 1, tray.toNat)])) :
    exec (.placement r va tray) s = .next ((State.answered r (u.doPlacement r va.toNat)).keeping s) :=
  serve_of_serves h false (State.doPlacement r va.toNat)

/-- What PLACEMENT answers once its image has been read. -/
def State.placed (x : State) (b : Bytes) : State × Answer :=
  if !x.placementOk b then (x, just stBADPARAM)
  else if x.trayBatch then (x.draw, just stBUSY)
  else (((List.range 64).foldl (fun y e => y.setReg (0x390100 + 8 * e) (word b e)) x.draw).setReg 0x390000 (word b 64),
    just stSUCCESS)

theorem doPlacement_eq (va : Nat) : u.doPlacement r va = afterRead State.placed (u.readParam r va 520) := by
  rw [State.doPlacement]
  rcases u.readParam r va 520 with ⟨x, st | b⟩ <;> rfl

section
variable {x : State} {b : Bytes}

theorem placed_bad (ho : x.placementOk b = false) : x.placed b = (x, just stBADPARAM) := if_pos (by simp [ho])

theorem placed_busy (ho : x.placementOk b = true) (ht : x.trayBatch = true) : x.placed b = (x.draw, just stBUSY) :=
  (if_neg (by simp [ho])).trans (if_pos ht)

theorem placed_good (ho : x.placementOk b = true) (ht : x.trayBatch = false) :
    x.placed b = (((List.range 64).foldl (fun y e => y.setReg (0x390100 + 8 * e) (word b e)) x.draw).setReg 0x390000
      (word b 64), just stSUCCESS) :=
  (if_neg (by simp [ho])).trans (if_neg (by simp [ht]))

/-- A batch of this device is one of its tray. -/
theorem trayBatch_of_own (hb : x.batches ≠ []) : x.trayBatch = true := by simp [State.trayBatch, hb]

/-- A device alone in its tray knows of its own batches only. -/
theorem trayBatch_alone (hl : x.trayPositions.length ≤ 1) (hb : x.batches = []) : x.trayBatch = false := by
  simp [State.trayBatch, hb, Nat.not_lt.mpr hl]

end

/-! ### REDUCE_CONFIG (R375) -/

theorem exec_reduceConfig {va : BitVec 64} (h : s.serves r .all u (fun d => mkEntry 0x0118 r d [(16, 8, va.toNat)])) :
    exec (.reduceConfig r va) s = .next ((State.answered r (u.doReduceConfig r va.toNat)).keeping s) :=
  serve_of_serves h false (State.doReduceConfig r va.toNat)

/-- What REDUCE_CONFIG answers once its image has been read. -/
def State.reduceConfigured (x : State) (b : Bytes) : State × Answer :=
  if x.get Reg.AGATE.STEP_STATE ≠ 0 then (x, just stBUSY)
  else if (List.range 1024).any fun k => !bucketOk (word b (1 + 4 * k)) then (x, just stBADPARAM)
  else ((List.range 4096).foldl (fun y k => y.setReg (0x388000 + 8 * k) (word b (1 + k))) (x.setReg 0x380000 (word b 0)),
    just stSUCCESS)

theorem doReduceConfig_eq (va : Nat) :
    u.doReduceConfig r va = afterRead State.reduceConfigured (u.readParam r va 32776) := by
  rw [State.doReduceConfig]
  rcases u.readParam r va 32776 with ⟨x, st | b⟩ <;> rfl

section
variable {x : State} {b : Bytes}

theorem reduceConfigured_busy (hs : x.get Reg.AGATE.STEP_STATE ≠ 0) : x.reduceConfigured b = (x, just stBUSY) := if_pos hs

variable (hs : x.get Reg.AGATE.STEP_STATE = 0)
include hs

theorem reduceConfigured_bad (hb : ∃ k < 1024, bucketOk (word b (1 + 4 * k)) = false) :
    x.reduceConfigured b = (x, just stBADPARAM) :=
  (if_neg (not_not.mpr hs)).trans (if_pos (by simpa using hb))

theorem reduceConfigured_good (hb : ∀ k < 1024, bucketOk (word b (1 + 4 * k)) = true) :
    x.reduceConfigured b = ((List.range 4096).foldl (fun y k => y.setReg (0x388000 + 8 * k) (word b (1 + k)))
      (x.setReg 0x380000 (word b 0)), just stSUCCESS) :=
  (if_neg (not_not.mpr hs)).trans (if_neg (by simpa using hb))

end

/-! ### REDUCE_START, REDUCE_STOP and STEP_REPLAY (R376, R397, R398, R496) -/

theorem exec_reduceStart {step : BitVec 16} (h : s.serves r .all u (fun d => mkEntry 0x0119 r d [(16, 2, step.toNat)])) :
    exec (.reduceStart r step) s = .next ((State.answered r (u.doReduceStart step.toNat)).keeping s) :=
  serve_of_serves h false (State.doReduceStart step.toNat)

theorem doReduceStart_opens {step : Nat} (hs : u.get Reg.AGATE.STEP_STATE = 0) (he : u.get Reg.AGATE.CTL_EN ≠ 0) :
    u.doReduceStart step = (u.openRun step 0 false, just stSUCCESS) :=
  if_neg (by simp [hs, he])

theorem doReduceStart_busy {step : Nat} (hb : u.get Reg.AGATE.STEP_STATE ≠ 0 ∨ u.get Reg.AGATE.CTL_EN = 0) :
    u.doReduceStart step = (u, just stBUSY) :=
  if_pos hb

theorem exec_reduceStop (h : s.serves r .all u (fun d => mkEntry 0x011A r d [])) :
    exec (.reduceStop r) s = .next ((State.answered r u.doReduceStop).keeping s) :=
  serve_of_serves h false State.doReduceStop

theorem exec_stepReplay {step : BitVec 16} (h : s.serves r .all u (fun d => mkEntry 0x0204 r d [(16, 2, step.toNat)])) :
    exec (.stepReplay r step) s = .next ((State.answered r (u.doStepReplay r step.toNat)).keeping s) :=
  serve_of_serves h false (State.doStepReplay r step.toNat)

/-- A stream of a job runs or has instructions in its window, or Agate is open. -/
def State.jobAtWork (u : State) (job : Nat) : Bool :=
  ((u.coresOf job).any fun n => u.streamState n == 1 || !(u.core n).window.isEmpty) || u.agateOpen

theorem jobAtWork_iff {job : Nat} : u.jobAtWork job = true ↔
    (∃ n ∈ u.coresOf job, u.streamState n = 1 ∨ (u.core n).window ≠ []) ∨ u.agateOpen = true := by
  simp [State.jobAtWork]

section
variable {step : Nat}

theorem doStepReplay_noJob (hj : r.job = 0) : u.doStepReplay r step = (u, just stBADPARAM) :=
  if_pos (by simp [jobNamed, hj])

theorem doStepReplay_busy (hj : r.job ≠ 0) (hb : u.jobAtWork r.job.toNat = true) :
    u.doStepReplay r step = (u, just stBUSY) :=
  (if_neg (by simpa [jobNamed] using hj)).trans (if_pos hb)

theorem doStepReplay_opens (hj : r.job ≠ 0) (hb : ¬u.jobAtWork r.job.toNat = true) :
    u.doStepReplay r step = (u.openRun step (u.runNow + 1) true, just stSUCCESS) :=
  (if_neg (by simpa [jobNamed] using hj)).trans (if_neg hb)

end

/-! ### BUDGET, MCAST_SET and REG_WRITE (R30, R304, R498) -/

theorem exec_budget (h : s.serves r .target u) (dieW : BitVec 16) (tj hyst : BitVec 8) (dwell : BitVec 16) (lend : Bool)
    (uncore : BitVec 16) : exec (.budget r dieW tj hyst dwell lend uncore) s = .next ((State.answered r
      (u.doBudget dieW.toNat tj.toNat hyst.toNat dwell.toNat lend uncore.toNat)).keeping s) :=
  serve_of_serves (serves_entry h (.inl rfl) _) false
    (State.doBudget dieW.toNat tj.toNat hyst.toNat dwell.toNat lend uncore.toNat)

/-- The registers that BUDGET writes. -/
def State.budgeted (u : State) (dieW tj hyst dwell : Nat) (lend : Bool) : State :=
  u.puts [(Reg.PWR.DIE_W, dieW), (Reg.PWR.TJ_CEIL, tj), (Reg.PWR.HYST, hyst), (Reg.PWR.HOLD_DWELL, dwell),
    (Reg.PWR.LEND_EN, ofBool lend)]

section
variable (dieW tj hyst dwell : Nat) (lend : Bool) {uncore : Nat}

theorem doBudget_keepsUncore (hz : uncore = 0) :
    u.doBudget dieW tj hyst dwell lend uncore = (u.budgeted dieW tj hyst dwell lend, just stSUCCESS) :=
  congrArg (·, just stSUCCESS) (if_pos hz)

theorem doBudget_setsUncore (hz : uncore ≠ 0) :
    u.doBudget dieW tj hyst dwell lend uncore =
      ((u.budgeted dieW tj hyst dwell lend).setUncore uncore, just stSUCCESS) :=
  congrArg (·, just stSUCCESS) (if_neg hz)

end

theorem exec_mcastSet (h : s.serves r .target u) (g : BitVec 8) (valid : Bool) (targets : BitVec 64) :
    exec (.mcastSet r g valid targets) s =
      .next ((State.answered r (u.doMcastSet r g.toNat valid targets.toNat)).keeping s) :=
  serve_of_serves (serves_entry h (.inl rfl) _) false (State.doMcastSet r g.toNat valid targets.toNat)

section
variable {g targets : Nat} (valid : Bool)

theorem doMcastSet_bad (hb : 31 < g ∨ 2 ^ 36 ≤ targets) : u.doMcastSet r g valid targets = (u, just stBADPARAM) := if_pos hb

theorem doMcastSet_writes (hg : g ≤ 31) (ht : targets < 2 ^ 36) (hi : u.get (Reg.LATCH.MCAST_INFLIGHT g) = 0) :
    u.doMcastSet r g valid targets = (u.mcastWrite g (ofBool valid * 2 ^ 63 + targets) true, just stSUCCESS) :=
  (if_neg (by omega)).trans (if_pos hi)

theorem doMcastSet_waits (hg : g ≤ 31) (ht : targets < 2 ^ 36) (hi : u.get (Reg.LATCH.MCAST_INFLIGHT g) ≠ 0) :
    u.doMcastSet r g valid targets = ({ u.letWait r with host := { (u.letWait r).host with
      mcasts := (u.letWait r).host.mcasts ++ [(r, g, ofBool valid * 2 ^ 63 + targets)] } }, none) :=
  (if_neg (by omega)).trans (if_neg hi)

end

theorem exec_regWrite (h : s.serves r .target u) (off : BitVec 32) (v mask : BitVec 64) :
    exec (.regWrite r off v mask) s =
      .next ((State.answered r (u.doRegWrite off.toNat v.toNat mask.toNat)).keeping s) :=
  serve_of_serves (serves_entry h (.inl rfl) _) false (State.doRegWrite off.toNat v.toNat mask.toNat)

section
variable {off : Nat} (v mask : Nat)

theorem doRegWrite_bad (hb : off % 8 ≠ 0 ∨ 2 ^ 26 ≤ off) : u.doRegWrite off v mask = (u, just stBADPARAM) := if_pos hb

variable (ha : off % 8 = 0) (hl : off < 2 ^ 26)
include ha hl

theorem doRegWrite_notPermitted (hp : permittedBits off = 0) : u.doRegWrite off v mask = (u, just stNOTPERMITTED) :=
  (if_neg (by omega)).trans (if_pos hp)

theorem doRegWrite_writes (hp : permittedBits off ≠ 0) :
    u.doRegWrite off v mask = (u.writeWord off v (mask &&& permittedBits off) (extraReg off), just stSUCCESS) :=
  (if_neg (by omega)).trans (if_neg hp)

end
end

/-- Settles O48: a command is what this device's part answers, and the part answers by the checks it makes in order. -/
theorem configurationCommandsAct : Obligations.ConfigurationCommandsAct := by
  intro r va v mask tray step dieW dwell uncore tj hyst lend g off s u
  refine ⟨fun h => ⟨fun st hp => ?_, fun b hp => ⟨fun ho => ?_, fun ho ht => ?_, fun ho ht => ?_, trayBatch_of_own⟩,
      trayBatch_alone⟩,
    fun h => ⟨fun st hp => ?_, fun b hp => ⟨fun hs => ?_, fun hs hb => ?_, fun hs hb => ?_⟩⟩,
    fun h => ⟨fun hs he => ?_, fun hb => ?_⟩, fun h => ?_,
    fun h => ⟨fun hj => ?_, fun hj hb => ?_, fun hj hb => ?_⟩,
    fun h => ⟨⟨fun hz => ?_, fun hz => ?_⟩, fun hb => ?_, fun hg ht => ⟨fun hi => ?_, fun hi => ?_⟩, fun hb => ?_,
      fun ha hl => ⟨fun hp => ?_, fun hp => ?_⟩⟩⟩
  · rw [exec_placement h, doPlacement_eq, afterRead_failed _ hp, answered_just]
  · rw [exec_placement h, doPlacement_eq, afterRead_done _ hp, placed_bad ho, answered_just]
  · rw [exec_placement h, doPlacement_eq, afterRead_done _ hp, placed_busy ho ht, answered_just]
  · rw [exec_placement h, doPlacement_eq, afterRead_done _ hp, placed_good ho ht]
    rfl
  · rw [exec_reduceConfig h, doReduceConfig_eq, afterRead_failed _ hp, answered_just]
  · rw [exec_reduceConfig h, doReduceConfig_eq, afterRead_done _ hp, reduceConfigured_busy hs, answered_just]
  · rw [exec_reduceConfig h, doReduceConfig_eq, afterRead_done _ hp, reduceConfigured_bad hs hb, answered_just]
  · rw [exec_reduceConfig h, doReduceConfig_eq, afterRead_done _ hp, reduceConfigured_good hs hb]
    rfl
  · rw [exec_reduceStart h, doReduceStart_opens hs he]
    rfl
  · rw [exec_reduceStart h, doReduceStart_busy hb, answered_just]
  · rw [exec_reduceStop h]
    rfl
  · rw [exec_stepReplay h, doStepReplay_noJob hj, answered_just]
  · rw [exec_stepReplay h, doStepReplay_busy hj (jobAtWork_iff.mpr hb), answered_just]
  · rw [exec_stepReplay h, doStepReplay_opens hj (jobAtWork_iff.not.mpr hb)]
    rfl
  · rw [exec_budget h, doBudget_keepsUncore _ _ _ _ _ hz]
    rfl
  · rw [exec_budget h, doBudget_setsUncore _ _ _ _ _ hz]
    rfl
  · rw [exec_mcastSet h, doMcastSet_bad _ hb, answered_just]
  · rw [exec_mcastSet h, doMcastSet_writes _ hg ht hi]
    rfl
  · rw [exec_mcastSet h, doMcastSet_waits _ hg ht hi, answered_none]
  · rw [exec_regWrite h, doRegWrite_bad _ _ hb, answered_just]
  · rw [exec_regWrite h, doRegWrite_writes _ _ ha hl hp]
    rfl
  · rw [exec_regWrite h, doRegWrite_notPermitted _ _ ha hl hp, answered_just]

end Sys2Proof.Machine
end

section
/-!
PROOFS. That a value which a type represents converts to that type as its own code.
-/

namespace Sys2Proof.Machine

/-! ### Integer types (R57, R78) -/

/-- A code read as a signed number lies in the two's complement range of its width. -/
theorem signed_range {w c : Nat} (hw : 0 < w) (hc : c < 2 ^ w) :
    -((2 ^ (w - 1) : Nat) : Int) ≤ signed w c ∧ signed w c < ((2 ^ (w - 1) : Nat) : Int) := by
  have h2 : 2 ^ w = 2 * 2 ^ (w - 1) := by rw [← pow_succ', Nat.sub_add_cancel hw]
  rw [signed, Nat.mod_eq_of_lt hc]
  split <;> omega

/-- Reading a code as a signed number and writing that number gives the code again. -/
theorem unsigned_signed {w c : Nat} (hc : c < 2 ^ w) : unsigned w (signed w c) = c := by
  rw [unsigned, signed, Nat.mod_eq_of_lt hc]
  split
  · rw [Int.sub_emod_right, Int.emod_eq_of_lt (by omega) (by omega), Int.toNat_natCast]
  · rw [Int.emod_eq_of_lt (by omega) (by omega), Int.toNat_natCast]

theorem unsigned_natCast {w c : Nat} (hc : c < 2 ^ w) : unsigned w c = c := by
  rw [unsigned, Int.emod_eq_of_lt (by omega) (by omega), Int.toNat_natCast]

/-- A magnitude that is an integer is rounded to itself. -/
@[simp] theorem roundInt_zero (r : Rnd) (m : Nat) : roundInt r m 0 = m := by simp [roundInt]

/-- The sign and the magnitude of an integer give it back. -/
theorem sgn_natAbs (i : Int) : sgn (decide (i < 0)) i.natAbs = i := by
  rw [sgn]
  split
  case isTrue h =>
    have : i < 0 := of_decide_eq_true h
    omega
  case isFalse h =>
    have : ¬i < 0 := fun hi => h (decide_eq_true hi)
    omega

/-- An integer in a type's range is stored as its low bits, and counts nothing. -/
theorem toInt_ofInt {lo hi i : Int} (w : Nat) (r : Rnd) (hlo : lo ≤ i) (hhi : i ≤ hi) :
    toInt lo hi w r (Num.ofInt i) = (unsigned w i, Cnt.none) := by
  simp [toInt, Num.ofInt, sgn_natAbs, not_lt.mpr hlo, not_lt.mpr hhi]

/-- An integer type holds either the two's complement numbers of its width or the numbers that its bits count. -/
theorem intRange_cases {t : Nat} {lo hi : Int} (h : intRange t = some (lo, hi)) : 0 < typeBits t ∧
    ((lo = -((2 ^ (typeBits t - 1) : Nat) : Int) ∧ hi = ((2 ^ (typeBits t - 1) : Nat) : Int) - 1) ∨
      (lo = 0 ∧ hi = ((2 ^ typeBits t : Nat) : Int) - 1)) := by
  unfold intRange at h
  split at h
  all_goals simp only [Option.some.injEq, Prod.mk.injEq, reduceCtorEq] at h
  all_goals obtain ⟨rfl, rfl⟩ := h; decide

/-- A code of an integer type converts to itself. -/
theorem convert_decodeInt {t code : Nat} {lo hi : Int} (r : Rnd) (hf : fmtOf t = none) (hr : intRange t = some (lo, hi))
    (hc : code < 2 ^ typeBits t) : convert t r (decodeNum t code) = (code, Cnt.none) := by
  simp only [convert, decodeNum, hf, hr]
  obtain ⟨hw, ⟨rfl, rfl⟩ | ⟨rfl, rfl⟩⟩ := intRange_cases hr
  · obtain ⟨hlo, hhi⟩ := signed_range hw hc
    rw [if_pos (by simp), toInt_ofInt _ r hlo (by omega), unsigned_signed hc]
  · rw [if_neg (lt_irrefl 0), toInt_ofInt _ r (by omega) (by omega), unsigned_natCast hc]

/-! ### The layouts of floating-point types (R57, R79) -/

/-- The greatest exponent code of a finite value. -/
def Fmt.topExp (f : Fmt) : Nat := if f.hasInf then 2 ^ f.ebits - 2 else 2 ^ f.ebits - 1

/-- What ties the fields of a layout together: its greatest value has the greatest exponent code, and the greatest mantissa
that is not the NaN's of a layout without infinities. -/
structure Fmt.Sound (f : Fmt) : Prop where
  one_le_topExp : 1 ≤ f.topExp
  maxE_eq : f.maxE = (f.topExp : Int) - f.bias - f.mbits
  maxM_eq : f.maxM + 1 = 2 ^ (f.mbits + 1) ∨
    (1 ≤ f.mbits ∧ f.maxM + 2 = 2 ^ (f.mbits + 1) ∧ f.hasInf = false ∧ f.nanCode = some (2 ^ (f.ebits + f.mbits) - 1))

/-- The model's layouts are sound, and fill the width of their type. -/
theorem fmtOf_sound {t : Nat} {f : Fmt} (h : fmtOf t = some f) : f.Sound ∧ typeBits t = f.ebits + f.mbits + 1 := by
  unfold fmtOf at h
  split at h <;> cases h
  all_goals exact ⟨⟨by decide, by decide, by decide⟩, rfl⟩

/-- A value type is an integer type or has a layout. -/
theorem valueType_cases {t : Nat} (h : t ∈ valueTypes ++ [13]) :
    (∃ f, fmtOf t = some f) ∨ (fmtOf t = none ∧ ∃ r, intRange t = some r) := by
  have : ∀ t ∈ valueTypes ++ [13], (fmtOf t).isSome ∨ (fmtOf t = none ∧ (intRange t).isSome) := by decide
  simpa only [Option.isSome_iff_exists] using this t h

section
variable {f : Fmt}

/-- The hidden bit is no more than the greatest significand. -/
theorem Fmt.Sound.hidden_le_maxM (hs : f.Sound) : 2 ^ f.mbits ≤ f.maxM := by
  have hp : 2 ^ (f.mbits + 1) = 2 * 2 ^ f.mbits := pow_succ' 2 _
  have hpos : 0 < 2 ^ f.mbits := Nat.two_pow_pos _
  rcases hs.maxM_eq with hM | ⟨hm, hM, -, -⟩
  · omega
  · have : 2 ^ 1 ≤ 2 ^ f.mbits := Nat.pow_le_pow_right two_pos hm
    omega

/-- A code is its sign bit and the bits below it. -/
theorem signBit_add_low {c : Nat} (hc : c < 2 ^ (f.ebits + f.mbits + 1)) :
    signBit f (bitOf c (f.ebits + f.mbits)) + c % 2 ^ (f.ebits + f.mbits) = c := by
  have h := Nat.mod_pow_succ (x := c) (b := 2) (k := f.ebits + f.mbits)
  rw [Nat.mod_eq_of_lt hc] at h
  rw [signBit, bitOf, Nat.testBit_eq_decide_div_mod_eq]
  rcases Nat.mod_two_eq_zero_or_one (c / 2 ^ (f.ebits + f.mbits)) with hb | hb <;> simp [hb] at h ⊢ <;> omega

/-- The bits below the sign are the exponent code and the mantissa. -/
theorem low_eq_exp_mant (f : Fmt) (c : Nat) :
    c % 2 ^ (f.ebits + f.mbits) = c / 2 ^ f.mbits % 2 ^ f.ebits * 2 ^ f.mbits + c % 2 ^ f.mbits := by
  rw [add_comm f.ebits, pow_add, Nat.mod_mul]
  ring

/-- The magnitude i * 2^(ex - bias - mbits) is one that the layout holds: its significand has the hidden bit unless its exponent
is the least, and it is not above the layout's greatest. -/
structure Fmt.Holds (f : Fmt) (ex i : Nat) : Prop where
  one_le : 1 ≤ ex
  le_top : ex ≤ f.topExp
  lt_hidden : i < 2 ^ (f.mbits + 1)
  subnormal : i < 2 ^ f.mbits → ex = 1
  le_max : ex = f.topExp → i ≤ f.maxM

/-- The exponent of the significand of a magnitude with exponent code ex. -/
def Fmt.expOf (f : Fmt) (ex : Nat) : Int := (ex : Int) - f.bias - f.mbits

theorem pred_mul_add_self {k : Nat} (h : 1 ≤ k) (p : Nat) : (k - 1) * p + p = k * p := by
  rw [← Nat.succ_mul, Nat.succ_eq_add_one, Nat.sub_add_cancel h]

/-- A normal code that is neither an infinity's nor a NaN's stands for a magnitude that the layout holds. -/
theorem holds_normal (hs : f.Sound) {ex mant : Nat} (h1 : 1 ≤ ex) (he : ex < 2 ^ f.ebits) (hm : mant < 2 ^ f.mbits)
    (hi : ¬(ex = 2 ^ f.ebits - 1 ∧ f.hasInf = true))
    (hr : ¬(f.nanCode = some ((ex - 1) * 2 ^ f.mbits + (2 ^ f.mbits + mant)) ∧ (!f.hasInf) = true)) :
    f.Holds ex (2 ^ f.mbits + mant) := by
  have hp : 2 ^ (f.mbits + 1) = 2 * 2 ^ f.mbits := pow_succ' 2 _
  refine ⟨h1, ?_, by omega, by omega, fun ht => ?_⟩
  · rw [Fmt.topExp]
    split
    case isTrue hf =>
      have : ex ≠ 2 ^ f.ebits - 1 := fun hx => hi ⟨hx, hf⟩
      omega
    case isFalse => omega
  · rcases hs.maxM_eq with hM | ⟨-, hM, hf, hn⟩
    · omega
    · have hx : 2 ^ f.ebits = ex + 1 := by simp [Fmt.topExp, hf] at ht; omega
      have hc : (ex - 1) * 2 ^ f.mbits + (2 ^ f.mbits + mant) ≠ 2 ^ (f.ebits + f.mbits) - 1 := fun hc =>
        hr ⟨by rw [hc, hn], by simp [hf]⟩
      rw [← add_assoc, pred_mul_add_self h1, pow_add, hx, Nat.succ_mul] at hc
      omega

/-- What a code stands for that is no NaN: infinity, or a magnitude that the layout holds, and then the bits below its sign are
the significand after the exponent codes that lie below. -/
theorem decodeFp_cases (hs : f.Sound) {c : Nat} (hn : decodeFp f c ≠ .nan) :
    (f.hasInf = true ∧ c % 2 ^ (f.ebits + f.mbits) = (2 ^ f.ebits - 1) * 2 ^ f.mbits ∧
      decodeFp f c = .inf (bitOf c (f.ebits + f.mbits))) ∨
    ∃ ex i, f.Holds ex i ∧ c % 2 ^ (f.ebits + f.mbits) = (ex - 1) * 2 ^ f.mbits + i ∧
      decodeFp f c = .fin (bitOf c (f.ebits + f.mbits)) i (f.expOf ex) := by
  have hl := low_eq_exp_mant f c
  have hm : c % 2 ^ f.mbits < 2 ^ f.mbits := Nat.mod_lt _ (Nat.two_pow_pos _)
  have he : c / 2 ^ f.mbits % 2 ^ f.ebits < 2 ^ f.ebits := Nat.mod_lt _ (Nat.two_pow_pos _)
  rw [decodeFp] at hn ⊢
  generalize c % 2 ^ f.mbits = mant at hl hm hn ⊢
  generalize c / 2 ^ f.mbits % 2 ^ f.ebits = ex at hl he hn ⊢
  have hp : 2 ^ (f.mbits + 1) = 2 * 2 ^ f.mbits := pow_succ' 2 _
  split at hn
  case isTrue hi =>
    obtain ⟨rfl, hi⟩ := hi
    obtain rfl : mant = 0 := by_contra fun hz => hn (if_neg hz)
    exact .inl ⟨hi, hl, by simp [hi]⟩
  case isFalse hi =>
    split at hn
    case isTrue => exact absurd rfl hn
    case isFalse hr =>
      rw [if_neg hi, if_neg hr]
      split
      case isTrue h0 =>
        exact .inr ⟨1, mant, ⟨le_rfl, hs.one_le_topExp, by omega, fun _ => rfl, fun _ => hm.le.trans hs.hidden_le_maxM⟩,
          by simp [hl, h0], rfl⟩
      case isFalse h0 =>
        have h1 : 1 ≤ ex := Nat.one_le_iff_ne_zero.mpr h0
        rw [← pred_mul_add_self h1, add_assoc] at hl
        exact .inr ⟨ex, 2 ^ f.mbits + mant, holds_normal hs h1 he hm hi (hl ▸ hr), hl, rfl⟩

/-! ### Magnitudes (R71, R78) -/

/-- Magnitudes compare in the unit of the one with the lower exponent. -/
theorem magLe_iff {m n : Nat} {e g : Int} (h : e ≤ g) : magLe m e n g = true ↔ m ≤ n * 2 ^ (g - e).toNat := by
  simp [magLe, alignTo, min_eq_left h]

/-- A magnitude that is at most M is below M and a half of its unit. -/
theorem magLe_half_eq_false {m M : Nat} {e E : Int} (h : e ≤ E) (hm : magLe m e M E = true) :
    magLe (2 * M + 1) (E - 1) m e = false := by
  rw [magLe_iff h] at hm
  rcases h.lt_or_eq with hlt | rfl
  · have hp : (2 : Nat) ^ (E - e).toNat = 2 * 2 ^ (E - 1 - e).toNat := by rw [← pow_succ']; congr 1; omega
    have hpos : 0 < 2 ^ (E - 1 - e).toNat := Nat.two_pow_pos _
    have hlt : m < (2 * M + 1) * 2 ^ (E - 1 - e).toNat := by
      rw [hp] at hm
      linarith
    simpa [magLe, alignTo, min_eq_right (show e ≤ E - 1 by omega)] using hlt
  · have hlt : m * 2 < 2 * M + 1 := by
      simp only [sub_self, Int.toNat_zero, pow_zero, mul_one] at hm
      omega
    simpa [magLe, alignTo] using hlt

/-- A magnitude that the layout holds is at most its greatest. -/
theorem Fmt.Holds.magLe_max (hs : f.Sound) {ex i : Nat} (h : f.Holds ex i) :
    f.expOf ex ≤ f.maxE ∧ magLe i (f.expOf ex) f.maxM f.maxE = true := by
  have hle : f.expOf ex ≤ f.maxE := by
    have := h.le_top
    rw [hs.maxE_eq, Fmt.expOf]
    omega
  refine ⟨hle, (magLe_iff hle).mpr ?_⟩
  rcases h.le_top.lt_or_eq with hlt | heq
  · have h2 : 2 ^ 1 ≤ 2 ^ (f.maxE - f.expOf ex).toNat := by
      refine Nat.pow_le_pow_right two_pos ?_
      rw [hs.maxE_eq, Fmt.expOf]
      omega
    calc i ≤ 2 ^ f.mbits * 2 ^ 1 := h.lt_hidden.le
      _ ≤ f.maxM * 2 ^ (f.maxE - f.expOf ex).toNat := Nat.mul_le_mul hs.hidden_le_maxM h2
  · exact (h.le_max heq).trans (Nat.le_mul_of_pos_right _ (Nat.two_pow_pos _))

/-- The code of a magnitude that the layout holds. -/
theorem packFp_of_holds {ex i : Nat} (h : f.Holds ex i) : packFp f i (f.expOf ex) = (ex - 1) * 2 ^ f.mbits + i := by
  have h1 := h.one_le
  rcases lt_or_ge i (2 ^ f.mbits) with hi | hi
  · rw [h.subnormal hi]
    by_cases h0 : i = 0
    · simp [packFp, h0]
    · have hlog : Nat.log2 i < f.mbits := (Nat.log2_lt h0).mpr hi
      have he : f.expOf 1 + ((Nat.log2 i : Int) - f.mbits) + f.mbits + f.bias < 1 := by
        rw [Fmt.expOf]
        omega
      have hq : f.expOf 1 - (1 - f.bias - f.mbits) = 0 := sub_self _
      simp [packFp, h0, he, hq]
  · have h0 : i ≠ 0 := by have := Nat.two_pow_pos f.mbits; omega
    have hlog : Nat.log2 i = f.mbits := (Nat.log2_eq_iff h0).mpr ⟨hi, h.lt_hidden⟩
    have he : f.expOf ex + f.mbits + f.bias = ex := by
      rw [Fmt.expOf]
      omega
    have hsum : ex * 2 ^ f.mbits + (i - 2 ^ f.mbits) = (ex - 1) * 2 ^ f.mbits + i := by
      rw [← pred_mul_add_self h1]
      omega
    simp [packFp, h0, hlog, he, show ex ≠ 0 by omega, hsum]

/-- The unit in which a magnitude that the layout holds is rounded is its own. -/
theorem Fmt.Holds.unit_eq {ex i : Nat} (h : f.Holds ex i) (h0 : i ≠ 0) :
    max (f.expOf ex + (Nat.log2 i : Int)) (1 - f.bias) - f.mbits = f.expOf ex := by
  have h1 := h.one_le
  rw [Fmt.expOf]
  rcases lt_or_ge i (2 ^ f.mbits) with hi | hi
  · have hlog : Nat.log2 i < f.mbits := (Nat.log2_lt h0).mpr hi
    have hex := h.subnormal hi
    omega
  · have hlog : Nat.log2 i = f.mbits := (Nat.log2_eq_iff h0).mpr ⟨hi, h.lt_hidden⟩
    omega

/-- A magnitude that the layout holds converts to its code under every rounding mode. -/
theorem toFp_of_holds (hs : f.Sound) (r : Rnd) (neg : Bool) {ex i : Nat} (h : f.Holds ex i) :
    toFp f r (.fin neg i (f.expOf ex)) = (signBit f neg + ((ex - 1) * 2 ^ f.mbits + i), Cnt.none) := by
  by_cases h0 : i = 0
  · subst h0
    simp [toFp, h.subnormal (Nat.two_pow_pos _)]
  · obtain ⟨hle, hmax⟩ := h.magLe_max hs
    rw [← packFp_of_holds h]
    cases r <;> simp [toFp, h0, magLe_half_eq_false hle hmax, hmax, h.unit_eq h0]

/-- A code of a floating-point type that is no NaN converts to itself. -/
theorem toFp_decodeFp (hs : f.Sound) (r : Rnd) {c : Nat} (hc : c < 2 ^ (f.ebits + f.mbits + 1)) (hn : decodeFp f c ≠ .nan) :
    toFp f r (decodeFp f c) = (c, Cnt.none) := by
  rcases decodeFp_cases hs hn with ⟨hi, hl, hd⟩ | ⟨ex, i, hh, hl, hd⟩
  · rw [hd, toFp, if_pos hi, ← hl, signBit_add_low hc]
  · rw [hd, toFp_of_holds hs r _ hh, ← hl, signBit_add_low hc]

end

/-- Settles O54: a code of an integer type is in its range, and the magnitude of a floating-point code is one that its layout
holds, so that neither is rounded or saturated. -/
theorem codesSurviveConversion : Obligations.CodesSurviveConversion := by
  intro t code r ht hc hn
  rcases valueType_cases ht with ⟨f, hf⟩ | ⟨hf, ⟨lo, hi⟩, hr⟩
  · obtain ⟨hs, hw⟩ := fmtOf_sound hf
    simp only [decodeNum, convert, hf] at hn ⊢
    exact toFp_decodeFp hs r (hw ▸ hc) hn
  · exact convert_decodeInt r hf hr hc

end Sys2Proof.Machine
end

section
/-!
PROOFS. What the lane generators draw, and what a write of a generator's state does.
-/

namespace Sys2Proof.Machine

/-! ### The steps of a draw (R75) -/

/-- A word that differs in no bit from itself shifted left is zero: each bit repeats one below it. -/
theorem eq_zero_of_xor_shiftLeft {w n : Nat} (hn : 0 < n) {x : BitVec w} (h : x ^^^ x <<< n = 0) : x = 0 := by
  have hx : x = x <<< n := BitVec.xor_eq_zero_iff.mp h
  have hbit : ∀ i, x.getLsbD i = false := by
    intro i
    induction i using Nat.strong_induction_on with
    | _ i ih =>
      rw [hx, BitVec.getLsbD_shiftLeft]
      by_cases hi : i < n
      · simp [hi]
      · simp [ih (i - n) (by omega)]
  exact BitVec.eq_of_getLsbD_eq fun i _ => by simp [hbit i]

/-- A word that differs in no bit from itself shifted right is zero, as the shift makes every other one less. -/
theorem eq_zero_of_xor_ushiftRight {w n : Nat} (hn : 0 < n) {x : BitVec w} (h : x ^^^ x >>> n = 0) : x = 0 := by
  have hx : x = x >>> n := BitVec.xor_eq_zero_iff.mp h
  by_contra h0
  have hpos : 0 < x.toNat := Nat.pos_of_ne_zero fun hz => h0 (BitVec.eq_of_toNat_eq hz)
  have hlt : (x >>> n).toNat < x.toNat := by
    rw [BitVec.toNat_ushiftRight, Nat.shiftRight_eq_div_pow]
    exact Nat.div_lt_self hpos (Nat.one_lt_two_pow hn.ne')
  rw [← hx] at hlt
  exact lt_irrefl _ hlt

/-- The three steps of a draw on a word. -/
def drawStep (x : BitVec 64) : BitVec 64 :=
  let a := x ^^^ x <<< 13
  let b := a ^^^ a >>> 7
  b ^^^ b <<< 17

/-- The model's step of a generator is that of its word. -/
theorem genNext_toNat (x : BitVec 64) : genNext x.toNat = (drawStep x).toNat := by
  simp [genNext, drawStep, Nat.shiftLeft_eq, Nat.shiftRight_eq_div_pow]

/-- No step of a draw makes a word zero that is not. -/
theorem drawStep_ne_zero {x : BitVec 64} (hx : x ≠ 0) : drawStep x ≠ 0 := fun h =>
  hx (eq_zero_of_xor_shiftLeft (by decide) (eq_zero_of_xor_ushiftRight (by decide)
    (eq_zero_of_xor_shiftLeft (by decide) h)))

/-- The draw of a word is its 16 high bits. -/
theorem genDraw_toNat (y : BitVec 64) : genDraw y.toNat = ((y >>> 48) &&& 0xFFFF).toNat := by
  have hlt : y.toNat / 2 ^ 48 < 2 ^ 16 := by omega
  rw [BitVec.toNat_and, BitVec.toNat_ushiftRight, Nat.shiftRight_eq_div_pow]
  exact (Nat.and_two_pow_sub_one_of_lt_two_pow hlt).symm

/-! ### Writes of a generator's state (R89, R550) -/

section
variable {s : State} (c : CoreIx) (l : Fin 256) (v : BitVec 64)

theorem exec_generatorStateWrite (sill : Bool) : exec (.generatorStateWrite c l v sill) s =
    whenBar s sill fun s => s.writeLane c.val l.val v.toNat sill := rfl

/-- A write of a whole lane leaves what it carries. -/
theorem heldState_lane (old v : Nat) : heldState old l.val v = v := by
  simp [heldState, Nat.div_eq_of_lt l.isLt]

theorem writeLane_absent {n : Nat} (key v : Nat) (sill : Bool) (hp : s.present n = false) : s.writeLane n key v sill = s := by
  simp [State.writeLane, hp]

section
variable {n : Nat} (v : Nat) (hp : s.present n = true)
include hp

theorem writeLane_host_changes (hv : s.get (Reg.CORE.LANE_STATE n l.val) ≠ v) :
    s.writeLane n l.val v false = s.hostRefused (Reg.CORE.LANE_STATE n l.val).off v := by
  simp [State.writeLane, hp, Nat.mod_eq_of_lt l.isLt, heldState_lane, hv, Nat.div_eq_of_lt l.isLt]

theorem writeLane_host_same (hv : s.get (Reg.CORE.LANE_STATE n l.val) = v) : s.writeLane n l.val v false = s := by
  simp [State.writeLane, hp, Nat.mod_eq_of_lt l.isLt, heldState_lane, hv]

theorem writeLane_idle (hw : (s.core n).window = []) :
    s.writeLane n l.val v true = s.put (Reg.CORE.LANE_STATE n l.val) (genLoad v) := by
  simp [State.writeLane, hp, Nat.mod_eq_of_lt l.isLt, heldState_lane, hw]

theorem writeLane_busy (hw : (s.core n).window ≠ []) : s.writeLane n l.val v true = s.setCore n { s.core n with
    heldGen := (s.core n).heldGen ++ [(l.val, BitVec.ofNat 64 v)] } := by
  simp [State.writeLane, hp, hw]

end
end

/-- Settles O56: each step of a draw takes no word but zero to zero, a generator that no write has changed holds its reset value,
and a state of zero is loaded as the constant. -/
theorem generatorsAreNeverZero : Obligations.GeneratorsAreNeverZero := by
  refine ⟨fun x => ⟨genNext_toNat x, ?_, fun hx hz => ?_⟩, fun n l _ _ => rfl, fun c l s hu hp hw =>
    ⟨(s.put (Reg.CORE.LANE_STATE c.val l.val) (genLoad 0)).keeping s, ?_, ?_⟩⟩
  · rw [genNext_toNat]
    exact genDraw_toNat _
  · rw [genNext_toNat] at hz
    exact drawStep_ne_zero hx (BitVec.eq_of_toNat_eq hz)
  · rw [exec_generatorStateWrite, whenBar_open hu (.inr rfl), writeLane_idle l _ hp hw]
    rfl
  · rw [State.keeping_get, State.get_put_self]
    rfl

end Sys2Proof.Machine
end

section
/-!
PROOFS. What an invalidation does, what ends it, and what the messages of a key exchange do.
-/

namespace Sys2Proof.Machine

section
variable {s : State}

/-! ### Commands that find nothing to do -/

theorem whenLive_same {f : State → State} (h : f s = s) : whenLive s f = .next s := by simp [whenLive, h]

theorem whenBar_same {f : State → State} (sill : Bool) (h : f s = s) : whenBar s sill f = .next s :=
  whenLive_same (by simp [h])

/-! ### Invalidations (R187, R188, R485) -/

theorem exec_invalCmd (v : BitVec 64) (sill : Bool) : exec (.invalCmd v sill) s = whenBar s sill fun s =>
    if sill then s.invalCmd (bitsOf v.toNat 5 0) (bitOf v.toNat 6)
    else if v.toNat % 128 = 0 then s else s.hostRefused Reg.XLAT.INVAL_JOB.off v.toNat := rfl

theorem invalCmd_begins {job : Nat} {all : Bool} (hb : s.get Reg.XLAT.BUSY ≠ 1) :
    s.invalCmd job all = s.beginInval job all (s.get Reg.XLAT.INVAL_VA) (s.get Reg.XLAT.INVAL_PAGES) none := if_neg hb

theorem invalCmd_overruns {job : Nat} {all : Bool} (hb : s.get Reg.XLAT.BUSY = 1) :
    s.invalCmd job all = s.put Reg.XLAT.OVERRUN 1 := if_pos hb

/-- What INVALIDATION_DONE does out of reset. -/
def State.endInval (s : State) : State :=
  match s.overInval with
  | none => s
  | some x => (s.closeInval x).goOnRestore

theorem exec_invalidationDone : exec .invalidationDone s = whenLive s State.endInval := rfl

theorem endInval_none (hi : s.inval = none) : s.endInval = s := by simp [State.endInval, State.overInval, hi]

section
variable {x : Inval} (hi : s.inval = some x)
include hi

theorem endInval_used (hx : x.users.any s.stillUsed = true) : s.endInval = s := by
  simp only [State.endInval, State.overInval, hi, if_pos hx]

theorem endInval_over (hx : x.users.any s.stillUsed = false) : s.endInval = (s.closeInval x).goOnRestore := by
  simp only [State.endInval, State.overInval, hi, if_neg (ne_true_of_eq_false hx)]

end

/-- The registers as an invalidation leaves them that is over. -/
def State.invalOver (s : State) (x : Inval) : State :=
  ({ s with inval := none } : State).puts [(Reg.XLAT.BUSY, 0), (Reg.XLAT.DONE_CNT, s.get Reg.XLAT.DONE_CNT + 1 + x.more)]

theorem closeInval_ofRegister {x : Inval} (hr : x.req = none) : s.closeInval x = (s.invalOver x).nextInval := by
  simp only [State.closeInval, hr]
  rfl

theorem closeInval_ofCommand {x : Inval} {r : Req} (hr : x.req = some r) :
    s.closeInval x = ((s.invalOver x).finish r stSUCCESS 0 0).nextInval := by
  simp only [State.closeInval, hr]
  rfl

/-! ### The restore that waits for an invalidation (R445) -/

theorem goOnRestore_none (hr : s.snap.restoring = none) : s.goOnRestore = s := by simp only [State.goOnRestore, hr]

/-- The state of the snapshot unit as a restore goes on. -/
def State.restoreTaken (s : State) : State :=
  ({ s with snap := { s.snap with restoring := none } } : State).put Reg.SNAP.STATUS_STATE 0

section
variable {y : Restore} (hr : s.snap.restoring = some y)
include hr

theorem goOnRestore_done (hf : y.fails = none) : s.goOnRestore =
    ((y.image.blocks.foldl (State.restoreBlock y.r.job.toNat) s.restoreTaken).applyRecord y.image y.tResume).finish y.r
      stSUCCESS 0 0 := by
  simp only [State.goOnRestore, hr, hf]
  rfl

theorem goOnRestore_fails {k : Nat} (hf : y.fails = some k) : s.goOnRestore =
    ((y.image.blocks.take k).foldl (State.restoreBlock y.r.job.toNat) s.restoreTaken).finish y.r stAUTH 0 0 := by
  simp only [State.goOnRestore, hr, hf]
  rfl

end

/-! ### The messages of a key exchange (R513, R514) -/

section
variable {peer : Nat} {ok : Bool}

theorem exec_peerMessage (peer : BitVec 6) (step : BitVec 3) (ok : Bool) :
    exec (.peerMessage peer step ok) s = whenLive s fun s => s.peerMessage peer.toNat step.toNat ok := rfl

theorem exec_peerMessage_makes {peer : BitVec 6} {step : BitVec 3} {ok : Bool} {t : State} (hu : s.phase = .up)
    (h : s.peerMessage peer.toNat step.toNat ok = t) : exec (.peerMessage peer step ok) s = .next (t.keeping s) := by
  rw [exec_peerMessage, whenLive_up hu, h]

theorem peerMessage_notReady {step : Nat} (hr : s.get Reg.SEC.READY = 0) : s.peerMessage peer step ok = s := if_pos hr

/-- The message in a peer's slot is the one that the exchange waits for. -/
def State.slotAwaited (s : State) (peer step : Nat) : Prop :=
  slice 0 1 (s.slotBytesAt peer 0 64) = bytesOf 1 step ∧ (s.slotRead peer 0 64).peerStep peer = step

/-- The state once the security block has read the whole of the message in a peer's slot. -/
def State.messageRead (s : State) (peer : Nat) : State :=
  (s.slotRead peer 0 64).slotRead peer 64 (min 8128 (field (s.slotBytesAt peer 0 64) 4 4))

section
variable (hr : s.get Reg.SEC.READY ≠ 0)
include hr

theorem peerMessage_other {step : Nat} (ha : ¬s.slotAwaited peer step) : s.peerMessage peer step ok = s.slotRead peer 0 64 :=
  (if_neg hr).trans (if_pos (not_and_or.mp ha))

/-- The message that the exchange waits for is read whole, and its step is taken. -/
theorem peerMessage_awaited {step : Nat} (ha : s.slotAwaited peer step) : s.peerMessage peer step ok =
    if step = 1 then (s.messageRead peer).sendM2 peer
    else if step = 2 then (s.messageRead peer).gotM2 peer ok
    else if step = 3 then (s.messageRead peer).gotM3 peer ok
    else s.messageRead peer :=
  (if_neg hr).trans (if_neg (not_or.mpr ⟨not_not.mpr ha.1, not_not.mpr ha.2⟩))

theorem peerMessage_m1 (ha : s.slotAwaited peer 1) : s.peerMessage peer 1 ok = (s.messageRead peer).sendM2 peer :=
  (peerMessage_awaited hr ha).trans (if_pos rfl)

theorem peerMessage_m2 (ha : s.slotAwaited peer 2) : s.peerMessage peer 2 ok = (s.messageRead peer).gotM2 peer ok :=
  (peerMessage_awaited hr ha).trans ((if_neg (by decide)).trans (if_pos rfl))

theorem peerMessage_m3 (ha : s.slotAwaited peer 3) : s.peerMessage peer 3 ok = (s.messageRead peer).gotM3 peer ok :=
  (peerMessage_awaited hr ha).trans ((if_neg (by decide)).trans ((if_neg (by decide)).trans (if_pos rfl)))

end

theorem gotM2_noKey (hk : s.outKey = none) : s.gotM2 peer ok = s.dropPeer peer := by simp only [State.gotM2, hk]

theorem gotM2_passes {key : Bytes} (hk : s.outKey = some key) :
    s.gotM2 peer true = (s.inc Reg.SEC.VERIFY_CNT 2).sendM3 peer key := by simp only [State.gotM2, hk, if_true]

theorem gotM2_fails_forming {key : Bytes} {f : Forming} (hk : s.outKey = some key)
    (hf : (s.peerFails peer).host.forming = some f) : s.gotM2 peer false =
      (s.peerFails peer).partDone f.r.ring.toNat f.r.cmdId.toNat peer stAUTH 0 0 := by
  simp only [State.gotM2, hk, hf, if_neg Bool.false_ne_true]

theorem gotM2_fails_alone {key : Bytes} (hk : s.outKey = some key) (hf : (s.peerFails peer).host.forming = none) :
    s.gotM2 peer false = s.peerFails peer := by
  simp only [State.gotM2, hk, hf, if_neg Bool.false_ne_true]

end

/-! ### A device that does not answer (R479, R480) -/

section
variable {cmd dev : Nat}

theorem exec_noRoute (cmd : BitVec 32) (dev : BitVec 6) :
    exec (.noRoute cmd dev) s = whenLive s fun s => s.noAnswer cmd.toNat dev.toNat := rfl

theorem noAnswer_stays (h : ∀ f, s.host.forming = some f → f.r.cmdId.toNat ≠ cmd ∨ s.isMember = true) :
    s.noAnswer cmd dev = s := by
  cases hf : s.host.forming with
  | none => simp only [State.noAnswer, hf]
  | some f => simp only [State.noAnswer, hf, if_pos (h f hf)]

/-- A device that is missing, or whose part of the command is still waited for, ends the forming or that part. -/
theorem noAnswer_eq {f : Forming} (hf : s.host.forming = some f) (hc : f.r.cmdId.toNat = cmd) (hm : s.isMember = false) :
    s.noAnswer cmd dev =
    if f.missing.contains dev then
      ({ s.passTo (f.since + 10000000) with
        host := { (s.passTo (f.since + 10000000)).host with forming := none } } : State).finish f.r stNOROUTE 0 0
    else if s.host.relayed.any (fun x => x.of f.r.ring.toNat cmd && x.waiting.contains dev) then
      ((s.passTo (f.since + 10000000)).dropPeer dev).partDone f.r.ring.toNat cmd dev stNOROUTE 0 0
    else s := by
  have hg : ¬(f.r.cmdId.toNat ≠ cmd ∨ s.isMember = true) := by simp [hc, hm]
  simp only [State.noAnswer, hf, if_neg hg]

end
end

/-- Settles O42: each command is its operation, and each operation has the conditions of its rule. -/
theorem keysAndInvalidationsAct : Obligations.KeysAndInvalidationsAct := by
  intro v c l peer dev step ok cmd s hu
  refine ⟨fun hb => ?_, fun hb => ?_, fun hd => ⟨fun hz => ?_, fun hz => ?_⟩, fun hi => ?_,
    fun x hi => ⟨fun hx => ?_, fun hx => ⟨fun hr => ?_, fun r hr => ?_⟩⟩,
    fun t => ⟨goOnRestore_none, fun y hr => ⟨goOnRestore_done hr, fun k => goOnRestore_fails hr⟩⟩,
    fun hp => ⟨fun hw => ?_, fun hw => ?_, fun hd hv => ?_, fun hd hv => ?_⟩, fun hp => ⟨?_, ?_⟩,
    fun hd => ⟨?_, ?_⟩, fun hr => ?_,
    fun hr => ⟨fun ha => ?_, fun ha => ⟨fun h1 => ?_, fun h2 => ⟨fun hk => ?_, fun key hk ho => ?_, fun key hk ho => ?_⟩,
      fun h3 => ?_⟩⟩,
    fun f hf hc hm => ⟨fun hx => ?_, fun hx => ⟨fun hy => ?_, fun hy => ?_⟩⟩, fun h => ?_⟩
  · rw [exec_invalCmd, whenBar_open hu (.inr rfl), if_pos rfl, invalCmd_begins hb]
  · rw [exec_invalCmd, whenBar_open hu (.inr rfl), if_pos rfl, invalCmd_overruns hb]
  · rw [exec_invalCmd, whenBar_open hu (.inl hd), if_neg Bool.false_ne_true, if_pos hz, State.keeping_self]
  · rw [exec_invalCmd, whenBar_open hu (.inl hd), if_neg Bool.false_ne_true, if_neg hz]
  · rw [exec_invalidationDone, whenLive_same (endInval_none hi)]
  · rw [exec_invalidationDone, whenLive_same (endInval_used hi hx)]
  · rw [exec_invalidationDone, whenLive_up hu, endInval_over hi hx, closeInval_ofRegister hr]
    rfl
  · rw [exec_invalidationDone, whenLive_up hu, endInval_over hi hx, closeInval_ofCommand hr]
    rfl
  · rw [exec_generatorStateWrite, whenBar_open hu (.inr rfl), writeLane_idle l _ hp hw]
  · rw [exec_generatorStateWrite, whenBar_open hu (.inr rfl), writeLane_busy l _ hp hw]
  · rw [exec_generatorStateWrite, whenBar_open hu (.inl hd), writeLane_host_changes l _ hp hv]
  · rw [exec_generatorStateWrite, whenBar_same _ (writeLane_host_same l _ hp hv)]
  · rw [exec_generatorStateWrite, whenBar_same _ (writeLane_absent _ _ _ hp)]
  · rw [exec_generatorStateWrite, whenBar_same _ (writeLane_absent _ _ _ hp)]
  · rw [exec_invalCmd, whenBar_d3hot hd]
  · rw [exec_generatorStateWrite, whenBar_d3hot hd]
  · rw [exec_peerMessage, whenLive_same (peerMessage_notReady hr)]
  · exact exec_peerMessage_makes hu (peerMessage_other hr ha)
  · obtain rfl := h1
    exact exec_peerMessage_makes hu (peerMessage_m1 hr ha)
  · obtain rfl := h2
    exact exec_peerMessage_makes hu ((peerMessage_m2 hr ha).trans (gotM2_noKey hk))
  · obtain rfl := h2
    obtain rfl := ho
    exact exec_peerMessage_makes hu ((peerMessage_m2 hr ha).trans (gotM2_passes hk))
  · obtain rfl := h2
    obtain rfl := ho
    have hm := peerMessage_m2 (ok := false) hr ha
    rw [State.messageRead] at hm
    split
    next f hf => exact exec_peerMessage_makes hu (hm.trans (gotM2_fails_forming hk hf))
    next hf => exact exec_peerMessage_makes hu (hm.trans (gotM2_fails_alone hk hf))
  · obtain rfl := h3
    exact exec_peerMessage_makes hu (peerMessage_m3 hr ha)
  · rw [exec_noRoute, whenLive_up hu, noAnswer_eq hf (congrArg _ hc) hm, if_pos hx]
  · rw [exec_noRoute, whenLive_up hu, noAnswer_eq hf (congrArg _ hc) hm, if_neg (Bool.eq_false_iff.mp hx), if_pos hy]
  · rw [exec_noRoute, whenLive_up hu, noAnswer_eq hf (congrArg _ hc) hm, if_neg (Bool.eq_false_iff.mp hx),
      if_neg (Bool.eq_false_iff.mp hy), State.keeping_self]
  · refine (exec_noRoute cmd dev).trans (whenLive_same (noAnswer_stays fun f hf => ?_))
    rcases h with hn | hm | ⟨g, hg, hc⟩
    · simp [hn] at hf
    · exact .inr hm
    · obtain rfl : g = f := Option.some.inj (hg.symm.trans hf)
      exact .inl fun h => hc (BitVec.eq_of_toNat_eq h)

end Sys2Proof.Machine
end

section
/-!
PROOFS. What gmm, gact and tload do on their normal path, and what the requests to fence tiles do (chapter 4).
-/

namespace Sys2Proof.Machine

/-! ### The end of an engine's instruction (R116, R117) -/

/-- The results of an engine's instruction are converted and written, await their check, and the instruction is done. -/
def State.resultsDone (s : State) (n unit : Nat) (i : Insn) (b : Bound) (rs : List Res) : State :=
  let w := s.writeResults n (i.mod 1 0) b (i.td roleD) rs
  (w.1.pushCheck n unit i.tag (w.1.jobOf n) 0 b).markDone n i.tag w.2

/-- Results that have been written await their check under the unit of the instruction's opcode. -/
theorem checkOf_wrote (s : State) (n : Nat) (i : Insn) (b : Bound) :
    s.checkOf n i b true = s.pushCheck n (unitOfOp i.op) i.tag (s.jobOf n) 0 b := rfl

/-! ### The unit codes of Garnet's opcodes (R405) -/

theorem unitOfOp_gmm : unitOfOp 0x10 = 2 := rfl
theorem unitOfOp_gact : unitOfOp 0x18 = 4 := rfl
theorem unitOfOp_tload : unitOfOp 0x19 = 4 := rfl

/-! ### gmm (R91 to R101) -/

section
variable {s s' : State} {n : Nat} {i : Insn} {b : Bound}

/-- What a gmm computes for an element of D: its accumulated and fused value, and whether the function's input was above the
window. -/
def State.gmmItem (s : State) (n : Nat) (b : Bound) (i : Insn) (e : Nat × Nat × List Nat × Nat) : Res × Bool :=
  let v := s.fuse n i (s.gmmElem b i (gmmShape i) e.1 e.2.1 e.2.2.1)
  (⟨lin (i.td roleD).sizes ([e.2.1, e.1] ++ e.2.2.1), e.2.2.2, v.1⟩, v.2)

/-- The results of a gmm in the order of its work. -/
def State.gmmItems (s : State) (n : Nat) (b : Bound) (i : Insn) : List (Res × Bool) :=
  (gmmOrder i (gmmShape i)).map (s.gmmItem n b i)

/-- A gmm that uses no poisoned element counts its sweeps and its inputs above the window, and writes all its results. -/
theorem gmmWork_clean (hop : i.op = 0x10) (hp : (i.td roleD).count ≠ 0 →
      s.poisonFlt b ([(roleA, i.td roleA), (roleB, i.td roleB)] ++
        (if i.mod 16 16 = 1 then [(roleX, i.td roleX)] else [])) = none) :
    s.gmmWork n i b = ((s.gmmCount n b i (gmmShape i)).countAbove n (s.gmmItems n b i)).resultsDone n 2 i b
      ((s.gmmItems n b i).map Prod.fst) := by
  have hq : (if (i.td roleD).count = 0 then none else s.poisonFlt b ([(roleA, i.td roleA), (roleB, i.td roleB)] ++
      (if i.mod 16 16 = 1 then [(roleX, i.td roleX)] else []))) = none := by
    split
    next => rfl
    next hc => exact hp hc
  simp only [State.gmmWork, hq, checkOf_wrote, hop, unitOfOp_gmm]
  rfl

/-- A gmm whose checks pass, and whose operands are bound to pages, does its work. -/
theorem gmmRun_passes (hop : i.op = 0x10) (hf : gmmFlt i (s.jobOf n) = none)
    (hb : s.bindAll (sliceOf 2 n) (s.jobOf n) (.own n) (gmmOperands i) = (s', .inr b)) (ha : gmmAlias b i = none)
    (ht : s'.tableFlt n i = none) : s.gmmRun n i = s'.gmmWork n i b := by
  simp only [State.gmmRun, hf, hop, unitOfOp_gmm, hb, ha, ht, firstFlt]

/-! ### gact (R113, R217) -/

/-- What a gact computes for element l of D, on lane l mod 256. -/
def State.gactItem (s : State) (n : Nat) (b : Bound) (i : Insn) (l : Nat) : Res × Bool :=
  (⟨l, l % 256, (s.gactElem n b i l).1⟩, (s.gactElem n b i l).2)

/-- The results of a gact in the order of its work. -/
def State.gactItems (s : State) (n : Nat) (b : Bound) (i : Insn) : List (Res × Bool) :=
  (List.range (i.td roleD).count).map (s.gactItem n b i)

/-- A gact that uses no poisoned element counts its inputs above the window, and writes all its results. -/
theorem gactWork_clean (hop : i.op = 0x18) (hp : s.poisonFlt b ((gactSources i).map fun r => (r, i.td r)) = none) :
    s.gactWork n i b = (({ s with freeCtr := s.freeCtr + 4 * (i.td roleD).count + 4 } : State).countAbove n
      (s.gactItems n b i)).resultsDone n 4 i b ((s.gactItems n b i).map Prod.fst) := by
  simp only [State.gactWork, hp, checkOf_wrote, hop, unitOfOp_gact]
  rfl

/-- A gact whose checks pass, and whose operands are bound to pages, does its work. -/
theorem gactRun_passes (hop : i.op = 0x18) (hf : gactFlt i (s.jobOf n) = none)
    (hb : s.bindAll (sliceOf 4 n) (s.jobOf n) (.own n) (⟨roleD, i.td roleD, false, true⟩ ::
      (gactSources i).map fun r => ⟨r, i.td r, true, (i.td r).same (i.td roleD)⟩) = (s', .inr b))
    (ht : s'.tableFlt n i = none) : s.gactRun n i = s'.gactWork n i b := by
  simp only [State.gactRun, hf, hop, unitOfOp_gact, hb, ht]

/-! ### tload (R109, R110) -/

/-- A tload whose checks pass, and whose image names an E0 from -126 to 112, loads its table and is done. -/
theorem tloadRun_passes (hop : i.op = 0x19) (hf : tloadFlt i (s.jobOf n) = none)
    (hb : s.bindAll (sliceOf 4 n) (s.jobOf n) (.own n) [⟨roleA, i.td roleA, true, false⟩] = (s', .inr b))
    (hp : s'.poisonFlt b [(roleA, i.td roleA)] = none)
    (hlo : -126 ≤ signed 16 (natOf (slice 0 2 (s'.tableImage b (i.td roleA)))))
    (hhi : signed 16 (natOf (slice 0 2 (s'.tableImage b (i.td roleA)))) ≤ 112) :
    s.tloadRun n i = (s'.loadTable n (i.mod 0 0) (s'.tableImage b (i.td roleA))).markDone n i.tag Cnt.none := by
  have he : ¬(signed 16 (natOf (slice 0 2 (s'.tableImage b (i.td roleA)))) < -126 ∨
      112 < signed 16 (natOf (slice 0 2 (s'.tableImage b (i.td roleA))))) := by omega
  simp only [State.tloadRun, hf, hop, unitOfOp_tload, hb, hp, if_neg he]

end

/-! ### The commands of Garnet's instructions -/

/-- An instruction that goes carries the opcode of its command. -/
theorem op_of_goes {s : State} {n op : Nat} {i : Insn} (h : s.goes n op i) : i.op = op := by
  obtain ⟨_, ⟨_, _, hop, _⟩, _⟩ := h
  exact hop

section
variable {c : CoreIx} {s : State} {i : Insn}

theorem exec_gmm_goes (h : s.goes c.val 0x10 i) :
    exec (.gmm c) s = .next (((s.sent c.val i).gmmRun c.val i).keeping s) :=
  live_of_goes h (fun s i => s.garnetFree c.val i) (fun s i => s.gmmRun c.val i) rfl

theorem exec_gact_goes (h : s.goes c.val 0x18 i) :
    exec (.gact c) s = .next (((s.sent c.val i).gactRun c.val i).keeping s) :=
  live_of_goes h (fun s i => s.tableSettled c.val i && s.drawTurn c.val i) (fun s i => s.gactRun c.val i) rfl

theorem exec_tload_goes (h : s.goes c.val 0x19 i) :
    exec (.tload c) s = .next (((s.sent c.val i).tloadRun c.val i).keeping s) :=
  live_of_goes h (fun s i => !(s.earlier c.val i.tag).any fun y => y.table == some (i.mod 0 0))
    (fun s i => s.tloadRun c.val i) rfl

end

/-- Settles O11: an instruction that goes runs in its unit, and one that passes its checks writes the items of its work; the
statement lists each item beside the element or the index that it is for. -/
theorem garnetInstructionsRun : Obligations.GarnetInstructionsRun := by
  unfold Obligations.GarnetInstructionsRun
  intro c s s' i b
  refine ⟨?_, ?_, ?_⟩
  · intro out u w hg hf hb ha ht hp
    have hop := op_of_goes hg
    have hr : out.map (fun r => (⟨lin (i.td roleD).sizes ([r.1.2.1, r.1.1] ++ r.1.2.2.1), r.1.2.2.2, r.2.1⟩, r.2.2)) =
        s'.gmmItems c.val b i := List.map_map
    have hv : out.map (fun r => ⟨lin (i.td roleD).sizes ([r.1.2.1, r.1.1] ++ r.1.2.2.1), r.1.2.2.2, r.2.1⟩) =
        (s'.gmmItems c.val b i).map Prod.fst := by
      simp only [out, State.gmmItems, List.map_map]
      rfl
    rw [exec_gmm_goes hg, gmmRun_passes (s := s.sent c.val i) hop hf hb ha ht, gmmWork_clean hop hp]
    simp only [w, u, hr, hv, State.resultsDone]
  · intro out u w hg hf hb ht hp
    have hop := op_of_goes hg
    have hr : (out.filter fun r => r.2.2).length = ((s'.gactItems c.val b i).filter fun r => r.2).length := by
      simp only [out, State.gactItems, List.filter_map, List.length_map]
      rfl
    have hv : out.map (fun r => ⟨r.1, r.1 % 256, r.2.1⟩) = (s'.gactItems c.val b i).map Prod.fst := by
      simp only [out, State.gactItems, List.map_map]
      rfl
    rw [exec_gact_goes hg, gactRun_passes (s := s.sent c.val i) hop hf hb ht, gactWork_clean hop hp]
    simp only [w, u, hr, hv, State.resultsDone, State.countAbove]
  · intro data hg hf hb hp hlo hhi
    rw [exec_tload_goes hg, tloadRun_passes (s := s.sent c.val i) (op_of_goes hg) hf hb hp hlo hhi]

/-! ### One tile under a request (R105, R107) -/

section
variable {s : State} {n t : Nat}

/-- A request that would take a tile out of service does so, but where the tile is the last one the core is retired. -/
theorem fenceTile_inService (h : s.tileState n t < 2) :
    s.fenceTile n .test t = (if s.lastTile n then s.retireLast n else s.putTile n t 2) ∧
      s.fenceTile n .retire t = (if s.lastTile n then s.retireLast n else s.putTile n t 3) := by
  have h2 : s.tileState n t ≠ 2 := by omega
  have h3 : s.tileState n t ≠ 3 := by omega
  exact ⟨if_neg (by omega), (if_neg h2).trans (if_neg h3)⟩

/-- A tile fenced for test is retired, or goes back into service, under observation if it was. -/
theorem fenceTile_fenced (h : s.tileState n t = 2) :
    s.fenceTile n .retire t = s.putTile n t 3 ∧
      s.fenceTile n .unfence t = s.putTile n t (if bitOf (s.get (Reg.ERR.OBS_OBSERVED n)) t then 1 else 0) := by
  simp [State.fenceTile, h]

/-- A retired tile stays retired. -/
theorem fenceTile_retired (h : s.tileState n t = 3) (k : FenceKind) : s.fenceTile n k t = s := by
  cases k <;> simp [State.fenceTile, h]

end

/-! ### The commands of fences (R105, R118, R550) -/

section
variable {c : CoreIx} {s : State} (mask : BitVec 8)

theorem exec_fenceReq (sill : Bool) :
    exec (.fenceReq c mask sill) s = whenBar s sill fun s => s.fenceField c.val .test mask.toNat 0 sill := rfl

theorem exec_unfenceReq (sill : Bool) :
    exec (.unfenceReq c mask sill) s = whenBar s sill fun s => s.fenceField c.val .unfence mask.toNat 8 sill := rfl

theorem exec_retireReq (sill : Bool) :
    exec (.retireReq c mask sill) s = whenBar s sill fun s => s.fenceField c.val .retire mask.toNat 16 sill := rfl

theorem exec_tileFenceEffect : exec (.tileFenceEffect c) s =
    whenLive s fun s => (s.fenceEffect c.val).resweep c.val (s.get (Reg.CORE.IN_SERVICE c.val)) := rfl

/-- A write of Sill firmware to a field of the fences of a core that is present takes its tiles one after another: a request
takes effect at once, or waits for the end of the sweep. -/
theorem fenceField_sill {n m : Nat} (hp : s.present n = true) (k : FenceKind) (shift : Nat) :
    s.fenceField n k m shift true = ((List.range 8).filter (bitOf m)).foldl (fun (t : State) b =>
      if t.get (Reg.CORE.GARNET_TAG n) = 0 ∨ (k = .retire ∧ t.tileState n b = 2) then t.fenceTile n k b
      else t.setCore n { t.core n with fences := (t.core n).fences ++ [(k, b)] }) s := by
  simp only [State.fenceField, if_true, State.fenceWrite, hp, Bool.not_true, Bool.false_eq_true, if_false]

/-- The host's write of a mask that is not zero is refused, and recorded at the field's place. -/
theorem fenceField_host {n m : Nat} (hp : s.present n = true) (hm : m ≠ 0) (k : FenceKind) (shift : Nat) :
    s.fenceField n k m shift false = s.hostRefused (coreBase n + 0x4008) (m * 2 ^ shift) := by
  simp only [State.fenceField, Bool.false_eq_true, if_false, if_pos (And.intro hp hm)]

end

/-- Settles O30: a request acts by the state of its tile, each command is its write to the core's fences, and at the end of a
sweep the requests that waited act in order. -/
theorem tileFencesAct : Obligations.TileFencesAct := by
  unfold Obligations.TileFencesAct
  intro c mask s
  refine ⟨fun n t => ⟨fun h hl => ?_, fun h hl => ?_, fenceTile_fenced, fun h =>
    ⟨fenceTile_retired h _, fenceTile_retired h _, fenceTile_retired h _⟩⟩, ?_, ?_, ?_⟩
  · simpa only [hl, Bool.false_eq_true, if_false] using fenceTile_inService h
  · simpa only [hl, if_true] using fenceTile_inService h
  · intro go hu hp
    refine ⟨?_, ?_, ?_⟩
    · rw [exec_fenceReq, whenBar_open hu (.inr rfl), fenceField_sill hp]
    · rw [exec_unfenceReq, whenBar_open hu (.inr rfl), fenceField_sill hp]
    · rw [exec_retireReq, whenBar_open hu (.inr rfl), fenceField_sill hp]
  · intro hu hd hp hm
    have hz : mask.toNat ≠ 0 := fun h => hm (BitVec.eq_of_toNat_eq h)
    refine ⟨?_, ?_, ?_⟩
    · rw [exec_fenceReq, whenBar_open hu (.inl hd), fenceField_host hp hz, pow_zero, mul_one]
    · rw [exec_unfenceReq, whenBar_open hu (.inl hd), fenceField_host hp hz]
    · rw [exec_retireReq, whenBar_open hu (.inl hd), fenceField_host hp hz]
  · intro hu
    rw [exec_tileFenceEffect, whenLive_up hu, State.fenceEffect]

end Sys2Proof.Machine
end

section
/-!
PROOFS. That the order of bsort is a sort, and a stable one (chapter 5).
-/

namespace Sys2Proof.Machine

/-! ### The order of bsort (R134) -/

section
variable {desc : Bool} {x y z : Int × Nat} {l acc : List (Int × Nat)}

/-- A key with its position stands before another one: its key comes first, or the keys are equal and its position is the
lower one. -/
def keyBefore (desc : Bool) (x y : Int × Nat) : Prop :=
  (if desc then y.1 < x.1 else x.1 < y.1) ∨ (x.1 = y.1 ∧ x.2 < y.2)

/-- The insertion of x passes y by. -/
def insPasses (desc : Bool) (x y : Int × Nat) : Prop := if desc then x.1 ≤ y.1 else y.1 ≤ x.1

theorem insKey_cons_insPasses (h : insPasses desc x y) : insKey desc x (y :: l) = y :: insKey desc x l := if_pos h

theorem insKey_cons_not_insPasses (h : ¬insPasses desc x y) : insKey desc x (y :: l) = x :: y :: l := if_neg h

theorem keyBefore_trans (hxy : keyBefore desc x y) (hyz : keyBefore desc y z) : keyBefore desc x z := by
  cases desc <;> simp only [keyBefore, Bool.false_eq_true, if_true, if_false] at hxy hyz ⊢ <;> omega

/-- A key that an insertion passes by stands before the inserted one, where its position is the lower one. -/
theorem keyBefore_of_insPasses (hp : y.2 < x.2) (h : insPasses desc x y) : keyBefore desc y x := by
  cases desc <;> simp only [insPasses, keyBefore, Bool.false_eq_true, if_true, if_false] at h ⊢ <;> omega

/-- A key that an insertion does not pass by stands behind the inserted one. -/
theorem keyBefore_of_not_insPasses (h : ¬insPasses desc x y) : keyBefore desc x y := by
  cases desc <;> simp only [insPasses, keyBefore, Bool.false_eq_true, if_true, if_false] at h ⊢ <;> omega

theorem insKey_perm (desc : Bool) (x : Int × Nat) : ∀ l, (insKey desc x l).Perm (x :: l)
  | [] => .rfl
  | y :: r => by
    by_cases h : insPasses desc x y
    · rw [insKey_cons_insPasses h]
      exact ((insKey_perm desc x r).cons y).trans (.swap x y r)
    · rw [insKey_cons_not_insPasses h]

/-- A key inserted behind all lower positions keeps the order. -/
theorem insKey_pairwise (hl : l.Pairwise (keyBefore desc)) (hx : ∀ y ∈ l, y.2 < x.2) :
    (insKey desc x l).Pairwise (keyBefore desc) := by
  induction l with
  | nil => exact List.pairwise_singleton _ _
  | cons y r ih =>
    obtain ⟨hy, hr⟩ := List.pairwise_cons.mp hl
    obtain ⟨hyx, hrx⟩ := List.forall_mem_cons.mp hx
    by_cases h : insPasses desc x y
    · rw [insKey_cons_insPasses h]
      refine List.pairwise_cons.mpr ⟨fun z hz => ?_, ih hr hrx⟩
      obtain rfl | hz := List.mem_cons.mp ((insKey_perm desc x r).mem_iff.mp hz)
      · exact keyBefore_of_insPasses hyx h
      · exact hy z hz
    · rw [insKey_cons_not_insPasses h]
      have hxy := keyBefore_of_not_insPasses h
      exact List.pairwise_cons.mpr ⟨List.forall_mem_cons.mpr ⟨hxy, fun z hz => keyBefore_trans hxy (hy z hz)⟩, hl⟩

/-- Keys inserted one after another, in the order of their positions, come into their order, and none is lost. -/
theorem foldl_insKey (hacc : acc.Pairwise (keyBefore desc)) (hl : l.Pairwise fun x y => x.2 < y.2)
    (hal : ∀ y ∈ acc, ∀ x ∈ l, y.2 < x.2) :
    (l.foldl (fun acc x => insKey desc x acc) acc).Perm (l ++ acc) ∧
      (l.foldl (fun acc x => insKey desc x acc) acc).Pairwise (keyBefore desc) := by
  induction l generalizing acc with
  | nil => exact ⟨.rfl, hacc⟩
  | cons x r ih =>
    obtain ⟨hx, hr⟩ := List.pairwise_cons.mp hl
    have hins := insKey_perm desc x acc
    have hbelow : ∀ y ∈ insKey desc x acc, ∀ z ∈ r, y.2 < z.2 := fun y hy z hz =>
      (List.mem_cons.mp (hins.mem_iff.mp hy)).elim (fun h => h ▸ hx z hz) fun h => hal y h z (List.mem_cons_of_mem x hz)
    obtain ⟨hperm, hsorted⟩ := ih (insKey_pairwise hacc fun y hy => hal y hy x List.mem_cons_self) hr hbelow
    exact ⟨(hperm.trans (hins.append_left r)).trans List.perm_middle, hsorted⟩

end

theorem zipIdx_positions_pairwise (l : List Int) : l.zipIdx.Pairwise fun x y => x.2 < y.2 := by
  rw [← List.pairwise_map (f := Prod.snd) (R := (· < ·)), List.zipIdx_map_snd]
  exact List.pairwise_lt_range'

theorem sortKeys_perm (desc : Bool) (l : List Int) : (sortKeys desc l).Perm l.zipIdx := by
  simpa only [sortKeys, List.append_nil] using (foldl_insKey .nil (zipIdx_positions_pairwise l) (List.forall_mem_nil _)).1

theorem sortKeys_pairwise (desc : Bool) (l : List Int) : (sortKeys desc l).Pairwise (keyBefore desc) :=
  (foldl_insKey .nil (zipIdx_positions_pairwise l) (List.forall_mem_nil _)).2

/-- Settles O55: the sorted list is a permutation of the keys with their positions, and every insertion keeps its order, as keys
are inserted by ascending positions. -/
theorem sortIsStable : Obligations.SortIsStable := by
  unfold Obligations.SortIsStable
  intro desc l out
  have hperm := sortKeys_perm desc l
  refine ⟨?_, fun e he => List.mem_zipIdx_iff_getElem?.mp (hperm.mem_iff.mp he), sortKeys_pairwise desc l⟩
  rw [List.range_eq_range', ← List.zipIdx_map_snd 0 l]
  exact hperm.map Prod.snd

end Sys2Proof.Machine
end

section
/-!
PROOFS. What Beryl's instructions do on their normal path: bgather, bscatter, bsort, bgroup, bragged, bunpack and baudit
(chapter 5).
-/

namespace Sys2Proof.Machine

/-! ### What an instruction that begins, or that counts, leaves: it writes registers alone (R156) -/

section
variable {β : Type} {g : State → β} (hg : ∀ (s : State) f v, g (s.put f v) = g s) (s : State) (n : Nat) (b : Bound) (i : Insn)
include hg

theorem berylBegin_part (k : Nat) : g (s.berylBegin n i k) = g s := by
  rw [berylBegin_reads, State.inc, hg, hg, hg]

theorem fetchUnits_part (units : List Nat) : g (s.fetchUnits n units) = g s := by
  simp only [State.fetchUnits, State.addConflict, State.inc, hg]

theorem scatterBegin_part : g (s.scatterBegin n b i) = g s := by
  rw [State.scatterBegin, State.inc, hg, berylBegin_part hg]

theorem scatterCount_part (idx : List Int) : g (s.scatterCount n b i idx) = g s := by
  rw [State.scatterCount, fetchUnits_part hg, State.inc, hg, State.inc, hg]

end

section
variable (s : State) (n : Nat) (b : Bound) (i : Insn)

@[simp] theorem tileData_put (f : Fld) (v k : Nat) : (s.put f v).tileData b i k = s.tileData b i k := rfl
@[simp] theorem tilePoison_put (f : Fld) (v k : Nat) : (s.put f v).tilePoison b i k = s.tilePoison b i k := rfl
@[simp] theorem tileFlt_put (f : Fld) (v : Nat) (e : TilePos × Nat) : (s.put f v).tileFlt b i e = s.tileFlt b i e := by
  rw [State.tileFlt, State.tileFlt, tilePoison_put, tileData_put]

@[simp] theorem berylBegin_poisonFlt (k : Nat) (l : List (Nat × TD)) :
    (s.berylBegin n i k).poisonFlt b l = s.poisonFlt b l :=
  berylBegin_part (g := (·.poisonFlt b l)) (fun _ _ _ => rfl) ..
@[simp] theorem berylIndexed_poisonFlt (k m : Nat) (f : Fld) (l : List (Nat × TD)) :
    ((s.berylBegin n i k).inc f m).poisonFlt b l = s.poisonFlt b l :=
  (poisonFlt_inc ..).trans (berylBegin_poisonFlt ..)
@[simp] theorem berylBegin_poisonedElems (k : Nat) (d : TD) (l : List (List Nat)) :
    (s.berylBegin n i k).poisonedElems b d l = s.poisonedElems b d l :=
  berylBegin_part (g := (·.poisonedElems b d l)) (fun _ _ _ => rfl) ..
@[simp] theorem berylBegin_hotRow (k : Nat) : (s.berylBegin n i k).hotRow b i = s.hotRow b i :=
  berylBegin_part (g := (·.hotRow b i)) (fun _ _ _ => rfl) ..
@[simp] theorem berylBegin_auditEls (k : Nat) (l : List Nat) : (s.berylBegin n i k).auditEls b i l = s.auditEls b i l :=
  berylBegin_part (g := (·.auditEls b i l)) (fun _ _ _ => rfl) ..
@[simp] theorem berylBegin_tileFlt (k : Nat) (e : TilePos × Nat) : (s.berylBegin n i k).tileFlt b i e = s.tileFlt b i e :=
  berylBegin_part (g := (·.tileFlt b i e)) (fun s f v => tileFlt_put s b i f v e) ..
@[simp] theorem berylBegin_unpacked (k : Nat) (l : List (TilePos × Nat)) :
    (s.berylBegin n i k).unpacked b i l = s.unpacked b i l :=
  berylBegin_part (g := (·.unpacked b i l)) (fun _ _ _ => rfl) ..

@[simp] theorem scatterBegin_poisonFlt (l : List (Nat × TD)) : (s.scatterBegin n b i).poisonFlt b l = s.poisonFlt b l :=
  scatterBegin_part (g := (·.poisonFlt b l)) (fun _ _ _ => rfl) ..
@[simp] theorem scatterCounted_mergePoison (idx : List Int) (pos : List Nat) (r : Nat) :
    ((s.scatterBegin n b i).scatterCount n b i idx).mergePoison b i pos r = s.mergePoison b i pos r :=
  (scatterCount_part (g := (·.mergePoison b i pos r)) (fun _ _ _ => rfl) ..).trans
    (scatterBegin_part (g := (·.mergePoison b i pos r)) (fun _ _ _ => rfl) ..)
@[simp] theorem scatterCounted_mergeRows (idx : List Int) (l : List Nat) :
    ((s.scatterBegin n b i).scatterCount n b i idx).mergeRows b i idx l = s.mergeRows b i idx l :=
  (scatterCount_part (g := (·.mergeRows b i idx l)) (fun _ _ _ => rfl) ..).trans
    (scatterBegin_part (g := (·.mergeRows b i idx l)) (fun _ _ _ => rfl) ..)
@[simp] theorem scatterCounted_scatterRows (idx : List Int) :
    ((s.scatterBegin n b i).scatterCount n b i idx).scatterRows b i idx = s.scatterRows b i idx :=
  (scatterCount_part (g := (·.scatterRows b i idx)) (fun _ _ _ => rfl) ..).trans
    (scatterBegin_part (g := (·.scatterRows b i idx)) (fun _ _ _ => rfl) ..)

end

/-! ### The commands of Beryl's instructions (R120, R152) -/

section
variable {c : CoreIx} {s s' : State} {i : Insn} {b : Bound}

theorem exec_bgather_taken (h : s.berylTakes c.val 0x20 i (bgatherFlt i (s.jobOf c.val)) s' b) :
    exec (.bgather c) s = .next ((s'.bgatherWork c.val i b).keeping s) :=
  live_of_beryl h (fun s i => s.berylFree c.val i) (fun s i => bgatherFlt i (s.jobOf c.val)) (State.bgatherWork c.val) rfl rfl

theorem exec_bscatter_taken (h : s.berylTakes c.val 0x21 i (bscatterFlt i (s.jobOf c.val)) s' b) :
    exec (.bscatter c) s = .next ((s'.bscatterWork c.val i b).keeping s) :=
  live_of_beryl h (fun s i => s.berylFree c.val i) (fun s i => bscatterFlt i (s.jobOf c.val)) (State.bscatterWork c.val) rfl rfl

theorem exec_bsort_taken (h : s.berylTakes c.val 0x22 i (bsortFlt i (s.jobOf c.val)) s' b) :
    exec (.bsort c) s = .next ((s'.bsortWork c.val i b).keeping s) :=
  live_of_beryl h (fun s i => s.berylFree c.val i) (fun s i => bsortFlt i (s.jobOf c.val)) (State.bsortWork c.val) rfl rfl

theorem exec_bgroup_taken (h : s.berylTakes c.val 0x23 i (bgroupFlt i (s.jobOf c.val)) s' b) :
    exec (.bgroup c) s = .next ((s'.bgroupWork c.val i b).keeping s) :=
  live_of_beryl h (fun s i => s.berylFree c.val i) (fun s i => bgroupFlt i (s.jobOf c.val)) (State.bgroupWork c.val) rfl rfl

theorem exec_bragged_taken (h : s.berylTakes c.val 0x24 i (braggedFlt i (s.jobOf c.val)) s' b) :
    exec (.bragged c) s = .next ((s'.braggedWork c.val i b).keeping s) :=
  live_of_beryl h (fun s i => s.berylFree c.val i) (fun s i => braggedFlt i (s.jobOf c.val)) (State.braggedWork c.val) rfl rfl

theorem exec_bunpack_taken (h : s.berylTakes c.val 0x25 i (bunpackFlt i (s.jobOf c.val)) s' b) :
    exec (.bunpack c) s = .next ((s'.bunpackWork c.val i b).keeping s) :=
  live_of_beryl h (fun s i => s.berylFree c.val i) (fun s i => bunpackFlt i (s.jobOf c.val)) (State.bunpackWork c.val) rfl rfl

theorem exec_baudit_taken (h : s.berylTakes c.val 0x26 i (bauditFlt i (s.jobOf c.val)) s' b) :
    exec (.baudit c) s = .next ((s'.bauditWork c.val i b).keeping s) :=
  live_of_beryl h (fun s i => s.berylFree c.val i) (fun s i => bauditFlt i (s.jobOf c.val)) (State.bauditWork c.val) rfl rfl

end

/-! ### The work of each instruction where nothing stops it -/

/-- A Beryl instruction that writes no marked element writes them all and is done (R184). -/
theorem berylEnd_unmarked {s : State} {n : Nat} {i : Insn} {b : Bound} {role : Nat} {d : TD} {l : List El} {c : Cnt}
    (h : ∀ e ∈ l, e.mark = false) : s.berylEnd n i b role d l c = s.berylDone n i b l c :=
  berylEnd_clean s n i b role d l c (killSectors_unmarked b l h)

/-! #### bgather (R122 to R128) -/

section
variable {s : State} {n : Nat} {i : Insn} {b : Bound} {idx : List Int}

/-- A bgather whose indices all name rows of A, or are padding, writes a row for each of them. -/
theorem bgatherWork_clean (hidx : s.ints b (i.td roleB) = idx)
    (hp : s.poisonFlt b ((roleB, i.td roleB) :: (if i.mod 2 2 = 1 then [(roleX, i.td roleX)] else [])) = none)
    (hb : badIndex idx (s.gatherMask b i) (i.td roleA).rows = none)
    (hk : killSectors b (s.gatherRows b i idx.length) = []) :
    s.bgatherWork n i b =
      ((s.berylBegin n i (32 + ceilDiv (idx.length * (i.td roleA).rowPieces) 64)).gatherCount n b i idx.length
        (List.range idx.length)).berylDone n i b (s.gatherRows b i idx.length) Cnt.none := by
  simp only [State.bgatherWork, hidx, berylBegin_poisonFlt, hp, hb, Option.getD_none, min_eq_left (Nat.le_succ _),
    berylEnd_clean _ _ _ _ _ _ _ _ hk]

/-! #### bscatter (R129 to R133) -/

theorem mergeEls_unmarked (w : Nat) (out : List (Nat × Nat × Cnt)) : ∀ e ∈ (mergeEls w out).map Prod.fst, e.mark = false := by
  intro e he
  obtain ⟨_, hx, rfl⟩ := List.mem_map.mp he
  obtain ⟨_, _, rfl⟩ := List.mem_map.mp hx
  rfl

/-- A bscatter ADD whose indices all name rows of D, or are padding, merges the named rows where none of them has a poisoned
contribution (R130, R131). -/
theorem bscatterWork_add {rows : List Nat} (hidx : s.ints b (i.td roleB) = idx)
    (hrows : namedRows idx (i.td roleD).rows = rows)
    (hp : s.poisonFlt b ((roleB, i.td roleB) :: (if i.mod 4 4 = 1 then [(roleX, i.td roleX)] else [])) = none)
    (hb : badIndex idx [] (i.td roleD).rows = none) (hadd : i.mod 2 2 = 1)
    (hm : ∀ r ∈ rows, s.mergePoison b i (positionsOf idx r) r = none) :
    s.bscatterWork n i b = ((s.scatterBegin n b i).scatterCount n b i idx).berylDone n i b
      ((mergeEls (i.td roleD).wbits (s.mergeRows b i idx rows)).map Prod.fst)
      ((s.mergeRows b i idx rows).foldl (fun k e => k.add e.2.2) Cnt.none) := by
  have hbad : rows.filterMap (fun r => s.mergePoison b i (positionsOf idx r) r) = [] := List.filterMap_eq_nil_iff.mpr hm
  have hgood : rows.filter (fun r => (s.mergePoison b i (positionsOf idx r) r).isNone) = rows :=
    List.filter_eq_self.mpr fun r hr => by rw [hm r hr, Option.isNone_none]
  simp only [State.bscatterWork, hidx, hrows, scatterBegin_poisonFlt, hp, hb, hadd, beq_self_eq_true, Bool.not_true,
    Bool.false_and, Bool.false_eq_true, if_false, if_true, scatterCounted_mergePoison, scatterCounted_mergeRows, hbad, hgood,
    berylEnd_unmarked (mergeEls_unmarked _ _)]

/-- A bscatter without ADD whose indices all name rows of D, or are padding, copies the named rows where no row is named twice
or D is ordered (R129, R133). -/
theorem bscatterWork_copy (hidx : s.ints b (i.td roleB) = idx)
    (hp : s.poisonFlt b ((roleB, i.td roleB) :: (if i.mod 4 4 = 1 then [(roleX, i.td roleX)] else [])) = none)
    (hb : badIndex idx [] (i.td roleD).rows = none) (hcopy : i.mod 2 2 = 0)
    (hd : dupCount idx (i.td roleD).rows = 0 ∨ (i.td roleD).ordered = true)
    (hk : killSectors b (s.scatterRows b i idx) = []) :
    s.bscatterWork n i b =
      ((s.scatterBegin n b i).scatterCount n b i idx).berylDone n i b (s.scatterRows b i idx) Cnt.none := by
  have hadd : (i.mod 2 2 == 1) = false := by rw [hcopy]; rfl
  have hdup : (dupCount idx (i.td roleD).rows != 0 && !(i.td roleD).ordered) = false := by
    rcases hd with h | h <;> simp [h]
  simp only [State.bscatterWork, hidx, scatterBegin_poisonFlt, hp, hb, hadd, Bool.not_false, Bool.true_and, hdup,
    Bool.false_eq_true, if_false, scatterCounted_scatterRows, berylEnd_clean _ _ _ _ _ _ _ _ hk]

end

/-! #### bsort (R134) -/

section
variable {s : State} {n : Nat} {i : Insn} {b : Bound}

/-- What a bsort writes: the sorted keys and, where it is asked for them, their positions. -/
def Insn.sortEls (i : Insn) (out : List (Int × Nat)) : List El :=
  (out.zipIdx.map fun e => (i.td roleD).el [e.2] (unsigned (i.td roleD).wbits e.1.1)) ++
    (if i.mod 3 3 = 1 then out.zipIdx.map fun e => (i.td roleX).el [e.2] e.1.2 else [])

theorem sortEls_unmarked (out : List (Int × Nat)) : ∀ e ∈ i.sortEls out, e.mark = false := by
  intro e he
  rw [Insn.sortEls, List.mem_append] at he
  split at he
  · rcases he with he | he <;> obtain ⟨_, _, rfl⟩ := List.mem_map.mp he <;> rfl
  · obtain ⟨_, _, rfl⟩ := List.mem_map.mp (he.resolve_right List.not_mem_nil)
    rfl

/-- A bsort whose keys are not poisoned writes them in their order. -/
theorem bsortWork_clean {keys : List Int} (hkeys : s.ints b (i.td roleB) = keys)
    (hp : s.poisonFlt b [(roleB, i.td roleB)] = none) :
    s.bsortWork n i b =
      ((s.berylBegin n i (32 + sortBeats keys.length)).inc (Reg.CORE.BERYL_INDICES n) keys.length).berylDone n i b
        (i.sortEls (sortKeys (i.mod 2 2 == 1) keys)) Cnt.none := by
  simp only [State.bsortWork, hkeys, berylIndexed_poisonFlt, hp]
  exact berylEnd_unmarked (sortEls_unmarked _)

/-! #### bgroup (R135 to R139) -/

/-- Counting leaves the seed of the audit, and so its tail (R138). -/
theorem auditTail_put {f : Fld} (h : (Reg.CORE.AUDIT_SEED n).key ≠ f.key) (v : Nat) (counts : List Int) :
    (s.put f v).auditTail n i counts = s.auditTail n i counts := by
  rw [State.auditTail, State.auditTail, State.get_put_ne _ _ _ _ h]

theorem berylIndexed_auditTail (k m : Nat) (counts : List Int) :
    ((s.berylBegin n i k).inc (Reg.CORE.BERYL_INDICES n) m).auditTail n i counts = s.auditTail n i counts := by
  have hne {f : Fld} (h : f ∈ [Reg.CORE.BERYL_INDICES n, Reg.CORE.BERYL_BUSY n, Reg.CORE.BERYL_PHASE n, Reg.CORE.BERYL_TAG n]) :
      (Reg.CORE.AUDIT_SEED n).key ≠ f.key := by
    fin_cases h <;> simp only [Fld.key, Reg.CORE.AUDIT_SEED, Reg.CORE.BERYL_INDICES, Reg.CORE.BERYL_BUSY,
      Reg.CORE.BERYL_PHASE, Reg.CORE.BERYL_TAG] <;> omega
  rw [berylBegin_reads, State.inc, auditTail_put (hne (by simp)), State.inc, auditTail_put (hne (by simp)),
    auditTail_put (hne (by simp)), auditTail_put (hne (by simp))]

theorem groupEls_unmarked (placed : List Nat × List (Nat × Nat × Nat)) (tail : List Nat) :
    ∀ e ∈ i.groupEls placed tail, e.mark = false := by
  intro e he
  rcases List.mem_append.mp he with he | he <;> obtain ⟨_, _, rfl⟩ := List.mem_map.mp he <;> rfl

/-- A bgroup whose counts are not negative, and whose row numbers D can hold, writes its groups and its table. -/
theorem bgroupWork_clean {counts : List Int} {tail : List Nat} (hcounts : s.groupCounts b i = counts)
    (htail : s.auditTail n i counts = tail) (hp : s.poisonFlt b [(roleB, i.td roleB)] = none)
    (hc : ∀ p, p < counts.length → 0 ≤ counts.getD p 0)
    (hr : (i.td roleD).type = 0x0C → ∀ r ∈ (i.placed counts).1 ++ tail, r < 2 ^ 31) :
    s.bgroupWork n i b = ((((s.berylBegin n i (32 + 2 * (if (i.td roleB).type = 0x0F then
      max (ceilDiv counts.length 64) (ceilDiv (i.td roleB).maskBytes 2048) else ceilDiv counts.length 64))).inc
        (Reg.CORE.BERYL_INDICES n) counts.length).inc (Reg.CORE.BERYL_DROPPED n)
          (if i.mod 2 2 = 1 then (groupRows counts 0).length - tail.length else 0)).inc
            (Reg.CORE.AUDIT_SAMPLED n) tail.length).berylDone n i b (i.groupEls (i.placed counts) tail) Cnt.none := by
  have hneg : (List.range counts.length).find? (fun p => decide (counts.getD p 0 < 0)) = none :=
    List.find?_eq_none.mpr fun p hm => by simpa using hc p (List.mem_range.mp hm)
  have hbig : (if (i.td roleD).type = 0x0C then ((i.placed counts).1 ++ tail).zipIdx.find? (fun e => decide (2 ^ 31 ≤ e.1))
      else none) = none := by
    split
    next ht => exact List.find?_eq_none.mpr fun e he => by simpa using hr ht e.1 (List.fst_mem_of_mem_zipIdx he)
    next => rfl
  simp only [State.bgroupWork, hcounts, berylIndexed_poisonFlt, hp, hneg, berylIndexed_auditTail, htail, hbig,
    berylEnd_unmarked (groupEls_unmarked _ _)]

/-! #### bragged (R140) -/

theorem raggedEls_unmarked (d : TD) (off perm : List Int) : ∀ e ∈ raggedEls d off perm, e.mark = false := by
  intro e he
  obtain ⟨_, hcol, he⟩ := List.mem_flatten.mp he
  obtain ⟨_, _, rfl⟩ := List.mem_map.mp hcol
  obtain ⟨_, _, rfl⟩ := List.mem_map.mp he
  rfl

/-- A bragged whose offsets, sequences and columns are in their ranges writes its columns. -/
theorem braggedWork_clean {off perm : List Int} (hoff : s.ints b (i.td roleB) = off) (hperm : s.raggedPerm b i = perm)
    (hp : s.poisonFlt b ((if i.mod 3 3 = 1 then [(roleA, i.td roleA)] else []) ++ [(roleB, i.td roleB)]) = none)
    (ho : badOffset off = none) (hi : badIndex perm [] (off.length - 1) = none)
    (hc : badColumn (i.td roleD) off perm (i.mod 2 2 == 1) = none) :
    s.braggedWork n i b = (((s.berylBegin n i (32 + 2 * ceilDiv off.length 64 +
      ceilDiv ((i.td roleD).size 0 * (i.td roleD).size 1) (if (i.td roleD).type = 0x0C then 512 else 256))).inc
        (Reg.CORE.BERYL_INDICES n) (off.length + if i.mod 3 3 = 1 then perm.length else 0)).inc
          (Reg.CORE.BERYL_TRUNC n) ((perm.map fun q => seqLen off q - (i.td roleD).size 0).sum)).berylDone n i b
            (raggedEls (i.td roleD) off perm) Cnt.none := by
  simp only [State.braggedWork, hoff, hperm, berylIndexed_poisonFlt, hp, ho, hi, hc,
    berylEnd_unmarked (raggedEls_unmarked _ _ _)]

/-! #### bunpack (R141 to R146) -/

theorem tileEls_unmarked (d : TD) (l : List (Nat × Nat)) : ∀ e ∈ tileEls d l, e.mark = false := by
  intro e he
  obtain ⟨_, _, rfl⟩ := List.mem_map.mp he
  rfl

/-- A bunpack none of whose tiles is bad expands them all. -/
theorem bunpackWork_clean {tiles : List (TilePos × Nat)} (htiles : (tilesOf (i.td roleA)).zipIdx = tiles)
    (hf : ∀ e ∈ tiles, s.tileFlt b i e = none) :
    s.bunpackWork n i b = ((s.berylBegin n i (32 + 2 * tiles.length)).tileCount n b i tiles).berylDone n i b
      (s.unpacked b i tiles) Cnt.none := by
  have hbad : tiles.findIdx? (fun e => (s.tileFlt b i e).isSome) = none :=
    List.findIdx?_eq_none_iff.mpr fun e he => by rw [hf e he, Option.isSome_none]
  simp only [State.bunpackWork, htiles, berylBegin_tileFlt, hbad, berylBegin_unpacked]
  exact berylEnd_unmarked (tileEls_unmarked _ _)

/-! #### baudit (R147 to R149) -/

/-- Where no operand of a list is poisoned, the first one is not. -/
theorem poisonFlt_head {x : Nat × TD} {l : List (Nat × TD)} (h : s.poisonFlt b (x :: l) = none) :
    s.poisonFlt b [x] = none := by
  simp only [State.poisonFlt, List.map_cons, List.map_nil] at h ⊢
  cases hx : (s.poisonedElems b x.2 x.2.allIx).map (poisonFltOf x.1 x.2) with
  | none => rfl
  | some f => rw [hx] at h; cases h

/-- The tail that a clean group table tells. -/
theorem auditRows_clean (h : s.poisonFlt b [(roleB, i.td roleB)] = none) :
    s.auditRows b i = (s.elem b (i.td roleB) [32], s.elem b (i.td roleB) [33]) := by
  rw [State.auditRows, h]
  rfl

theorem auditEls_unmarked (rows : List Nat) : ∀ e ∈ s.auditEls b i rows, e.mark = false := by
  intro e he
  obtain ⟨_, _, rfl⟩ := List.mem_map.mp he
  rfl

/-- A baudit whose tail lies within A and D, and that reads no poison, counts its mispredictions and clears its entries. -/
theorem bauditWork_clean {first tail : Nat} {rows : List Nat} (hfirst : s.elem b (i.td roleB) [32] = first)
    (htail : s.elem b (i.td roleB) [33] = tail) (hrows : (List.range tail).map (first + ·) = rows)
    (hp : s.poisonFlt b [(roleB, i.td roleB), (roleX, i.td roleX), (roleD, i.td roleD)] = none)
    (ha : first + tail ≤ (i.td roleA).rows) (hd : first + tail ≤ (i.td roleD).count)
    (he : s.poisonedElems b (i.td roleA) ((rows.map i.rowIxs).flatten) = none) :
    s.bauditWork n i b = (((s.berylBegin n i (32 + ceilDiv (tail * (i.td roleA).size 0) 256)).auditCount n i
      (rows.filter (s.hotRow b i)).length).auditAlarm n i (rows.filter (s.hotRow b i)).length tail).berylDone n i b
        (s.auditEls b i rows) Cnt.none := by
  simp only [State.bauditWork, auditRows_clean (poisonFlt_head hp), hfirst, htail, hrows, berylBegin_poisonFlt, hp,
    if_neg (Nat.not_lt.mpr ha), if_neg (Nat.not_lt.mpr hd), berylBegin_poisonedElems, he, berylBegin_hotRow,
    berylBegin_auditEls, berylEnd_unmarked (auditEls_unmarked _)]

end

/-- Settles O13: an instruction that Beryl takes does its work, and the work that nothing stops is what each clause says. -/
theorem berylInstructionsRun : Obligations.BerylInstructionsRun := by
  unfold Obligations.BerylInstructionsRun
  intro c s s' i b
  refine ⟨?bgather, ?bscatterAdd, ?bscatterCopy, ?bsort, ?bgroup, ?bragged, ?bunpack, ?baudit⟩
  case bgather =>
    intro rows h hp hb hk
    rw [exec_bgather_taken h, bgatherWork_clean rfl hp hb hk]
  case bscatterAdd =>
    intro idx out h hp hb hadd hm
    rw [exec_bscatter_taken h, bscatterWork_add rfl rfl hp hb hadd hm]
  case bscatterCopy =>
    intro idx h hp hb hadd hd hk
    rw [exec_bscatter_taken h, bscatterWork_copy rfl hp hb hadd hd hk]
  case bsort =>
    intro keys out h hp
    rw [exec_bsort_taken h, bsortWork_clean rfl hp]
    rfl
  case bgroup =>
    intro counts m tail h hp hc hr
    rw [exec_bgroup_taken h, bgroupWork_clean rfl rfl hp hc hr]
  case bragged =>
    intro off perm h hp ho hi hc
    rw [exec_bragged_taken h, braggedWork_clean rfl rfl hp ho hi hc]
  case bunpack =>
    intro tiles h hf
    rw [exec_bunpack_taken h, bunpackWork_clean rfl hf]
  case baudit =>
    intro first tail rows h hp ha hd he
    rw [exec_baudit_taken h, bauditWork_clean rfl rfl rfl hp ha hd he]

end Sys2Proof.Machine
end

section
/-!
PROOFS. The injectivity check of a descriptor, and what it is for (chapter 6).
-/

namespace Sys2Proof.Machine

/-! ### The dimensions that the check takes, and their order (R168) -/

/-- The dimensions of size above 1, as the magnitude of their stride and their size. -/
def checkedDims (ns : List Nat) (ts : List Int) : List (Nat × Nat) :=
  ((ns.zip ts).filter fun e => decide (1 < e.1)).map fun e => (e.2.natAbs, e.1)

theorem checkedDims_cons (n : Nat) (t : Int) (ns : List Nat) (ts : List Int) :
    checkedDims (n :: ns) (t :: ts) = if 1 < n then (t.natAbs, n) :: checkedDims ns ts else checkedDims ns ts := by
  by_cases h : 1 < n <;> simp [checkedDims, h]

theorem one_lt_of_mem_checkedDims {ns : List Nat} {ts : List Int} {e : Nat × Nat} (h : e ∈ checkedDims ns ts) : 1 < e.2 := by
  obtain ⟨_, hx, rfl⟩ := List.mem_map.mp h
  exact of_decide_eq_true (List.mem_filter.mp hx).2

theorem mem_checkedDims {ns : List Nat} {ts : List Int} {n : Nat} {t : Int} (h : (n, t) ∈ ns.zip ts) (hn : 1 < n) :
    (t.natAbs, n) ∈ checkedDims ns ts :=
  List.mem_map.mpr ⟨(n, t), List.mem_filter.mpr ⟨h, decide_eq_true hn⟩, rfl⟩

theorem insDim_eq_orderedInsert (x : Nat × Nat) (l : List (Nat × Nat)) :
    insDim x l = l.orderedInsert (Prod.fst ⁻¹'o (· ≤ ·)) x := by
  induction l with
  | nil => rfl
  | cons y l ih => simp only [insDim, List.orderedInsert_cons, Order.Preimage, ih]

/-- The check is a chain over its dimensions, sorted by the magnitude of their strides. -/
theorem injective_eq_injChain (d : TD) : d.injective =
    injChain 1 ((checkedDims d.sizes d.strides).reverse.insertionSort (Prod.fst ⁻¹'o (· ≤ ·))) := by
  simp only [TD.injective, checkedDims, List.insertionSort, List.foldr_reverse, List.foldl_map, insDim_eq_orderedInsert]

/-- A descriptor that passes has its dimensions in an order in which the chain holds. -/
theorem exists_injChain_of_injective {d : TD} (h : d.injective = true) :
    ∃ l : List (Nat × Nat), l.Perm (checkedDims d.sizes d.strides) ∧ injChain 1 l = true :=
  ⟨_, (List.perm_insertionSort _ _).trans (List.reverse_perm _), injective_eq_injChain d ▸ h⟩

/-! ### The chain of extents (R168) -/

section
variable {l l' : List (Nat × Nat)} {e : Nat}

/-- The chain holds where every stride reaches the extent of the dimensions before it. -/
theorem injChain_iff : injChain e l = true ↔
    ∀ j, ∀ h : j < l.length, e + ((l.take j).map fun x => x.1 * (x.2 - 1)).sum ≤ l[j].1 := by
  induction l generalizing e with
  | nil => simp [injChain]
  | cons x l ih =>
    rw [injChain, Bool.and_eq_true, decide_eq_true_iff, ih]
    constructor
    · rintro ⟨hx, hl⟩ (_ | j) hj
      · simpa using hx
      · simpa [Nat.add_assoc] using hl j (Nat.lt_of_succ_lt_succ hj)
    · intro h
      refine ⟨by simpa using h 0 (Nat.succ_pos _), fun j hj => ?_⟩
      simpa [Nat.add_assoc] using h (j + 1) (Nat.succ_lt_succ hj)

/-- Every stride of a chain reaches the extent that the chain begins with. -/
theorem le_of_mem_injChain (h : injChain e l = true) {x : Nat × Nat} (hx : x ∈ l) : e ≤ x.1 := by
  obtain ⟨j, hj, rfl⟩ := List.mem_iff_getElem.mp hx
  exact (Nat.le_add_right _ _).trans (injChain_iff.mp h j hj)

/-- The strides of a chain differ: an extent is longer than the greatest stride in it. -/
theorem injChain_pairwise_lt (h : injChain e l = true) (he : 0 < e) (hn : ∀ x ∈ l, 1 < x.2) :
    l.Pairwise fun x y => x.1 < y.1 := by
  induction l generalizing e with
  | nil => exact .nil
  | cons x l ih =>
    rw [injChain, Bool.and_eq_true] at h
    have hx : x.1 < e + x.1 * (x.2 - 1) := by
      have := Nat.le_mul_of_pos_right x.1 (Nat.sub_pos_of_lt (hn x List.mem_cons_self))
      omega
    exact .cons (fun y hy => hx.trans_le (le_of_mem_injChain h.2 hy))
      (ih h.2 (by omega) fun y hy => hn y (List.mem_cons_of_mem _ hy))

/-- A chain is the only ascending order of its dimensions. -/
theorem eq_of_injChain (h : injChain e l = true) (he : 0 < e) (hn : ∀ x ∈ l, 1 < x.2) (hp : l.Perm l')
    (hs : l'.Pairwise fun x y => x.1 ≤ y.1) : l = l' := by
  have hlt := injChain_pairwise_lt h he hn
  have hinj : ∀ x ∈ l, ∀ y ∈ l, x.1 = y.1 → x = y :=
    List.inj_on_of_nodup_map (List.pairwise_map.mpr (hlt.imp Nat.ne_of_lt))
  exact hp.eq_of_pairwise (fun x y hx hy hxy hyx => hinj x hx y (hp.mem_iff.mpr hy) (Nat.le_antisymm hxy hyx))
    (hlt.imp Nat.le_of_lt) hs

/-- Ascending orders of the same dimensions pass or fail alike. -/
theorem injChain_congr (he : 0 < e) (hn : ∀ x ∈ l, 1 < x.2) (hp : l.Perm l') (hs : l.Pairwise fun x y => x.1 ≤ y.1)
    (hs' : l'.Pairwise fun x y => x.1 ≤ y.1) : injChain e l = injChain e l' :=
  Bool.eq_iff_iff.mpr ⟨fun h => eq_of_injChain h he hn hp hs' ▸ h,
    fun h => eq_of_injChain h he (fun x hx => hn x (hp.mem_iff.mpr hx)) hp.symm hs ▸ h⟩

end

/-- Settles O52: the sorted dimensions of the model and any other ascending order of them pass or fail alike. -/
theorem injectivityCheckFollowsItsRule : Obligations.InjectivityCheckFollowsItsRule := by
  intro d l
  refine ⟨fun hp hs => ?order, fun hd => ?none, fun n hm hn => ?zero⟩
  case order =>
    rw [injective_eq_injChain, ← injChain_iff]
    refine Bool.eq_iff_iff.mp (injChain_congr one_pos (fun x hx => ?_) ?_ (List.pairwise_insertionSort _ _) hs)
    · exact one_lt_of_mem_checkedDims (List.mem_reverse.mp ((List.mem_insertionSort _).mp hx))
    · exact ((List.perm_insertionSort _ _).trans (List.reverse_perm _)).trans hp.symm
  case none =>
    rw [injective_eq_injChain, show checkedDims d.sizes d.strides = [] from hd]
    rfl
  case zero =>
    refine Bool.eq_false_iff.mpr fun h => ?_
    obtain ⟨l, hp, hc⟩ := exists_injChain_of_injective h
    exact absurd (le_of_mem_injChain hc (hp.mem_iff.mpr (mem_checkedDims hm hn))) (by simp)

/-! ### Two elements of a descriptor (R161, R168) -/

/-- What each dimension that the check takes adds to the way from the element with indices y to the one with indices x. -/
def moves : List Nat → List Int → List Nat → List Nat → List Int
  | n :: ns, t :: ts, i :: x, j :: y => if 1 < n then ((i : Int) - j) * t :: moves ns ts x y else moves ns ts x y
  | _, _, _, _ => []

/-- z is a way along a dimension: a number of steps, less than its size, of its stride. -/
def IsMove (e : Nat × Nat) (z : Int) : Prop := ∃ c : Int, c.natAbs ≤ e.2 - 1 ∧ z.natAbs = c.natAbs * e.1

section
variable {ns x y : List Nat} {ts : List Int}

theorem moves_areMoves (hx : x.Forall₂ (· < ·) ns) (hy : y.Forall₂ (· < ·) ns) (hl : ns.length = ts.length) :
    (checkedDims ns ts).Forall₂ IsMove (moves ns ts x y) := by
  induction hx generalizing ts y with
  | nil =>
    cases hy
    simp [checkedDims, moves]
  | @cons i n x ns hi hx ih =>
    obtain - | ⟨hj, hy⟩ := hy
    obtain - | ⟨t, ts⟩ := ts
    · simp at hl
    rw [checkedDims_cons, moves]
    have ht := ih hy (by simpa using hl)
    split
    · exact .cons ⟨_, by omega, Int.natAbs_mul _ _⟩ ht
    · exact ht

/-- The moves add up to the way between the elements. -/
theorem sum_moves (hx : x.Forall₂ (· < ·) ns) (hy : y.Forall₂ (· < ·) ns) (hl : ns.length = ts.length) :
    (moves ns ts x y).sum = offsetOf ns ts x - offsetOf ns ts y := by
  induction hx generalizing ts y with
  | nil =>
    cases hy
    simp [moves, offsetOf]
  | @cons i n x ns hi hx ih =>
    obtain - | ⟨hj, hy⟩ := hy
    obtain - | ⟨t, ts⟩ := ts
    · simp at hl
    rw [moves, offsetOf, offsetOf]
    have ht := ih hy (by simpa using hl)
    split
    · rw [if_neg (by omega), if_neg (by omega), List.sum_cons, ht]
      ring
    · rw [if_pos (by omega), if_pos (by omega), ht]
      ring

/-- Where no dimension moves, and no stride that is taken is 0, the element is the same. -/
theorem eq_of_moves_zero (hx : x.Forall₂ (· < ·) ns) (hy : y.Forall₂ (· < ·) ns) (hl : ns.length = ts.length)
    (hd : ∀ e ∈ checkedDims ns ts, 0 < e.1) (hz : ∀ z ∈ moves ns ts x y, z = 0) : x = y := by
  induction hx generalizing ts y with
  | nil =>
    cases hy
    rfl
  | @cons i n x ns hi _ ih =>
    cases hy with
    | @cons j _ y _ hj hy =>
      obtain - | ⟨t, ts⟩ := ts
      · simp at hl
      have hl : ns.length = ts.length := by simpa using hl
      rw [checkedDims_cons] at hd
      rw [moves] at hz
      by_cases hn : 1 < n
      · rw [if_pos hn, List.forall_mem_cons] at hd hz
        have hij := (mul_eq_zero.mp hz.1).resolve_right (Int.natAbs_pos.mp hd.1)
        rw [ih hy hl hd.2 hz.2, show i = j by omega]
      · rw [if_neg hn] at hd hz
        rw [ih hy hl hd hz, show i = j by omega]

end

/-- Along a chain no moves but none come back to where they began, nor to less than its first extent from there: what the
shorter strides reach is less than the next stride. -/
theorem moves_zero_of_injChain {l : List (Nat × Nat)} {zs : List Int} (h : l.Forall₂ IsMove zs) {e : Nat}
    (hc : injChain e l = true) {w : Int} (hw : w.natAbs < e) (hs : w + zs.sum = 0) : w = 0 ∧ ∀ z ∈ zs, z = 0 := by
  induction h generalizing e w with
  | nil => simpa using hs
  | @cons p z l zs hp _ ih =>
    obtain ⟨c, hn, hz⟩ := hp
    rw [injChain, Bool.and_eq_true, decide_eq_true_iff] at hc
    rw [List.sum_cons, ← add_assoc] at hs
    have hle : z.natAbs ≤ p.1 * (p.2 - 1) := by
      rw [hz, Nat.mul_comm]
      exact Nat.mul_le_mul_left _ hn
    obtain ⟨hwz, hzs⟩ := ih hc.2 (by omega) hs
    have hc0 : c.natAbs = 0 := by
      by_contra h0
      have := Nat.le_mul_of_pos_left p.1 (Nat.pos_of_ne_zero h0)
      omega
    rw [hc0, Nat.zero_mul] at hz
    exact ⟨by omega, List.forall_mem_cons.mpr ⟨by omega, hzs⟩⟩

/-- The indices of an element lie below the sizes. -/
theorem forall₂_lt_sizes {d : TD} {x : List Nat} (hl : x.length = d.sizes.length) (hx : ∀ k, x.getD k 0 < d.size k) :
    x.Forall₂ (· < ·) d.sizes :=
  List.forall₂_iff_get.mpr ⟨hl, fun k h₁ h₂ => by simpa [TD.size, h₁, h₂] using hx k⟩

/-- Two elements of a descriptor that passes the check have different offsets. -/
theorem offsetOf_inj {d : TD} {x y : List Nat} (h : d.injective = true) (hl : d.sizes.length = d.strides.length)
    (hx : x.Forall₂ (· < ·) d.sizes) (hy : y.Forall₂ (· < ·) d.sizes)
    (ho : offsetOf d.sizes d.strides x = offsetOf d.sizes d.strides y) : x = y := by
  obtain ⟨l, hp, hc⟩ := exists_injChain_of_injective h
  obtain ⟨zs, hzs, hpz⟩ := List.perm_comp_forall₂ hp (moves_areMoves hx hy hl)
  have hsum : zs.sum = 0 := by rw [hpz.sum_eq, sum_moves hx hy hl, ho, sub_self]
  have hz := (moves_zero_of_injChain hzs hc (w := 0) one_pos (by rw [hsum, add_zero])).2
  exact eq_of_moves_zero hx hy hl (fun e he => le_of_mem_injChain hc (hp.mem_iff.mpr he))
    fun z hm => hz z (hpz.mem_iff.mpr hm)

/-- Of two different offsets in elements of a width, each at or above address 0, one lies a width past the other. -/
theorem bits_apart {a : Int} {w : Nat} {p q : Int} (hp : 0 ≤ a + w * p) (hq : 0 ≤ a + w * q) (h : p < q) :
    (a + w * p).toNat + w ≤ (a + w * q).toNat := by
  have : (w : Int) * (p + 1) ≤ w * q := Int.mul_le_mul_of_nonneg_left h (Int.natCast_nonneg w)
  rw [mul_add, mul_one] at this
  omega

/-- Settles O53: different elements have different offsets, so a whole element's width lies between their addresses. -/
theorem passedDescriptorsNeverMeet : Obligations.PassedDescriptorsNeverMeet := by
  intro d x y hil hinj hl hxl hyl hx hy hpx hpy hne
  have ho : offsetOf d.sizes d.strides x ≠ offsetOf d.sizes d.strides y := fun ho =>
    hne (offsetOf_inj hinj hl (forall₂_lt_sizes hxl hx) (forall₂_lt_sizes hyl hy) ho)
  simp only [TD.bitAddr, hil]
  rcases lt_or_gt_of_ne ho with h | h
  · exact .inl (bits_apart hpx hpy h)
  · exact .inr (bits_apart hpy hpx h)

end Sys2Proof.Machine
end

section
/-!
PROOFS. What the commands of Sill firmware on rings, events, the job-0 area and jobs do.
-/

namespace Sys2Proof.Machine

section
variable {s u : State} {r : Req}

/-! ### RING_CREATE and RING_DESTROY (R456, R481) -/

theorem exec_ringCreate (h : s.serves r .lead u) (ring : BitVec 16) (log2 cls vec irq : BitVec 8) (sq cq : BitVec 64) :
    exec (.ringCreate r ring log2 cls vec irq sq cq) s = .next ((State.answered r
      (u.doRingCreate r ring.toNat log2.toNat cls.toNat vec.toNat irq.toNat sq.toNat cq.toNat)).keeping s) :=
  serve_of_serves (serves_entry h (.inr rfl) _) false
    (State.doRingCreate r ring.toNat log2.toNat cls.toNat vec.toNat irq.toNat sq.toNat cq.toNat)

theorem exec_ringDestroy (h : s.serves r .lead u) (ring : BitVec 16) :
    exec (.ringDestroy r ring) s = .next ((State.answered r (u.doRingDestroy r ring.toNat)).keeping s) :=
  serve_of_serves (serves_entry h (.inr rfl) _) false (State.doRingDestroy r ring.toNat)

section
variable {ring log2 cls vec irq sq cq : Nat}

theorem doRingCreate_bad (hb : ring = 0 ∨ badRing log2 cls vec irq sq cq = true) :
    u.doRingCreate r ring log2 cls vec irq sq cq = (u, just stBADPARAM) :=
  if_pos hb

variable (h0 : ring ≠ 0) (hb : badRing log2 cls vec irq sq cq = false)
include h0 hb

theorem doRingCreate_exists (hx : (u.ring? ring).isSome = true) :
    u.doRingCreate r ring log2 cls vec irq sq cq = (u, just stBUSY) :=
  (if_neg (by simp [h0, hb])).trans (if_pos hx)

/-- The new ring holds nothing, and its phase bit is 1. -/
theorem doRingCreate_creates (hx : u.ring? ring = none) : u.doRingCreate r ring log2 cls vec irq sq cq =
    ({ u with host := { u.host with rings := u.host.rings ++ [
      { id := ring, log2 := log2, cls := cls, job := r.job.toNat, vec := vec, irq := irq, sqBase := sq, cqBase := cq,
        sqHead := 0, sqTail := 0, cqTail := 0, cqHead := 0, cqUsed := 0, phase := true, stopped := false, inProgress := 0,
        bells := [], entry := none, reading := false, destroying := none }] } }, just stSUCCESS) :=
  (if_neg (by simp [h0, hb])).trans (if_neg (by simp [hx]))

end

section
variable {ring : Nat}

theorem doRingDestroy_bad (hb : u.ring? ring = none ∨ ring = 0 ∨ ring = r.ring.toNat) :
    u.doRingDestroy r ring = (u, just stBADPARAM) := by
  rw [State.doRingDestroy]
  rcases hx : u.ring? ring with _ | x
  · rfl
  · exact if_pos (hb.resolve_left (by simp [hx]))

variable {x : Ring} (hx : u.ring? ring = some x) (hn : ring ≠ 0 ∧ ring ≠ r.ring.toNat)
include hx hn

theorem doRingDestroy_again (hd : x.destroying ≠ none) : u.doRingDestroy r ring = (u, just stBUSY) := by
  rw [State.doRingDestroy, hx]
  exact (if_neg (not_or.mpr hn)).trans (if_pos (Option.isSome_iff_ne_none.mpr hd))

/-- The ring stops, and the command waits for its entries in progress. -/
theorem doRingDestroy_stops (hd : x.destroying = none) : u.doRingDestroy r ring = (((u.letWait r).mapRing ring fun y =>
    { y.stop with sqHead := y.sqTail, destroying := some r }).endRing ring, none) := by
  rw [State.doRingDestroy, hx]
  exact (if_neg (not_or.mpr hn)).trans (if_neg (by simp [hd]))

end

/-! ### EVENT_RING (R482) -/

theorem exec_eventRing (h : s.serves r .lead u) (a : BitVec 64) (log2 vec : BitVec 8) (en : Bool) :
    exec (.eventRing r a log2 vec en) s =
      .next ((State.answered r (u.doEventRing a.toNat log2.toNat vec.toNat en)).keeping s) :=
  serve_of_serves (serves_entry h (.inr rfl) _) false (State.doEventRing a.toNat log2.toNat vec.toNat en)

theorem doEventRing_bad {a log2 : Nat} (vec : Nat) (en : Bool) (hb : a % 64 ≠ 0 ∨ log2 < 6 ∨ 16 < log2) :
    u.doEventRing a log2 vec en = (u, just stBADPARAM) :=
  if_pos hb

theorem doEventRing_sets {a log2 : Nat} (vec : Nat) (en : Bool) (ha : a % 64 = 0) (h6 : 6 ≤ log2) (h16 : log2 ≤ 16) :
    u.doEventRing a log2 vec en =
      ({ u with host := { u.host with evAddr := a, evLog2 := log2, evVec := vec, evEn := en } }, just stSUCCESS) :=
  if_neg (by omega)

/-! ### MEM_LAYOUT (R483) -/

theorem exec_memLayout (h : s.serves r .target u) (pool reserve buddy : BitVec 64) :
    exec (.memLayout r pool reserve buddy) s =
      .next ((State.answered r (u.doMemLayout pool.toNat reserve.toNat buddy.toNat)).keeping s) :=
  serve_of_serves (serves_entry h (.inl rfl) _) false (State.doMemLayout pool.toNat reserve.toNat buddy.toNat)

/-- Some job is valid. -/
theorem any_jobValid_iff :
    ((List.range 64).drop 1).any u.jobValid = true ↔ ∃ k, 1 ≤ k ∧ k < 64 ∧ u.jobValid k = true := by
  rw [List.any_eq_true]
  refine exists_congr fun k => ?_
  rw [← and_assoc]
  refine and_congr_left' ?_
  simp [List.range_eq_range', List.mem_range'_1]

/-- Sizes that MEM_LAYOUT refuses: unaligned, or together more than half of main memory. -/
def State.badLayout (u : State) (pool reserve buddy : Nat) : Prop :=
  pool % 2 ^ 21 ≠ 0 ∨ reserve % 2 ^ 21 ≠ 0 ∨ buddy % 2 ^ 21 ≠ 0 ∨ u.memTop / 2 < pool + reserve + buddy

section
variable {pool reserve buddy : Nat}

theorem doMemLayout_bad (hb : u.badLayout pool reserve buddy) : u.doMemLayout pool reserve buddy = (u, just stBADPARAM) :=
  if_pos hb

variable (hb : ¬u.badLayout pool reserve buddy)
include hb

theorem doMemLayout_busy (hj : ∃ k, 1 ≤ k ∧ k < 64 ∧ u.jobValid k = true) :
    u.doMemLayout pool reserve buddy = (u, just stBUSY) :=
  (if_neg hb).trans (if_pos (any_jobValid_iff.mpr hj))

theorem doMemLayout_sets (hj : ∀ k, 1 ≤ k → k < 64 → u.jobValid k = false) :
    u.doMemLayout pool reserve buddy = (u.setLayout pool reserve buddy, just stSUCCESS) := by
  refine (if_neg hb).trans (if_neg fun ha => ?_)
  obtain ⟨k, h1, h64, hk⟩ := any_jobValid_iff.mp ha
  simp [hj k h1 h64] at hk

end

/-! ### JOB_CREATE and JOB_DESTROY (R174, R484) -/

theorem exec_jobCreate (h : s.serves r .target u) (a : BitVec 64) :
    exec (.jobCreate r a) s = .next ((State.answered r (u.doJobCreate r a.toNat)).keeping s) :=
  serve_of_serves (serves_entry h (.inl rfl) _) false (State.doJobCreate r a.toNat)

theorem exec_jobDestroy (h : s.serves r .target u) :
    exec (.jobDestroy r) s = .next ((State.answered r (u.doJobDestroy r)).keeping s) :=
  serve_of_serves (serves_entry h (.inl rfl) _) false (State.doJobDestroy r)

theorem jobNamed_eq_true (hj : r.job ≠ 0) : jobNamed r = true := bne_iff_ne.mpr hj

section
variable {a : Nat}

theorem doJobCreate_bad (hb : r.job = 0 ∨ a % 4096 ≠ 0) : u.doJobCreate r a = (u, just stBADPARAM) :=
  if_pos (by simpa [jobNamed] using hb)

variable (hj : r.job ≠ 0) (ha : a % 4096 = 0)
include hj ha

theorem doJobCreate_exists (hv : u.jobValid r.job.toNat = true) : u.doJobCreate r a = (u, just stNOJOB) :=
  (if_neg (by simp [jobNamed_eq_true hj, ha])).trans (if_pos hv)

variable (hv : u.jobValid r.job.toNat = false)
include hv

theorem doJobCreate_noTables (ht : u.memTop = 0 ∨ u.takeTable r.job.toNat = none) :
    u.doJobCreate r a = (u, just stNOTABLES) := by
  rw [State.doJobCreate, if_neg (by simp [jobNamed_eq_true hj, ha]), if_neg (by simp [hv])]
  by_cases hm : u.memTop = 0
  · exact if_pos hm
  · rw [if_neg hm, ht.resolve_left hm]

theorem doJobCreate_creates (hm : u.memTop ≠ 0) {t : State} {p : Nat} (ht : u.takeTable r.job.toNat = some (t, p)) :
    u.doJobCreate r a =
      (let v := t.puts [(Reg.XLAT.JOB_ROOT r.job.toNat, p / 4096), (Reg.XLAT.JOB_HOST_BASE r.job.toNat, a / 4096),
        (Reg.XLAT.JOB_VALID r.job.toNat, 1)]
       ({ v with host := { v.host with killed := setErase r.job.toNat v.host.killed } }, just stSUCCESS)) := by
  rw [State.doJobCreate, if_neg (by simp [jobNamed_eq_true hj, ha]), if_neg (by simp [hv]), if_neg hm, ht]

end

theorem jobFails_unnamed (hj : r.job = 0) : u.jobFails r = some stBADPARAM := if_pos (by simp [jobNamed, hj])

theorem jobFails_invalid (hj : r.job ≠ 0) (hv : u.jobValid r.job.toNat = false) : u.jobFails r = some stNOJOB :=
  (if_neg (by simp [jobNamed_eq_true hj])).trans (if_pos (by simp [hv]))

theorem jobFails_passes (hj : r.job ≠ 0) (hv : u.jobValid r.job.toNat = true) : u.jobFails r = none :=
  (if_neg (by simp [jobNamed_eq_true hj])).trans (if_neg (by simp [hv]))

theorem doJobDestroy_badJob {st : Nat} (hf : u.jobFails r = some st) : u.doJobDestroy r = (u, just st) := by
  rw [State.doJobDestroy, hf]

theorem doJobDestroy_busy (hf : u.jobFails r = none) (hi : u.jobInUse r.job.toNat = true) :
    u.doJobDestroy r = (u, just stBUSY) := by
  rw [State.doJobDestroy, hf]
  exact if_pos hi

theorem doJobDestroy_destroys (hf : u.jobFails r = none) (hi : u.jobInUse r.job.toNat = false) : u.doJobDestroy r =
    ((({ u with host := { u.host with tables := u.host.tables.filter fun t => t.2 ≠ r.job.toNat } } : State).clearChannels
      r.job.toNat).dropJob r.job.toNat, just stSUCCESS) := by
  rw [State.doJobDestroy, hf]
  exact if_neg (by simp [hi])

end

/-- Settles O46: each clause is what the command's part answers in its case. -/
theorem setupCommandsAct : Obligations.SetupCommandsAct := by
  intro r ring log2 cls vec irq a b c en s u
  have h0 : ring ≠ 0 → ring.toNat ≠ 0 := fun hr hz => hr (BitVec.eq_of_toNat_eq hz)
  refine ⟨fun h => ⟨⟨fun hr hb hx => ?_, fun hb => ?_, fun hr hb hx => ?_⟩, fun hb => ?_,
      fun x hx hr ho => ⟨fun hd => ?_, fun hd => ?_⟩, fun ha h6 h16 => ?_, fun hb => ?_⟩,
    fun h => ⟨⟨fun hb => ?_, fun hb hj => ?_, fun hb hj => ?_⟩, fun hb => ?_,
      fun hj ha => ⟨fun hv => ?_, fun hv => ⟨fun ht => ?_, fun t p hm ht => ?_⟩⟩,
      fun hj => ?_, fun hj hv => ?_, fun hj hv hi => ?_, fun hj hv hi => ?_⟩⟩
  · rw [exec_ringCreate h, doRingCreate_creates (h0 hr) hb hx, answered_just]
    rfl
  · rw [exec_ringCreate h, doRingCreate_bad (hb.imp_left BitVec.toNat_eq.mp), answered_just]
  · rw [exec_ringCreate h, doRingCreate_exists (h0 hr) hb hx, answered_just]
  · rw [exec_ringDestroy h, doRingDestroy_bad (hb.imp_right (.imp BitVec.toNat_eq.mp BitVec.toNat_eq.mp)), answered_just]
  · rw [exec_ringDestroy h, doRingDestroy_again hx ⟨h0 hr, mt BitVec.toNat_eq.mpr ho⟩ hd, answered_just]
  · rw [exec_ringDestroy h, doRingDestroy_stops hx ⟨h0 hr, mt BitVec.toNat_eq.mpr ho⟩ hd, answered_none]
  · rw [exec_eventRing h, doEventRing_sets _ _ ha h6 h16, answered_just]
    rfl
  · rw [exec_eventRing h, doEventRing_bad _ _ hb, answered_just]
  · rw [exec_memLayout h, doMemLayout_bad hb, answered_just]
  · rw [exec_memLayout h, doMemLayout_busy hb hj, answered_just]
  · rw [exec_memLayout h, doMemLayout_sets hb hj, answered_just]
    rfl
  · rw [exec_jobCreate h, doJobCreate_bad hb, answered_just]
  · rw [exec_jobCreate h, doJobCreate_exists hj ha hv, answered_just]
  · rw [exec_jobCreate h, doJobCreate_noTables hj ha hv ht, answered_just]
  · rw [exec_jobCreate h, doJobCreate_creates hj ha hv hm ht, answered_just]
    rfl
  · rw [exec_jobDestroy h, doJobDestroy_badJob (jobFails_unnamed hj), answered_just]
  · rw [exec_jobDestroy h, doJobDestroy_badJob (jobFails_invalid hj hv), answered_just]
  · rw [exec_jobDestroy h, doJobDestroy_busy (jobFails_passes hj hv) hi, answered_just]
  · rw [exec_jobDestroy h, doJobDestroy_destroys (jobFails_passes hj hv) hi, answered_just]
    rfl

end Sys2Proof.Machine
end

section
/-!
PROOFS. What the packets that come in on a door do (chapter 11).
-/

namespace Sys2Proof.Machine

section
variable {s u : State} {d ty : Nat} {h : Hdr} {p : Bytes}

/-! ### The arrival of a packet (R308, R310, R320) -/

/-- A packet that its door takes acts after it has been counted. -/
theorem arrive_of_takes (ht : s.takes d ty h p) (act : State → State) : s.arrive d ty h p act = act (s.countRx d h p) := by
  obtain ⟨-, hlink, hcredit, hshort, -, hdst⟩ := ht
  refine (if_neg ?_).trans ((if_neg (by simp [hshort])).trans (if_pos hdst))
  rintro (hl | ⟨hb, hc⟩)
  · simp [hlink] at hl
  · simp [hcredit hb] at hc

/-- A packet for another device is counted and goes on. -/
theorem arrive_relays (hlink : s.linkUsable d (s.pairFrom d h) = true)
    (hcredit : bulk ty (h.addr.toNat % 8) = true → s.noCredit d = false) (hshort : overlong ty h = false)
    (hdst : h.dst.toNat ≠ s.dev) (act : State → State) : s.arrive d ty h p act = (s.countRx d h p).relayPkt d ty h p := by
  refine (if_neg ?_).trans ((if_neg (by simp [hshort])).trans (if_neg hdst))
  rintro (hl | ⟨hb, hc⟩)
  · simp [hlink] at hl
  · simp [hcredit hb] at hc

theorem packet_of_takes {d : DoorIx} {ok : Nat → Bool} (ht : s.takes d.val ty h p) (hk : ok h.addr.toNat = true)
    (act : State → State) : packet d ty h p ok act s = .next ((act (s.countRx d.val h p)).keeping s) := by
  obtain ⟨hu, -, -, -, hlen, -⟩ := id ht
  exact (if_pos ⟨hlen, hk⟩).trans ((whenLive_up hu _).trans (by rw [arrive_of_takes ht]))

/-- A bulk packet acts after the packets that are held at the doors and have room (R334). -/
theorem bulkPacket_of_takes {d : DoorIx} {ok : Nat → Bool} (hu : s.phase = .up) (ht : s.seat.takes d.val ty h p)
    (hk : ok h.addr.toNat = true) (act : State → State) :
    bulkPacket d ty h p ok act s = .next ((act (s.seat.countRx d.val h p)).keeping s) := by
  obtain ⟨-, -, -, -, hlen, -⟩ := id ht
  exact (if_pos ⟨hlen, hk⟩).trans ((whenLive_up hu _).trans (by rw [arrive_of_takes ht]))

/-! ### WRITE (R184, R313) -/

theorem exec_write {d : DoorIx} (hu : s.phase = .up) (ht : s.seat.takes d.val 1 h p) :
    exec (.write d h p) s = .next (((s.seat.countRx d.val h p).gotWrite d.val h p).keeping s) :=
  bulkPacket_of_takes hu ht rfl fun s => s.gotWrite d.val h p

theorem gotWrite_faults {e : Nat × Nat × Nat}
    (hb : s.bindSectors (doorSrc d) h.job.toNat (payloadVas h.addr.toNat h.sectors.toNat) = (u, .inl e)) :
    s.gotWrite d h p = (if e.2.1 = 8 then u.countKill h.job.toNat else u).remoteFault d h e.1 := by
  rw [State.gotWrite, hb]

section
variable {l : List (Nat × Nat × Bool × Bool)}
  (hb : s.bindSectors (doorSrc d) h.job.toNat (payloadVas h.addr.toNat h.sectors.toNat) = (u, .inr l))
include hb

theorem gotWrite_performs (hm : marksKill h l = none) : s.gotWrite d h p = u.performWrite d h p l := by
  simp only [State.gotWrite, hb, hm]

theorem gotWrite_kills {va : Nat} (hm : marksKill h l = some va) : s.gotWrite d h p =
    ((u.ackWrite d h 1).countKill h.job.toNat).unitConsume h.job.toNat (doorSrc d) 9 va := by
  simp only [State.gotWrite, hb, hm]

end

/-! ### Control packets (R308, R314, R317, R320, R321) -/

section
variable {d : DoorIx}

theorem exec_writeAck (ht : s.takes d.val 2 h []) :
    exec (.writeAck d h) s = .next (((s.countRx d.val h []).gotAck h.tag.toNat).keeping s) :=
  packet_of_takes ht rfl fun s => s.gotAck h.tag.toNat

theorem exec_latchPacket (ht : s.takes d.val 3 h []) : exec (.latchPacket d h) s =
    .next (((s.countRx d.val h []).sendLatch (doorSrc d.val) (bitsOf h.addr.toNat 13 0) (bitOf h.addr.toNat 16)
      none).keeping s) :=
  packet_of_takes ht rfl fun s => s.sendLatch (doorSrc d.val) (bitsOf h.addr.toNat 13 0) (bitOf h.addr.toNat 16) none

theorem exec_retract (ht : s.takes d.val 6 h []) :
    exec (.retract d h) s = .next (((s.countRx d.val h []).gotRetract d.val h).keeping s) :=
  packet_of_takes ht rfl fun s => s.gotRetract d.val h

theorem exec_close (ht : s.takes d.val 7 h []) :
    exec (.close d h) s = .next (((s.countRx d.val h []).gotClose h).keeping s) :=
  packet_of_takes ht rfl fun s => s.gotClose h

/-- The messages of a door enter the mesh at its casement. -/
theorem routerOf_doorSrc : ∀ d : DoorIx, routerOf (doorSrc d.val) = caseRouter d.val := by decide

/-! ### Packets that go on, and the packets of followers (R308, R323) -/

theorem exec_relay {ty : BitVec 8} (h1 : 1 ≤ ty.toNat) (h9 : ty.toNat ≤ 9) (hlen : p.length = 64 * h.sectors.toNat)
    (hu : s.phase = .up) (hd : h.dst.toNat ≠ s.dev ∨ ty.toNat = 8) :
    exec (.relay d ty h p) s = .next ((s.arrive d.val ty.toNat h p fun s => s.gotTime h).keeping s) :=
  (if_pos ⟨h1, h9, hlen⟩).trans ((whenLive_up hu _).trans (by rw [if_neg (by tauto)]))

theorem exec_relay_time (ht : s.takes d.val 8 h p) :
    exec (.relay d 8 h p) s = .next (((s.countRx d.val h p).gotTime h).keeping s) := by
  obtain ⟨hu, -, -, -, hlen, -⟩ := id ht
  rw [exec_relay (by decide) (by decide) hlen hu (.inr rfl)]
  exact congrArg (fun t : State => Host.Outcome.next (t.keeping s)) (arrive_of_takes ht _)

end

theorem gotTime_follower (ho : originOf h ≠ s.dev) (hm : s.masterOf (originOf h) = s.dev) :
    s.gotTime h = s.sendPkt 8 (s.hdr 0x405 (originOf h) 0 0 0) [] :=
  if_pos ⟨ho, hm⟩

theorem gotTime_other (ho : originOf h = s.dev ∨ s.masterOf (originOf h) ≠ s.dev) : s.gotTime h = s := if_neg (by tauto)

/-! ### Packets of unknown types (R310) -/

theorem exec_badPacketType (d : DoorIx) (k : Fin 3) (ty : BitVec 8) (kind : BitVec 4) (n : BitVec 6) :
    exec (.badPacketType ⟨d, k⟩ ty kind n) s =
      whenLive s fun s => s.badPacket d.val k.val ty.toNat kind.toNat n.toNat := rfl

theorem badPacket_recorded {k kind : Nat} (n : Nat) (hk : knownPacket ty kind = false) (hl : s.linkUsable d k = true) :
    s.badPacket d k ty kind n = ((s.heardDoor d k).inc (Reg.DOOR.RX_BYTES d) (32 + 64 * n)).doorProtocol d :=
  if_neg (by simp [hk, hl])

end

/-- Settles O32: each packet, once it has been counted at its door, does what its clause says. -/
theorem doorPacketsAct : Obligations.DoorPacketsAct := by
  intro d h p s
  refine ⟨fun hu ht u => ⟨fun l hb => ⟨fun hm => ?performs, fun va hm => ?kills⟩, fun e hb => ?faults⟩, fun ht => ?ack,
    fun ht => ?latch, fun ht => ?retract, fun ht => ?close, fun ty hu h1 h9 hlen hdst hlink hcredit hshort => ?relay,
    fun ht => ⟨fun ho hm => ?answers, fun ho => ?ignores⟩, fun k ty kind n hu hk hl => ?unknown⟩
  case performs => rw [exec_write hu ht, gotWrite_performs hb hm]
  case kills => rw [exec_write hu ht, gotWrite_kills hb hm]
  case faults => rw [exec_write hu ht, gotWrite_faults hb]
  case ack =>
    rw [exec_writeAck ht]
    rfl
  case latch =>
    rw [exec_latchPacket ht, State.sendLatch, routerOf_doorSrc]
    rfl
  case retract =>
    rw [exec_retract ht]
    rfl
  case close =>
    rw [exec_close ht]
    rfl
  case relay =>
    rw [exec_relay h1 h9 hlen hu (.inl hdst), arrive_relays hlink hcredit hshort hdst]
    rfl
  case answers =>
    rw [exec_relay_time ht, gotTime_follower ho hm]
    rfl
  case ignores => rw [exec_relay_time ht, gotTime_other ho]
  case unknown =>
    rw [exec_badPacketType, whenLive_up hu, badPacket_recorded _ hk hl]
    rfl

end Sys2Proof.Machine
end

section
/-!
PROOFS. The rule that every dispatch command follows (R43, R45, R201, R202, R345).
-/

namespace Sys2Proof.Machine

/-! ### The form of a dispatch command -/

/-- The state in which a dispatch command takes its instruction: an xret that faults before its unit looks at it has sent the
returns that it owes (R345). -/
def State.looks (s : State) (n op : Nat) : State :=
  if op = 0x5A then (s.atDispatch op).lostXret n else s.atDispatch op

/-- A dispatch command hands the oldest instruction of its queue to the unit of its opcode. -/
theorem exec_dispatchRow {r : Instr} {c : CoreIx} {op : Nat} (h : dispatchRow r = some (c, op)) (s : State) :
    ∃ run, exec r s = whenLive s fun t => (t.looks c.val op).dispatch c.val op (fun t i => t.accepts c.val op i) run := by
  unfold dispatchRow at h
  split at h <;> cases h <;> exact ⟨_, rfl⟩

/-! ### What dispatch does, by the readiness of its instruction (R43, R45, R201, R202, R401) -/

section
variable {s : State} {n op : Nat} {i : Insn} (run : State → Insn → State)

theorem dispatch_unready (h : ∀ i, ¬s.ready n op i) : s.dispatch n op (fun t i => t.accepts n op i) run = s :=
  dispatch_waits s n op _ run fun i ho ⟨hs, hop, ht, ha⟩ => h i ⟨hs, ho, hop, ht, ha⟩

variable (hr : s.ready n op i)
include hr

theorem dispatch_held (hz : s.hazard n i = true) : s.dispatch n op (fun t i => t.accepts n op i) run =
    if i.delayed then s
      else (s.mapInsn n i.tag fun x => { x with delayed := true }).inc (Reg.CORE.HAZARD_WAIT n) 1 := by
  obtain ⟨hs, ho, hop, ht, ha⟩ := hr
  exact dispatch_hazard s n op _ run i ho ⟨hs, hop, ht, ha⟩ hz

variable (hz : s.hazard n i = false)
include hz

theorem dispatch_parityFails (hb : i.bad = true) :
    s.dispatch n op (fun t i => t.accepts n op i) run = s.takeFault n i ⟨cPOISON, 5, 0, 0⟩ := by
  obtain ⟨hs, ho, hop, ht, ha⟩ := hr
  exact dispatch_bad s n op _ run i ho ⟨hs, hop, ht, ha⟩ hz hb

theorem dispatch_tooLate (hb : i.bad = false) (hl : s.tooLate n i = true) :
    s.dispatch n op (fun t i => t.accepts n op i) run = (s.noteLate n i).takeFault n i (s.lateFlt i) := by
  obtain ⟨hs, ho, hop, ht, ha⟩ := hr
  exact dispatch_late s n op _ run i ho ⟨hs, hop, ht, ha⟩ hz hb hl

end

/-! ### A dispatch that comes late (R45) -/

section
variable {s : State} {n : Nat} {i : Insn} (hm : i.launch = 2)
include hm

theorem lateness_slotted : s.lateness i = s.now - i.time := if_pos hm

theorem tooLate_slotted (h2 : 2 < s.now - i.time) (h0 : s.get (Reg.CORE.FAULT_NS n) ≠ 0)
    (hl : s.get (Reg.CORE.FAULT_NS n) < s.now - i.time) : s.tooLate n i = true := by
  simp [State.tooLate, lateness_slotted hm, h2, h0, hl]

theorem noteLate_slotted (h2 : 2 < s.now - i.time) : s.noteLate n i =
    ((s.inc (Reg.CORE.LATE_COUNT n) 1).put (Reg.CORE.LATE_SLOT n) i.lslot).put (Reg.CORE.LATENESS_NS n)
      (min (s.now - i.time) (2 ^ 28 - 1)) := by
  rw [State.noteLate, lateness_slotted hm, if_pos h2]
  rfl

theorem lateFlt_slotted :
    s.lateFlt i = ⟨cLATE, 0, 0, min (s.now - i.time) (2 ^ 32 - 1) + i.lslot * 2 ^ 32⟩ := by
  rw [State.lateFlt, lateness_slotted hm]

end

/-! ### An xret that is lost before its unit looks at it (R345) -/

section
variable {s : State} {n op : Nat} {i : Insn}

theorem lostXret_oldest (ho : s.oldest n (queueOf 0x5A) = some i) : s.lostXret n =
    if s.streamState n = 1 ∧ i.op = 0x5A ∧ s.timely i ∧ !s.hazard n i ∧ (i.bad ∨ s.tooLate n i) ∧
      s.xretDue i.gen (i.mod 19 14) then s.failXret n i [] else s := by
  rw [State.lostXret, ho]

theorem lostXret_unready (h : ∀ i, ¬s.ready n 0x5A i) : s.lostXret n = s := by
  rcases ho : s.oldest n (queueOf 0x5A) with _ | i
  · rw [State.lostXret, ho]
  · rw [lostXret_oldest ho]
    exact if_neg fun ⟨hs, hop, ht, _⟩ => h i ⟨hs, ho, hop, ht, rfl⟩

theorem lostXret_held (hr : s.ready n 0x5A i) (hz : s.hazard n i = true) : s.lostXret n = s := by
  rw [lostXret_oldest hr.2.1]
  exact if_neg (by simp [hz])

theorem lostXret_owes (hr : s.ready n 0x5A i) (hz : s.hazard n i = false) (hl : i.bad = true ∨ s.tooLate n i = true) :
    s.lostXret n = s.owing n 0x5A i := by
  obtain ⟨hs, ho, hop, ht, _⟩ := hr
  rw [lostXret_oldest ho, State.owing]
  simp [hs, hop, ht, hz, hl]

theorem owing_other (h : op ≠ 0x5A) : s.owing n op i = s := if_neg fun x => h x.1

theorem looks_unready (h : ∀ i, ¬(s.atDispatch op).ready n op i) : s.looks n op = s.atDispatch op := by
  unfold State.looks
  split
  case isTrue hop =>
    subst hop
    exact lostXret_unready h
  case isFalse => rfl

theorem looks_held (hr : (s.atDispatch op).ready n op i) (hz : (s.atDispatch op).hazard n i = true) :
    s.looks n op = s.atDispatch op := by
  unfold State.looks
  split
  case isTrue hop =>
    subst hop
    exact lostXret_held hr hz
  case isFalse => rfl

theorem looks_stopped (hr : (s.atDispatch op).ready n op i) (hz : (s.atDispatch op).hazard n i = false)
    (hl : i.bad = true ∨ (s.atDispatch op).tooLate n i = true) : s.looks n op = (s.atDispatch op).owing n op i := by
  unfold State.looks
  split
  case isTrue hop =>
    subst hop
    exact lostXret_owes hr hz hl
  case isFalse hop => rw [owing_other hop]

end

/-- Settles O8: a dispatch command is dispatch in the state in which it takes its instruction, and dispatch answers by whether
an instruction is ready, held, unreadable or late. -/
theorem dispatchFollowsOneRule : Obligations.DispatchFollowsOneRule := by
  intro r c op s hrow hup u
  obtain ⟨run, he⟩ := exec_dispatchRow hrow s
  rw [he, whenLive_up hup]
  refine ⟨fun h => ?unready, fun i hr hz => ?held, fun i hr hz hl => ?stopped⟩
  case unready => rw [looks_unready h, dispatch_unready run h]
  case held => rw [looks_held hr hz, dispatch_held run hr hz]
  case stopped =>
    intro v
    rw [looks_stopped hr hz hl]
    refine ⟨fun h => ?gone, fun hr hz hb => ?parity, fun hr hz hb hm h2 h0 hf => ?late⟩
    case gone => rw [dispatch_unready run h]
    case parity => rw [dispatch_parityFails run hr hz hb]
    case late =>
      rw [dispatch_tooLate run hr hz hb (tooLate_slotted hm h2 h0 hf), noteLate_slotted hm h2, lateFlt_slotted hm]

end Sys2Proof.Machine
end

section
/-!
PROOFS. What nop, end, sync, cnt and jmp do (R208 to R210).
-/

namespace Sys2Proof.Machine

/-! ### What keeps the phase and the queue (R531 to R534) -/

section
variable (t s : State) (n tag k : Nat)

@[simp] theorem keeping_sent (i : Insn) : (s.sent n i).keeping s = s.sent n i := rfl
@[simp] theorem keeping_mapInsn (f : Insn → Insn) : (t.mapInsn n tag f).keeping s = (t.keeping s).mapInsn n tag f := rfl
@[simp] theorem keeping_markDone (c : Cnt) : (t.markDone n tag c).keeping s = (t.keeping s).markDone n tag c := rfl
@[simp] theorem keeping_redirect (a : Nat) : (t.redirect n a).keeping s = (t.keeping s).redirect n a := rfl
@[simp] theorem keeping_freshWords (l : List Nat) : (t.freshWords n l).keeping s = (t.keeping s).freshWords n l := rfl
@[simp] theorem keeping_setSlot (v : BitVec 1024) : (t.setSlot n k v).keeping s = (t.keeping s).setSlot n k v := rfl
@[simp] theorem keeping_setLaunch (v : Nat) : (t.setLaunch n k v).keeping s = (t.keeping s).setLaunch n k v := rfl
@[simp] theorem keeping_clearLaunch : (t.clearLaunch n k).keeping s = (t.keeping s).clearLaunch n k := rfl
@[simp] theorem keeping_injectLatch (router src latch : Nat) (op : HomeOp) (ack : Option (Nat × Nat)) (close : Bool) :
    (t.injectLatch router src latch op ack close).keeping s =
      (t.keeping s).injectLatch router src latch op ack close := rfl

end

/-! ### The commands of control instructions -/

section
variable {c : CoreIx} {s : State} {i : Insn}

theorem exec_nop_goes (h : s.goes c.val 0x00 i) :
    exec (.nop c) s = .next (((s.sent c.val i).markDone c.val i.tag Cnt.none).keeping s) :=
  live_of_goes h always (fun s i => s.markDone c.val i.tag Cnt.none) rfl

theorem exec_end_goes (h : s.goes c.val 0x01 i) : exec (.endInstr c) s = .next ((s.sent c.val i).keeping s) :=
  live_of_goes h always (fun s _ => s) rfl

theorem exec_sync_goes (h : s.goes c.val 0x04 i) : exec (.sync c) s = .next ((s.sent c.val i).keeping s) :=
  live_of_goes h always (fun s _ => s) rfl

/-- A cnt has written its loop counter, whose word is new, and is done (R210, R401). -/
def State.setLoop (s : State) (n : Nat) (i : Insn) : State :=
  ((s.put (Reg.CORE.LOOP_COUNT n (i.mod 35 32)) (i.mod 31 0)).freshWords n [4112 + i.mod 35 32]).markDone n i.tag Cnt.none

theorem exec_cnt_goes (h : s.goes c.val 0x03 i) :
    exec (.cnt c) s = .next (((s.sent c.val i).setLoop c.val i).keeping s) :=
  live_of_goes h always (fun s i => s.setLoop c.val i) rfl

theorem exec_jmp_goes (h : s.goes c.val 0x02 i) : exec (.jmp c) s = .next (((s.sent c.val i).jump c.val i).keeping s) :=
  live_of_goes h always (fun s i => s.jump c.val i) rfl

end

/-! ### jmp (R209) -/

section
variable {s : State} {n : Nat} {i : Insn}

theorem jump_reads (h : i.mod 35 34 = 1 ∨ i.mod 35 34 = 2) : s.jump n i =
    (s.mapInsn n i.tag fun x => { x with waits := 1 }).injectLatch (routerOf n) n (i.mod 33 20) .read (some (n, i.tag))
      false :=
  if_pos h

theorem jump_always (h : i.mod 35 34 = 0) : s.jump n i =
    if i.lateJmp then (s.markDone n i.tag Cnt.none).redirect n i.target else s.markDone n i.tag Cnt.none := by
  simp only [State.jump, h]
  rfl

theorem jump_counts (h : i.mod 35 34 = 3) : s.jump n i =
    if (s.core n).badWords.contains (4112 + i.mod 23 20) then
      (s.markDone n i.tag Cnt.none).takeFault n i ⟨cPOISON, 0, 0, 0⟩
    else if s.get (Reg.CORE.LOOP_COUNT n (i.mod 23 20)) = 0 then s.markDone n i.tag Cnt.none
    else ((s.markDone n i.tag Cnt.none).put (Reg.CORE.LOOP_COUNT n (i.mod 23 20))
      (s.get (Reg.CORE.LOOP_COUNT n (i.mod 23 20)) - 1)).redirect n i.target := by
  simp only [State.jump, h, markDone_badWords]
  rfl

end

/-- Settles O9: an instruction that goes runs in its unit, and a jmp acts by its condition. -/
theorem controlInstructionsRun : Obligations.ControlInstructionsRun := by
  intro c s i
  refine ⟨fun hg => ?nop, fun hg => ?ends, fun hg => ?sync, fun hg => ?cnt, fun hg h => ?always, fun hg h hb => ?unreadable,
    fun hg h hb hz => ?ended, fun hg h hb hz => ?again, fun hg h => ?reads⟩
  case nop => rw [exec_nop_goes hg, keeping_markDone, keeping_sent]
  case ends => rw [exec_end_goes hg, keeping_sent]
  case sync => rw [exec_sync_goes hg, keeping_sent]
  case cnt => rw [exec_cnt_goes hg, State.setLoop, keeping_markDone, keeping_freshWords, State.keeping_put, keeping_sent]
  case always =>
    rw [exec_jmp_goes hg, jump_always h]
    split
    next => rw [keeping_redirect, keeping_markDone, keeping_sent]
    next => rw [keeping_markDone, keeping_sent]
  case unreadable => rw [exec_jmp_goes hg, jump_counts h, sent_badWords, if_pos hb]
  case ended =>
    rw [exec_jmp_goes hg, jump_counts h, sent_badWords, if_neg (Bool.eq_false_iff.mp hb), sent_get, if_pos hz,
      keeping_markDone, keeping_sent]
  case again =>
    rw [exec_jmp_goes hg, jump_counts h, sent_badWords, if_neg (Bool.eq_false_iff.mp hb), sent_get, if_neg hz,
      keeping_redirect, State.keeping_put, keeping_markDone, keeping_sent]
  case reads =>
    rw [exec_jmp_goes hg, jump_reads h, keeping_injectLatch, keeping_mapInsn, keeping_sent]

end Sys2Proof.Machine
end

section
/-!
PROOFS. What dload, dmod, dset, slotset, rngld and rngst do where their checks pass (R211 to R215).
-/

namespace Sys2Proof.Machine

/-! ### The commands of descriptor instructions -/

section
variable {c : CoreIx} {s : State} {i : Insn}

theorem exec_dload_goes (h : s.goes c.val 0x08 i) :
    exec (.dload c) s = .next (((s.sent c.val i).dloadRun c.val i).keeping s) :=
  live_of_goes h always (fun s i => s.dloadRun c.val i) rfl

theorem exec_dmod_goes (h : s.goes c.val 0x09 i) :
    exec (.dmod c) s = .next (((s.sent c.val i).dmodRun c.val i).keeping s) :=
  live_of_goes h always (fun s i => s.dmodRun c.val i) rfl

theorem exec_dset_goes (h : s.goes c.val 0x0A i) :
    exec (.dset c) s = .next (((s.sent c.val i).dsetRun c.val i).keeping s) :=
  live_of_goes h always (fun s i => s.dsetRun c.val i) rfl

theorem exec_slotset_goes (h : s.goes c.val 0x0B i) :
    exec (.slotset c) s = .next (((s.sent c.val i).slotsetRun c.val i).keeping s) :=
  live_of_goes h always (fun s i => s.slotsetRun c.val i) rfl

theorem exec_rngld_goes (h : s.goes c.val 0x0C i) :
    exec (.rngld c) s = .next (((s.sent c.val i).rngldRun c.val i).keeping s) :=
  live_of_goes h (fun s i => !s.drawsAhead c.val i) (fun s i => s.rngldRun c.val i) rfl

theorem exec_rngst_goes (h : s.goes c.val 0x0D i) :
    exec (.rngst c) s = .next (((s.sent c.val i).rngstRun c.val i).keeping s) :=
  live_of_goes h (fun s i => !s.drawsAhead c.val i) (fun s i => s.rngstRun c.val i) rfl

end

section
variable {s s' : State} {n : Nat} {i : Insn}

/-! ### dload and dset (R211, R213) -/

theorem dloadRun_loads {data : Bytes} (hf : dloadFlt i (s.jobOf n) = none)
    (hr : s.readVa n (s.jobOf n) (i.td roleA).base (128 * (i.mod 35 24 + 1)) = (s', data, false, .done)) :
    s.dloadRun n i = (s'.loadSlots n i.dslot (i.mod 35 24 + 1) data).doneAfter n i := by
  simp only [State.dloadRun, hf, hr]
  rfl

theorem dsetRun_sets {v : Nat} (hf : dsetFlt i (s.jobOf n) = none)
    (hr : s.readElem n roleX (i.td roleX) (i.mod 32 21) = (s', .inr v)) :
    s.dsetRun n i = (s'.setSlot n i.dslot (setField i.dA (8 * (16 + 4 * i.mod 35 33)) 32
      (min (max 0 (signed (i.td roleX).wbits v)).toNat ((i.td roleA).size (i.mod 35 33))))).doneAfter n i := by
  simp only [State.dsetRun, hf, hr]

/-! ### dmod (R212) -/

/-- The descriptor that a dmod writes: with the address b, the scales' address x, or both, by its mode. -/
def Insn.movedDesc (i : Insn) (b x : Nat) : BitVec 1024 :=
  let a := if i.mod 35 34 = 1 then i.dA else setField i.dA 0 57 b
  if i.mod 35 34 = 0 then a else setField a 576 57 x

/-- A dmod faults where a check of the descriptor fails that it carries from one slot to another. -/
theorem dmodRun_faults {f : Flt} (hf : (parseTD i.dA).carried roleA = some f) : s.dmodRun n i = s.takeFault n i f := by
  simp only [State.dmodRun, hf]

/-- A dmod whose descriptor passes, and whose addresses stay in range, writes the moved descriptor. -/
theorem dmodRun_moves {b x : Nat} (hf : (parseTD i.dA).carried roleA = none) (hb : b < 2 ^ 57) (hx : x < 2 ^ 57)
    (eb : (b : Int) = (bitsOf i.dA.toNat 56 0 : Int) + 64 * signed 34 (i.mod 33 0))
    (ex : (x : Int) = ((i.dA.toNat / 2 ^ 576 % 2 ^ 57 : Nat) : Int) + 64 * signed 34 (i.mod 33 0)) :
    s.dmodRun n i = (s.setSlot n i.dslot (i.movedDesc b x)).markDone n i.tag Cnt.none := by
  have okb : (decide ((0 : Int) ≤ b) && decide ((b : Int) < 2 ^ 57)) = true := by simp; omega
  have okx : (decide ((0 : Int) ≤ x) && decide ((x : Int) < 2 ^ 57)) = true := by simp; omega
  simp only [State.dmodRun, hf, ← eb, ← ex, okb, okx, Int.toNat_natCast]
  rw [if_neg (by simp)]
  rfl

/-! ### slotset (R214) -/

theorem slotSum_fits {t : Nat} (fin : State → State) (ht : t + i.mod 25 0 < 2 ^ 64) :
    s.slotSum n i t fin = fin (s.setLaunch n (i.mod 35 32) (t + i.mod 25 0)) := if_neg (Nat.not_le.mpr ht)

theorem slotsetRun_now (hm : i.mod 31 30 = 0) (ht : s.now + i.mod 25 0 < 2 ^ 64) : s.slotsetRun n i =
    (s.setLaunch n (i.mod 35 32) (s.now + i.mod 25 0)).markDone n i.tag Cnt.none := by
  rw [State.slotsetRun, if_pos hm, slotSum_fits _ ht]

theorem slotsetRun_copies (hm : i.mod 31 30 = 1) (hb : (s.core n).badWords.contains (4096 + i.mod 29 26) = false)
    (hv : bitOf (s.get (Reg.CORE.LSLOT_VALID n)) (i.mod 29 26) = true)
    (ht : s.get (Reg.CORE.LSLOT_TIME n (i.mod 29 26)) + i.mod 25 0 < 2 ^ 64) : s.slotsetRun n i =
    (s.setLaunch n (i.mod 35 32) (s.get (Reg.CORE.LSLOT_TIME n (i.mod 29 26)) + i.mod 25 0)).markDone n i.tag Cnt.none := by
  simp only [State.slotsetRun, hm, hb, hv, slotSum_fits _ ht]
  rfl

theorem slotsetRun_reads {v : Nat} (hm : i.mod 31 30 = 2)
    (hc : (i.td roleA).check roleA (s.jobOf n) [0x0D] false false false = none) (hk : (i.td roleA).rank = 1)
    (hz : 1 ≤ (i.td roleA).size 0) (hr : s.readElem n roleA (i.td roleA) 0 = (s', .inr v)) (hv : v < 2 ^ 63)
    (ht : v + i.mod 25 0 < 2 ^ 64) :
    s.slotsetRun n i = (s'.setLaunch n (i.mod 35 32) (v + i.mod 25 0)).doneAfter n i := by
  have hf : firstFlt [(i.td roleA).check roleA (s.jobOf n) [0x0D] false false false,
      need ((i.td roleA).rank = 1 && 1 ≤ (i.td roleA).size 0) (fltOf cTYPE roleA (i.td roleA) 0)] = none := by
    simp [hc, hk, hz, need, firstFlt]
  simp only [State.slotsetRun, hm, hf, hr, if_neg (Nat.not_le.mpr hv), slotSum_fits _ ht]
  rfl

theorem slotsetRun_clears (hm : i.mod 31 30 = 3) :
    s.slotsetRun n i = (s.clearLaunch n (i.mod 35 32)).markDone n i.tag Cnt.none := by
  simp only [State.slotsetRun, hm]
  rfl

/-! ### rngld and rngst (R215) -/

theorem rngldRun_loads (hf : rngFlt i roleA (s.jobOf n) = none)
    (hl : s.loadLanes n i (i.td roleA) (List.range (i.mod 27 20 + 1)) = (s', none)) :
    s.rngldRun n i = s'.doneAfter n i := by
  simp only [State.rngldRun, hf, hl]

theorem rngstRun_stores {s'' : State} {b : Bound} (hf : rngFlt i roleD (s.jobOf n) = none)
    (hb : s.bindTD n (s.jobOf n) .anywhere roleD { i.td roleD with sizes := [i.mod 27 20 + 1] } false true = (s'', .inr b))
    (hl : s''.storeLanes n i { i.td roleD with sizes := [i.mod 27 20 + 1] } (List.range (i.mod 27 20 + 1)) = (s', none)) :
    s.rngstRun n i = s'.doneAfter n i := by
  simp only [State.rngstRun, hf, hb, hl]

end

/-- Settles O10: an instruction that goes runs in its unit, and one that passes its checks does its work. -/
theorem descriptorInstructionsRun : Obligations.DescriptorInstructionsRun := by
  intro c s s' i
  refine ⟨fun data hg hf hr => ?dload, fun b x hg hf hb hx eb ex => ?dmod, fun v hg hf hr => ?dset,
    fun v hg hm hc hk hz hr hv ht => ?slotRead, fun hg hm ht => ?slotNow, fun hg hm hb hv ht => ?slotCopy,
    fun hg hm => ?slotClear, fun hg hf hl => ?rngld, fun s'' b hg hf hb hl => ?rngst⟩
  case dload => rw [exec_dload_goes hg, dloadRun_loads (s := s.sent c.val i) hf hr]
  case dmod =>
    have he := exec_dmod_goes hg
    rw [dmodRun_moves hf hb hx eb ex, keeping_markDone, keeping_setSlot, keeping_sent] at he
    refine ⟨fun hm => ?_, fun hm => ?_, fun hm => ?_⟩ <;> simpa [Insn.movedDesc, hm] using he
  case dset => rw [exec_dset_goes hg, dsetRun_sets (s := s.sent c.val i) hf hr]
  case slotRead => rw [exec_slotset_goes hg, slotsetRun_reads (s := s.sent c.val i) hm hc hk hz hr hv ht]
  case slotNow =>
    rw [exec_slotset_goes hg, slotsetRun_now hm (by rwa [sent_now]), keeping_markDone, keeping_setLaunch, keeping_sent, sent_now]
  case slotCopy =>
    rw [exec_slotset_goes hg, slotsetRun_copies hm (by rwa [sent_badWords]) (by rwa [sent_get]) (by rwa [sent_get]),
      keeping_markDone, keeping_setLaunch, keeping_sent, sent_get]
  case slotClear =>
    rw [exec_slotset_goes hg, slotsetRun_clears hm, keeping_markDone, keeping_clearLaunch, keeping_sent]
  case rngld => rw [exec_rngld_goes hg, rngldRun_loads (s := s.sent c.val i) hf hl]
  case rngst => rw [exec_rngst_goes hg, rngstRun_stores (s := s.sent c.val i) hf hb hl]

end Sys2Proof.Machine
end

section
/-!
PROOFS. A dmod that carries a descriptor with an unknown type code does not touch its core alone: it faults, and the fault is
recorded (R57, R212, R225; log entry 92).
-/

namespace Sys2Proof.Machine

/-- A dmod that moves an address by nothing, in a descriptor of rank 1 with base 0 whose type code, 0x10, no type has. -/
def badTypeDmod : Insn :=
  { mkInsn 1 0x1000 (BitVec.ofNat 128 (0x09 * 2 ^ 120)) with dA := BitVec.ofNat 1024 ((0x10 + 1 * 2 ^ 8) * 2 ^ 64) }

/-- Core 0 runs, and has that dmod alone in its window. -/
def badTypeState : State :=
  (State.reset.put (Reg.CORE.STREAM_STATE 0) 1).setCore 0 { CoreSt.zero with window := [badTypeDmod] }

/-- The fault with which the dmod's checks answer. -/
def badTypeFlt : Flt := fltOf cTYPE roleA (parseTD badTypeDmod.dA) 0

/-- What the fault leaves. -/
def badTypeFaulted : State :=
  ((badTypeState.sent 0 badTypeDmod).takeFault 0 badTypeDmod badTypeFlt).keeping badTypeState

theorem badTypeDmod_goes : badTypeState.goes 0 0x09 badTypeDmod := by
  unfold State.goes State.ready
  decide +kernel

theorem badTypeDmod_carried : (parseTD badTypeDmod.dA).carried roleA = some badTypeFlt := by decide +kernel

theorem exec_badTypeDmod : exec (.dmod 0) badTypeState = .next badTypeFaulted := by
  have he := exec_dmod_goes (c := 0) badTypeDmod_goes
  rwa [dmodRun_faults badTypeDmod_carried] at he

/-- The fault's record takes a number of the error log. -/
theorem badTypeFaulted_logged : badTypeFaulted.get Reg.ERR.LOG_SEQ ≠ badTypeState.get Reg.ERR.LOG_SEQ := by decide +kernel

/-- Refutes O59: its premise about a dmod asks for a rank and an address in range only. On badTypeState the dmod badTypeDmod
meets it, but faults with TYPE, and its record counts ERR.LOG_SEQ, a register outside the core's block. -/
theorem not_smallCommandsTouchOneUnit : ¬ Obligations.SmallCommandsTouchOneUnit := by
  intro h
  obtain ⟨-, hcore⟩ := h 0 0 false 0 (.dmod 0) badTypeDmod badTypeState badTypeFaulted
  have hmode : badTypeDmod.mod 35 34 = 0 := by decide +kernel
  have hrank : 1 ≤ (parseTD badTypeDmod.dA).rank ∧ (parseTD badTypeDmod.dA).rank ≤ 6 := by decide +kernel
  have haddr : ((0 : Nat) : Int) = (bitsOf badTypeDmod.dA.toNat 56 0 : Int) + 64 * signed 34 (badTypeDmod.mod 33 0) := by
    decide +kernel
  obtain ⟨-, -, hregs⟩ := hcore (.inr (.inr (.inr (.inr (.inl
    ⟨rfl, badTypeDmod_goes, hmode, hrank.1, hrank.2, 0, by decide, haddr⟩))))) exec_badTypeDmod
  exact badTypeFaulted_logged (hregs Reg.ERR.LOG_SEQ (.inl (by decide)))

end Sys2Proof.Machine
end

section
/-!
PROOFS. What an mcopy and the commands of the movers do (R219, R264 to R281).
-/

namespace Sys2Proof.Machine

/-! ### What keeps the phase and the queue (R531 to R534) -/

section
variable (t s : State) (m ch k v : Nat)

@[simp] theorem keeping_setCtx : (t.setCtx m ch k v).keeping s = (t.keeping s).setCtx m ch k v := rfl
@[simp] theorem keeping_putChan : (t.putChan m ch k v).keeping s = (t.keeping s).putChan m ch k v := rfl
@[simp] theorem keeping_mapRun (f : Run → Run) : (t.mapRun m ch f).keeping s = (t.keeping s).mapRun m ch f := rfl

end

/-! ### mcopy (R219, R265) -/

theorem exec_mcopy_goes {c : CoreIx} {s : State} {i : Insn} (h : s.goes c.val 0x30 i) :
    exec (.mcopy c) s = .next (((s.sent c.val i).mcopyRun c.val i).keeping s) :=
  live_of_goes h (fun s i => s.moverFree c.val i) (fun s i => s.mcopyRun c.val i) rfl

/-- An mcopy to a member of the configuration, on a channel that its job holds, starts its transfer. -/
theorem mcopyRun_starts {s : State} {n : Nat} {i : Insn} (hf : mcopyFlt i (s.jobOf n) = none)
    (hd : i.mod 17 17 = 1 → s.members.contains (i.mod 23 18) = true) (hv : bitOf (s.ctx n (i.mod 35 24) 0) 63 = true)
    (hj : bitsOf (s.ctx n (i.mod 35 24) 0) 5 0 = s.jobOf n) : s.mcopyRun n i = s.startRun n i := by
  simp only [State.mcopyRun, hf]
  rw [if_neg fun x => absurd x.2 (by rw [hd x.1]; decide), if_neg (by simp [hv, hj])]

/-! ### BURST_ISSUE (R264, R268, R272, R275) -/

section
variable {s : State} {m ch : Nat} {r : Run}

theorem exec_burstIssue {m : MoverIx} {ch : Fin 4096} (hu : s.phase = .up) :
    exec (.burstIssue m ch) s = .next ((s.burstIssue m.val ch.val).keeping s) :=
  whenLive_up hu fun s => s.burstIssue m.val ch.val

variable (hr : s.run? m ch = some r)
include hr

/-- What the command does for a channel with a transfer. -/
theorem burstIssue_run : s.burstIssue m ch =
    if s.hasReads r then (if s.behind r then s else s.settle m ch)
    else if !s.canCut r then s
    else if s.noRequest r then (s.putChan m ch r.tag 4).mapRun m ch fun x => { x with waitingReq := true }
    else if s.behind r then s
    else if s.cutOff r then (if r.bursts.isEmpty then (s.runFault r [] (noDevice r.d r.job)).settleMover m else s)
    else s.cutBurst r := by
  rw [State.burstIssue, hr]

theorem burstIssue_reads (hh : s.hasReads r = true) (hb : s.behind r = false) : s.burstIssue m ch = s.settle m ch := by
  rw [burstIssue_run hr, if_pos hh, if_neg (by simp [hb])]

theorem burstIssue_waits (hb : s.behind r = true)
    (h : s.hasReads r = true ∨ s.canCut r = true ∧ s.noRequest r = false) : s.burstIssue m ch = s := by
  rw [burstIssue_run hr, if_pos hb]
  split
  case isTrue => rfl
  case isFalse hh =>
    obtain ⟨hc, hn⟩ := h.resolve_left hh
    rw [if_neg (by simp [hc]), if_neg (by simp [hn])]

variable (hh : s.hasReads r = false) (hc : s.canCut r = true)
include hh hc

theorem burstIssue_paced (hn : s.noRequest r = true) :
    s.burstIssue m ch = (s.putChan m ch r.tag 4).mapRun m ch fun x => { x with waitingReq := true } := by
  rw [burstIssue_run hr, if_neg (by simp [hh]), if_neg (by simp [hc]), if_pos hn]

theorem burstIssue_cuts {s' : State} {pages : Bound} (hn : s.noRequest r = false) (hb : s.behind r = false)
    (ho : s.cutOff r = false) (hp : s.bindParts r.src r.job (s.plan r).parts [] = (s', .inr pages)) :
    s.burstIssue m ch = s'.openBurst r (s.plan r) pages := by
  rw [burstIssue_run hr, if_neg (by simp [hh]), if_neg (by simp [hc]), if_neg (by simp [hn]), if_neg (by simp [hb]),
    if_neg (by simp [ho])]
  simp only [State.cutBurst, hp]

end

/-! ### MOVER_REQ_RAISE (R274) -/

section
variable {s : State} {m : Nat}

theorem exec_moverReqRaise {m : MoverIx} (v : BitVec 64) (hu : s.phase = .up) (hd : s.host.d3hot = false) :
    exec (.moverReqRaise m v) s = .next ((s.reqRaise m.val v.toNat).keeping s) :=
  whenBar_up hu false (by simp [hd]) fun s => s.reqRaise m.val v.toNat

/-- A raised line of a mover that is present counts. -/
theorem reqRaise_present (v : Nat) (hm : s.moverPresent m = true) :
    s.reqRaise m v = s.raiseLine m (bitsOf v 36 32) (bitsOf v 15 0) := if_pos hm

theorem raiseLine_fits {line add : Nat} (h : s.get (Reg.MOVER.LINE_COUNT m line) + add ≤ 65535) :
    s.raiseLine m line add = s.put (Reg.MOVER.LINE_COUNT m line) (s.get (Reg.MOVER.LINE_COUNT m line) + add) := by
  rw [State.raiseLine, if_neg (Nat.not_lt.mpr h), Nat.min_eq_left h]

theorem raiseLine_overflows {line add : Nat} (h : 65535 < s.get (Reg.MOVER.LINE_COUNT m line) + add) :
    s.raiseLine m line add = (s.inc (Reg.MOVER.MOVER_REQ_OVF m) (s.get (Reg.MOVER.LINE_COUNT m line) + add - 65535)).put
      (Reg.MOVER.LINE_COUNT m line) 65535 := by
  rw [State.raiseLine, if_pos h, Nat.min_eq_right h.le]

end

/-! ### CTX_DATA, written by Sill firmware (R265, R281) -/

section
variable {s : State} {m k v : Nat}

theorem exec_ctxDataWrite {m : MoverIx} (k : Fin 8) (v : BitVec 64) (hu : s.phase = .up) :
    exec (.ctxDataWrite m k v true) s = .next ((s.ctxWrite m.val k.val v.toNat).keeping s) :=
  whenBar_up hu true (by simp) fun s => s.ctxDataWrite m.val k.val v.toNat true

/-- Words 1 and 7 take no write. -/
theorem ctxWrite_fixed (hk : k = 1 ∨ 7 ≤ k) : s.ctxWrite m k v = s := if_pos (by tauto)

/-- The other words take a zero alone, on an idle channel. -/
theorem ctxWrite_ignored (h0 : k ≠ 0) (h : s.chanIdle m (s.get (Reg.MOVER.CTX_SEL m)) = false ∨ v ≠ 0) :
    s.ctxWrite m k v = s := by
  have hn : ¬(s.chanIdle m (s.get (Reg.MOVER.CTX_SEL m)) = true ∧ v = 0) := fun x => h.elim (by simp [x.1]) (· x.2)
  simp only [State.ctxWrite, if_neg h0, if_neg hn, ite_self]

variable (hm : s.moverPresent m = true)
include hm

theorem ctxWrite_word0_idle (hi : s.chanIdle m (s.get (Reg.MOVER.CTX_SEL m)) = true) :
    s.ctxWrite m 0 v = s.setCtx m (s.get (Reg.MOVER.CTX_SEL m)) 0 (ctxMask v) := by
  simp [State.ctxWrite, hm, hi]

theorem ctxWrite_word0_busy (hi : s.chanIdle m (s.get (Reg.MOVER.CTX_SEL m)) = false) :
    s.ctxWrite m 0 v = s.put (Reg.MOVER.CTX_BUSY m) 1 := by
  simp [State.ctxWrite, hm, hi]

theorem ctxWrite_clears (hi : s.chanIdle m (s.get (Reg.MOVER.CTX_SEL m)) = true) (h0 : k ≠ 0) (h1 : k ≠ 1) (h7 : k < 7) :
    s.ctxWrite m k 0 = s.setCtx m (s.get (Reg.MOVER.CTX_SEL m)) k 0 := by
  simp [State.ctxWrite, hm, hi, h0, h1, h7]

end

/-- Settles O12: an mcopy that goes runs in its unit; the other commands act by the state of the channel, the line or the
context. -/
theorem moversRun : Obligations.MoversRun := by
  intro c m ch k v s s' i r pages
  refine ⟨fun hg hf hd hv hj => ?mcopy, fun hu hr => ⟨fun hh hb => ?reads, fun hh hc hn hb ho hp => ?cuts,
    fun hh hc hn => ?paced, fun hb h => ?waits⟩, ?raise, fun hu hm => ⟨fun hi h0 h1 h7 hv => ?clears, fun hi h0 => ?idle,
    fun hi h0 => ?busy, fun h => ?ignored⟩⟩
  case mcopy => rw [exec_mcopy_goes hg, mcopyRun_starts (s := s.sent c.val i) hf hd hv hj]
  case reads => rw [exec_burstIssue hu, burstIssue_reads hr hh hb]
  case cuts => rw [exec_burstIssue hu, burstIssue_cuts hr hh hc hn hb ho hp]
  case paced =>
    rw [exec_burstIssue hu, burstIssue_paced hr hh hc hn, keeping_mapRun, keeping_putChan, State.keeping_self]
  case waits => rw [exec_burstIssue hu, burstIssue_waits hr hb h, State.keeping_self]
  case raise =>
    intro line sum hu hd hm
    rw [exec_moverReqRaise v hu hd, reqRaise_present _ hm]
    refine ⟨fun hs => ?fits, fun hs => ?overflows⟩
    case fits => rw [raiseLine_fits hs, State.keeping_put, State.keeping_self]
    case overflows => rw [raiseLine_overflows hs, State.keeping_put, State.keeping_inc, State.keeping_self]
  case clears =>
    have hz : v.toNat = 0 := congrArg BitVec.toNat hv
    rw [exec_ctxDataWrite k v hu, hz, ctxWrite_clears hm hi h0 h1 (by omega), keeping_setCtx, State.keeping_self]
  case idle =>
    rw [exec_ctxDataWrite k v hu, h0, ctxWrite_word0_idle hm hi, keeping_setCtx, State.keeping_self]
    rfl
  case busy =>
    rw [exec_ctxDataWrite k v hu, h0, ctxWrite_word0_busy hm hi, State.keeping_put, State.keeping_self]
  case ignored =>
    rw [exec_ctxDataWrite k v hu]
    rcases h with h1 | h7 | ⟨h0, h⟩
    · rw [ctxWrite_fixed (.inl h1), State.keeping_self]
    · rw [ctxWrite_fixed (.inr h7.ge), State.keeping_self]
    · rw [ctxWrite_ignored h0 (h.imp_right fun hv => BitVec.toNat_ne_iff_ne.mpr hv), State.keeping_self]

end Sys2Proof.Machine
end

section
/-!
PROOFS. What lop, barr and mwait do (R220 to R222).
-/

namespace Sys2Proof.Machine

/-! ### Messages that enter the mesh (R283, R304) -/

@[simp] theorem crossTo_nil (t : NetSt) (a : Nat) : t.crossTo a [] = t := rfl

theorem crossTo_concat (t : NetSt) (a l : Nat) (ls : List Nat) :
    t.crossTo a (ls ++ [l]) = (t.crossTo a ls).cross a (homeRouter l) := List.foldl_append

/-- The messages that a lop sends: one for each of the first n latches of its range. -/
def NetSt.rangeMsgs (t : NetSt) (router src base : Nat) (op : HomeOp) (ack : Option (Nat × Nat)) (n : Nat) : List LatchMsg :=
  (List.range n).map fun k => ⟨src, (base + k) % 16384, op, ack, false, router, t.sent + k⟩

theorem rangeMsgs_succ (t : NetSt) (router src base : Nat) (op : HomeOp) (ack : Option (Nat × Nat)) (n : Nat) :
    t.rangeMsgs router src base op ack (n + 1) =
      t.rangeMsgs router src base op ack n ++ [⟨src, (base + n) % 16384, op, ack, false, router, t.sent + n⟩] := by
  simp [NetSt.rangeMsgs, List.range_succ]

/-- Messages to a range of latches cross the mesh to their homes one after another. -/
theorem foldl_injectLatch (s : State) (router src base : Nat) (op : HomeOp) (ack : Option (Nat × Nat)) (n : Nat) :
    (List.range n).foldl (fun s k => s.injectLatch router src (base + k) op ack false) s =
      { s with net := { s.net.crossTo router ((List.range n).map fun k => (base + k) % 16384) with
          latchMsgs := s.net.latchMsgs ++ s.net.rangeMsgs router src base op ack n, sent := s.net.sent + n } } := by
  induction n with
  | zero => simp [NetSt.rangeMsgs]
  | succ n ih =>
    rw [List.range_succ, List.foldl_append, ih, List.map_append, List.map_singleton, crossTo_concat, rangeMsgs_succ,
      ← List.append_assoc]
    rfl

/-! ### The commands -/

section
variable {c : CoreIx} {s : State} {i : Insn}

theorem exec_lop_goes (h : s.goes c.val 0x40 i) : exec (.lop c) s = .next (((s.sent c.val i).lopRun c.val i).keeping s) :=
  live_of_goes h always (fun s i => s.lopRun c.val i) rfl

theorem exec_barr_goes (h : s.goes c.val 0x41 i) :
    exec (.barr c) s = .next (((s.sent c.val i).sendArrival c.val (i.mod 35 25) i.tag).keeping s) :=
  live_of_goes h (fun s i => s.barrFree c.val i) (fun s i => s.sendArrival c.val (i.mod 35 25) i.tag) rfl

theorem exec_mwait_goes (h : s.goes c.val 0x42 i) :
    exec (.mwait c) s = .next (((s.sent c.val i).mwaitRun c.val i).keeping s) :=
  live_of_goes h (fun s i => !s.ownMonitor c.val (i.mod 35 28)) (fun s i => s.mwaitRun c.val i) rfl

/-- An arrival of a core leaves from the core's router. -/
theorem sendArrival_core (s : State) (c : CoreIx) (counter tag : Nat) : s.sendArrival c.val counter tag =
    { s with net := { s.net.cross (routerOf c.val) (homeRouter counter) with
        arrivals := s.net.arrivals ++ [⟨c.val, counter, tag, false, false, s.net.sent⟩] } } := by
  rw [State.sendArrival, State.injectBar, if_pos c.isLt]

end

/-! ### mwait (R222, R300) -/

/-- A mwait whose monitor is free, and whose word and comparand can be read, is met at once or arms its monitor. -/
theorem mwaitRun_tests {s s1 s2 s3 : State} {n : Nat} {i : Insn} {pa : Nat} {kill snap : Bool} {a x : Bytes}
    (hf : mwaitFlt i (s.jobOf n) = none) (hm : s.get (Reg.BARRIER.MON_ARMED (i.mod 35 28)) ≠ 1)
    (ht : s.xlat n (s.jobOf n) (i.td roleA).base true false = (s1, .ok pa kill snap)) (hh : inHost pa = false)
    (hx : s1.readVa n (s.jobOf n) (i.td roleX).base 8 = (s2, x, false, .done))
    (ha : s2.readPa n (s.jobOf n) pa 8 = (s3, a, false)) : s.mwaitRun n i =
    if monHolds (i.mod 27 26) (natOf a) (natOf x) then (s3.inc Reg.BARRIER.MON_WAKE 1).markDone n i.tag Cnt.none
    else s3.arm n (i.mod 35 28) i pa (natOf x) := by
  simp only [State.mwaitRun, hf, if_neg hm, ht, hh, hx, ha]
  rfl

/-- Settles O14: an instruction that goes runs in its unit. -/
theorem syncInstructionsRun : Obligations.SyncInstructionsRun := by
  intro c s s1 s2 s3 i
  refine ⟨fun hg => ?lop, fun hg => ?barr, fun pa kill snap a x hg hf hm ht hh hx ha => ?mwait⟩
  case lop =>
    rw [exec_lop_goes hg, State.lopRun, foldl_injectLatch]
    exact congrArg _ (State.keeping_eq _ _ rfl rfl)
  case barr =>
    rw [exec_barr_goes hg, sendArrival_core]
    rfl
  case mwait => rw [exec_mwait_goes hg, mwaitRun_tests (s := s.sent c.val i) hf hm ht hh hx ha]

end Sys2Proof.Machine
end

section
/-!
PROOFS. What the commands of streams, programs and HOST_COPY do (R194, R475, R487 to R489, R497).
-/

namespace Sys2Proof.Machine

section
variable {s u : State} {r : Req}

/-! ### STREAM_START and STREAM_RESUME (R488, R489) -/

theorem exec_streamStart (h : s.serves r .target u) (cores : BitVec 8) (va : BitVec 64) :
    exec (.streamStart r cores va) s =
      .next ((State.answered r (u.doStreamStart r cores.toNat va.toNat)).keeping s) :=
  serve_of_serves (serves_entry h (.inl rfl) _) false (State.doStreamStart r cores.toNat va.toNat)

theorem exec_streamResume (h : s.serves r .target u) (cores : BitVec 8) (va : BitVec 64) :
    exec (.streamResume r cores va) s =
      .next ((State.answered r (u.doStreamResume cores.toNat va.toNat)).keeping s) :=
  serve_of_serves (serves_entry h (.inl rfl) _) false (State.doStreamResume cores.toNat va.toNat)

section
variable {mask va : Nat}

theorem doStreamStart_unnamed (hj : r.job = 0) : u.doStreamStart r mask va = (u, just stBADPARAM) :=
  if_pos (by simp [jobNamed, hj])

theorem doStreamStart_fails (hj : r.job ≠ 0) {st : Nat} (hf : u.startFails r (maskCores mask) va = some st) :
    u.doStreamStart r mask va = (u, just st) := by
  simp [State.doStreamStart, jobNamed_eq_true hj, hf]

theorem doStreamStart_starts (hj : r.job ≠ 0) (hf : u.startFails r (maskCores mask) va = none) :
    u.doStreamStart r mask va = ((maskCores mask).foldl (State.startStream r.job.toNat va)
      { u with host := { u.host with killed := setErase r.job.toNat u.host.killed } }, just stSUCCESS) := by
  simp [State.doStreamStart, jobNamed_eq_true hj, hf]

theorem doStreamResume_fails {st : Nat} (hf : u.resumeFails (maskCores mask) va = some st) :
    u.doStreamResume mask va = (u, just st) := by
  simp only [State.doStreamResume, hf]

theorem doStreamResume_resumes (hf : u.resumeFails (maskCores mask) va = none) :
    u.doStreamResume mask va = ((maskCores mask).foldl (fun t n =>
      t.runFrom n (if va = 0 then t.get (Reg.CORE.PC n) else va)) u, just stSUCCESS) := by
  simp only [State.doStreamResume, hf]

end

/-! ### PROGRAM_LOAD (R487) -/

theorem exec_programLoad (h : s.serves r .target u) (core : BitVec 8) (first count : BitVec 16) (va : BitVec 64) :
    exec (.programLoad r core first count va) s =
      .next ((State.answered r (u.doProgramLoad r core.toNat first.toNat count.toNat va.toNat)).keeping s) :=
  serve_of_serves (serves_entry h (.inl rfl) _) false
    (State.doProgramLoad r core.toNat first.toNat count.toNat va.toNat)

/-- What PROGRAM_LOAD answers once its descriptors have been read. -/
def State.programLoaded (n first count : Nat) (x : State) (b : Bytes) : State × Answer :=
  let v := x.loadSlots n first count b
  (v.setCore n { v.core n with marks := (List.range count).foldl (fun l k => setInsert (first + k) l) (v.core n).marks },
    just stSUCCESS)

section
variable {n first count va : Nat}

theorem doProgramLoad_bad (hb : r.job = 0 ∨ 7 < n ∨ count = 0 ∨ 4096 < first + count) :
    u.doProgramLoad r n first count va = (u, just stBADPARAM) :=
  if_pos (by simpa [jobNamed] using hb)

variable (hj : r.job ≠ 0) (hn : n ≤ 7) (hc : count ≠ 0) (hl : first + count ≤ 4096)
include hj hn hc hl

theorem doProgramLoad_absent (hp : u.present n = false) :
    u.doProgramLoad r n first count va = (u, just stNOCORE) := by
  rw [State.doProgramLoad, if_neg (by simp [jobNamed_eq_true hj]; omega), if_pos (by simp [hp])]

theorem doProgramLoad_reads (hp : u.present n = true) : u.doProgramLoad r n first count va =
    afterRead (State.programLoaded n first count) (u.readParam r va (128 * count)) := by
  rw [State.doProgramLoad, if_neg (by simp [jobNamed_eq_true hj]; omega), if_neg (by simp [hp])]
  rcases u.readParam r va (128 * count) with ⟨x, st | b⟩ <;> rfl

end

/-! ### HOST_COPY (R279, R497) -/

theorem exec_hostCopy (h : s.serves r .target u) (dir : BitVec 8) (hostAt va len : BitVec 64) :
    exec (.hostCopy r dir hostAt va len) s =
      .next ((State.answered r (u.doHostCopy r dir.toNat hostAt.toNat va.toNat len.toNat)).keeping s) :=
  serve_of_serves (serves_entry h (.inl rfl) _) false
    (State.doHostCopy r dir.toNat hostAt.toNat va.toNat len.toNat)

/-- The operands of HOST_COPY that no transfer can have. -/
def badCopy (dir hostAt va len : Nat) : Prop := 1 < dir ∨ hostAt % 64 ≠ 0 ∨ 2 ^ 57 < va + len

/-- What HOST_COPY finds when it translates the sectors of its range. -/
def State.copyReach (u : State) (r : Req) (dir va len : Nat) : State × Option Nat :=
  u.reachable r.job.toNat (dir = 1) (dir = 0) (sectorsOf va len)

/-- What HOST_COPY answers once its sectors are translated: a copy is done, sent, or asked for. -/
def State.hostCopied (r : Req) (dir hostAt va len : Nat) : State × Option Nat → State × Answer
  | (t, some st) => (t, just st)
  | (t, none) =>
    let out := t.copyOut r.job.toNat hostAt va (sectorsOf va len)
    if len = 0 then (t, just stSUCCESS)
    else if dir = 1 then (out.1, just out.2)
    else ((t.letWait r).copyIn r hostAt va len, none)

section
variable {dir hostAt va len : Nat} {x : State × Option Nat}

theorem hostCopied_unreachable {st : Nat} (hx : x.2 = some st) :
    State.hostCopied r dir hostAt va len x = (x.1, just st) := by
  obtain ⟨t, o⟩ := x
  obtain rfl : o = _ := hx
  rfl

variable (hx : x.2 = none)
include hx

theorem hostCopied_reached : State.hostCopied r dir hostAt va len x =
    if len = 0 then (x.1, just stSUCCESS)
    else if dir = 1 then ((x.1.copyOut r.job.toNat hostAt va (sectorsOf va len)).1,
      just (x.1.copyOut r.job.toNat hostAt va (sectorsOf va len)).2)
    else ((x.1.letWait r).copyIn r hostAt va len, none) := by
  obtain ⟨t, o⟩ := x
  obtain rfl : o = _ := hx
  rfl

theorem hostCopied_empty (hl : len = 0) : State.hostCopied r dir hostAt va len x = (x.1, just stSUCCESS) :=
  (hostCopied_reached hx).trans (if_pos hl)

theorem hostCopied_out (hl : len ≠ 0) (hd : dir = 1) : State.hostCopied r dir hostAt va len x =
    ((x.1.copyOut r.job.toNat hostAt va (sectorsOf va len)).1,
      just (x.1.copyOut r.job.toNat hostAt va (sectorsOf va len)).2) :=
  (hostCopied_reached hx).trans ((if_neg hl).trans (if_pos hd))

theorem hostCopied_in (hl : len ≠ 0) (hd : dir = 0) :
    State.hostCopied r dir hostAt va len x = ((x.1.letWait r).copyIn r hostAt va len, none) :=
  (hostCopied_reached hx).trans ((if_neg hl).trans (if_neg (by omega)))

end

section
variable {dir hostAt va len : Nat}

theorem doHostCopy_badJob {st : Nat} (hj : u.jobFails r = some st) :
    u.doHostCopy r dir hostAt va len = (u, just st) := by
  simp only [State.doHostCopy, hj]

variable (hj : u.jobFails r = none)
include hj

theorem doHostCopy_bad (hb : badCopy dir hostAt va len) : u.doHostCopy r dir hostAt va len = (u, just stBADPARAM) := by
  simp only [State.doHostCopy, hj]
  exact if_pos hb

theorem doHostCopy_good (hb : ¬badCopy dir hostAt va len) : u.doHostCopy r dir hostAt va len =
    State.hostCopied r dir hostAt va len (u.copyReach r dir va len) := by
  simp only [State.doHostCopy, hj]
  refine (if_neg hb).trans ?_
  rw [State.copyReach]
  rcases u.reachable r.job.toNat (dir = 1) (dir = 0) (sectorsOf va len) with ⟨t, _ | st⟩ <;> rfl

end
end

/-- Settles O49: a command is what this device's part answers, and the part answers by the checks it makes in order. -/
theorem streamCommandsAct : Obligations.StreamCommandsAct := by
  intro r cores core dir va hostAt len first count s u fails h
  refine ⟨fun hj => ⟨?startUnnamed, ?loadUnnamed⟩, fun st hj hf => ?startFails, fun hj hf => ?starts,
    fun st hf => ?resumeFails, fun hf => ?resumes,
    fun hj => ⟨fun hb => ?loadBad, fun hn hc hl => ⟨fun hp => ?loadAbsent, fun hp => ?loadPresent⟩⟩,
    fun st hf => ?copyBadJob, fun hj => ?copyGoodJob⟩
  case startUnnamed => rw [exec_streamStart h, doStreamStart_unnamed hj, answered_just]
  case loadUnnamed => rw [exec_programLoad h, doProgramLoad_bad (.inl hj), answered_just]
  case startFails => rw [exec_streamStart h, doStreamStart_fails hj hf, answered_just]
  case starts =>
    rw [exec_streamStart h, doStreamStart_starts hj hf]
    rfl
  case resumeFails => rw [exec_streamResume h, doStreamResume_fails hf, answered_just]
  case resumes =>
    rw [exec_streamResume h, doStreamResume_resumes hf]
    rfl
  case loadBad =>
    rw [exec_programLoad h, doProgramLoad_bad (.inr (by simpa [← BitVec.toNat_inj] using hb)), answered_just]
  case loadAbsent =>
    rw [exec_programLoad h, doProgramLoad_absent hj hn (BitVec.toNat_ne_iff_ne.mpr hc) hl hp, answered_just]
  case loadPresent =>
    rw [exec_programLoad h, doProgramLoad_reads hj hn (BitVec.toNat_ne_iff_ne.mpr hc) hl hp]
    refine ⟨fun st hs => ?_, fun b hs => ?_⟩
    · rw [afterRead_failed _ hs, answered_just]
    · rw [afterRead_done _ hs]
      rfl
  case copyBadJob => rw [exec_hostCopy h, doHostCopy_badJob hf, answered_just]
  case copyGoodJob =>
    intro job secs bad x
    have hx : u.copyReach r dir.toNat va.toNat len.toNat = x := rfl
    rw [exec_hostCopy h]
    refine ⟨fun hb => ?bad, fun hb => ?good⟩
    case bad => rw [doHostCopy_bad hj hb, answered_just]
    case good =>
      rw [doHostCopy_good hj hb, hx]
      refine ⟨fun st hu => ?unreachable, fun hu => ⟨fun hz => ?nothing, fun hz =>
        ⟨fun hd => ?sent, fun hd => ?asked⟩⟩⟩
      case unreachable => rw [hostCopied_unreachable hu, answered_just]
      case nothing => rw [hostCopied_empty hu (congrArg BitVec.toNat hz), answered_just]
      case sent => rw [hostCopied_out hu (BitVec.toNat_ne_iff_ne.mpr hz) (congrArg BitVec.toNat hd), answered_just]
      case asked => rw [hostCopied_in hu (BitVec.toNat_ne_iff_ne.mpr hz) (congrArg BitVec.toNat hd), answered_none]

end Sys2Proof.Machine
end

section
/-!
PROOFS. The map of main memory: the place of a granule in its block's rotation, and that no two sectors share a place (R252).
-/

namespace Sys2Proof.Machine

/-! ### The rotation of a block (R252) -/

theorem add_mod_injective {c a b f : Nat} (ha : a < c) (hb : b < c) (h : (a + f) % c = (b + f) % c) : a = b :=
  (Nat.ModEq.add_right_cancel' f h).eq_of_lt_of_lt ha hb

theorem exists_add_mod_eq {c q : Nat} (f : Nat) (hq : q < c) : ∃ a, a < c ∧ (a + f) % c = q := by
  have hc : 0 < c := Nat.zero_lt_of_lt hq
  have hf : f % c < c := Nat.mod_lt f hc
  refine ⟨(q + (c - f % c)) % c, Nat.mod_lt _ hc, ?_⟩
  rw [Nat.mod_add_mod, Nat.add_mod, ← Nat.mod_mod f c, ← Nat.add_mod, Nat.mod_mod, Nat.add_assoc,
    Nat.sub_add_cancel hf.le, Nat.add_mod_right, Nat.mod_eq_of_lt hq]

section
variable (s : State)

/-- The granules of a block: one for each channel of the map's windows. -/
def State.blockSize : Nat := 40 * s.get (Reg.WIN.MAP_W 0)

/-- How far block b is rotated: its number under the hash key, folded to 16 bits. -/
def State.blockFold (b : Nat) : Nat :=
  let x := b ^^^ s.get (Reg.WIN.HASH_KEY 0)
  (x ^^^ x / 2 ^ 16 ^^^ x / 2 ^ 32 ^^^ x / 2 ^ 48) % 65536

/-- The place of granule g in its block after the rotation. -/
def State.blockPlace (g : Nat) : Nat := (g % s.blockSize + s.blockFold (g / s.blockSize)) % s.blockSize

/-- The location of an address, by the place of its granule. -/
theorem locate_eq (pa : Nat) : s.locate pa =
    (s.activeWins.getD (s.blockPlace (pa / 256) % s.get (Reg.WIN.MAP_W 0)) 0,
      s.blockPlace (pa / 256) / s.get (Reg.WIN.MAP_W 0),
      s.blockPlace (pa / 256) / s.get (Reg.WIN.MAP_W 0) * 2 ^ (s.get (Reg.WIN.MAP_L 0) + 2) +
        pa / 256 / s.blockSize * 4 + pa / 64 % 4) := rfl

/-- The location of a granule's first byte. -/
theorem locate_granule (g : Nat) : (s.locate (256 * g)).1 = s.activeWins.getD (s.blockPlace g % s.get (Reg.WIN.MAP_W 0)) 0 ∧
    (s.locate (256 * g)).2.1 = s.blockPlace g / s.get (Reg.WIN.MAP_W 0) := by
  rw [locate_eq, Nat.mul_div_cancel_left g (by decide)]
  exact ⟨rfl, rfl⟩

theorem blockFold_eq_and (b : Nat) : s.blockFold b =
    let x := b ^^^ s.get (Reg.WIN.HASH_KEY 0)
    (x ^^^ x >>> 16 ^^^ x >>> 32 ^^^ x >>> 48) &&& 0xFFFF := by
  simp only [State.blockFold, Nat.shiftRight_eq_div_pow]
  exact (Nat.and_two_pow_sub_one_eq_mod _ 16).symm

variable {s}

theorem blockPlace_injective {g g' : Nat} (hc : 0 < s.blockSize) (hb : g / s.blockSize = g' / s.blockSize)
    (hp : s.blockPlace g = s.blockPlace g') : g = g' := by
  rw [State.blockPlace, State.blockPlace, hb] at hp
  rw [← Nat.div_add_mod g s.blockSize, ← Nat.div_add_mod g' s.blockSize, hb,
    add_mod_injective (Nat.mod_lt _ hc) (Nat.mod_lt _ hc) hp]

/-- Every place of a block is some granule's. -/
theorem exists_blockPlace_eq {q : Nat} (b : Nat) (hq : q < s.blockSize) :
    ∃ g, g / s.blockSize = b ∧ s.blockPlace g = q := by
  obtain ⟨a, ha, hf⟩ := exists_add_mod_eq (s.blockFold b) hq
  have hdiv : (s.blockSize * b + a) / s.blockSize = b := by
    rw [Nat.mul_add_div (Nat.zero_lt_of_lt ha), Nat.div_eq_of_lt ha, Nat.add_zero]
  refine ⟨s.blockSize * b + a, hdiv, ?_⟩
  rw [State.blockPlace, hdiv, Nat.mul_add_mod, Nat.mod_eq_of_lt ha, hf]

/-- The next granule of a block has the next place. -/
theorem blockPlace_succ {g : Nat} (h : g % s.blockSize + 1 < s.blockSize) :
    s.blockPlace (g + 1) = (s.blockPlace g + 1) % s.blockSize := by
  have hg : g + 1 = s.blockSize * (g / s.blockSize) + (g % s.blockSize + 1) := by
    rw [← Nat.add_assoc, Nat.div_add_mod]
  have hdiv : (g + 1) / s.blockSize = g / s.blockSize := by
    rw [hg, Nat.mul_add_div (Nat.zero_lt_of_lt h), Nat.div_eq_of_lt h, Nat.add_zero]
  have hmod : (g + 1) % s.blockSize = g % s.blockSize + 1 := by
    rw [hg, Nat.mul_add_mod, Nat.mod_eq_of_lt h]
  rw [State.blockPlace, State.blockPlace, hdiv, hmod, Nat.mod_add_mod, Nat.add_right_comm]

end

/-- The fields of a sled sector address: the block above the sector in its granule, the channel's granules above both. -/
theorem sectorAddress_eq_or {l b r : Nat} (a : Nat) (hb : b < 2 ^ l) (hr : r < 2 ^ 2) :
    a * 2 ^ (l + 2) + b * 4 + r = a <<< (l + 2) ||| b <<< 2 ||| r := by
  have hlow : b <<< 2 + r < 2 ^ (l + 2) := by
    rw [Nat.shiftLeft_eq, Nat.pow_add]
    omega
  rw [Nat.or_assoc, ← Nat.shiftLeft_add_eq_or_of_lt hr, ← Nat.shiftLeft_add_eq_or_of_lt hlow, Nat.shiftLeft_eq,
    Nat.shiftLeft_eq, Nat.add_assoc]

/-! ### The windows of the map (R252) -/

theorem activeWins_getD_injective {s : State} {j k : Nat} (hj : j < s.activeWins.length) (hk : k < s.activeWins.length)
    (h : s.activeWins.getD j 0 = s.activeWins.getD k 0) : j = k := by
  have hn : s.activeWins.Nodup := List.nodup_range.filter _
  rw [List.getD_eq_getElem _ _ hj, List.getD_eq_getElem _ _ hk] at h
  exact hn.getElem_inj_iff.mp h

section
variable {s : State} (hw : s.get (Reg.WIN.MAP_W 0) = s.activeWins.length) (hne : s.activeWins ≠ [])
include hw hne

theorem mapW_pos : 0 < s.get (Reg.WIN.MAP_W 0) := hw ▸ List.length_pos_iff.mpr hne

theorem blockSize_pos : 0 < s.blockSize := Nat.mul_pos (by decide) (mapW_pos hw hne)

/-- The window of place q, and its channel, name q. -/
theorem place_eq_of_window_of_channel {q q' : Nat}
    (h1 : s.activeWins.getD (q % s.get (Reg.WIN.MAP_W 0)) 0 = s.activeWins.getD (q' % s.get (Reg.WIN.MAP_W 0)) 0)
    (h2 : q / s.get (Reg.WIN.MAP_W 0) = q' / s.get (Reg.WIN.MAP_W 0)) : q = q' := by
  have hlt (n : Nat) : n % s.get (Reg.WIN.MAP_W 0) < s.activeWins.length := hw ▸ Nat.mod_lt n (mapW_pos hw hne)
  have hmod := activeWins_getD_injective (hlt q) (hlt q') h1
  rw [← Nat.div_add_mod q (s.get (Reg.WIN.MAP_W 0)), ← Nat.div_add_mod q' (s.get (Reg.WIN.MAP_W 0)), h2, hmod]

theorem blockPlace_eq_of_locate_eq {g g' : Nat} (h1 : (s.locate (256 * g)).1 = (s.locate (256 * g')).1)
    (h2 : (s.locate (256 * g)).2.1 = (s.locate (256 * g')).2.1) : s.blockPlace g = s.blockPlace g' := by
  rw [(locate_granule s g).1, (locate_granule s g').1] at h1
  rw [(locate_granule s g).2, (locate_granule s g').2] at h2
  exact place_eq_of_window_of_channel hw hne h1 h2

/-- Two sectors of one location are one sector. -/
theorem sector_eq_of_locate_eq {x y : Nat} (h : s.locate x = s.locate y) : x / 64 = y / 64 := by
  rw [locate_eq, locate_eq, Prod.mk.injEq, Prod.mk.injEq] at h
  obtain ⟨hwin, hch, hsec⟩ := h
  have hplace := place_eq_of_window_of_channel hw hne hwin hch
  rw [hch] at hsec
  have hblock : x / 256 / s.blockSize = y / 256 / s.blockSize := by omega
  have hgranule : x / 256 = y / 256 := blockPlace_injective (blockSize_pos hw hne) hblock hplace
  omega

end

/-- Settles O51: a block's granules are rotated within the block, and the place of a granule names its window and channel. -/
theorem mapIsOneToOne : Obligations.MapIsOneToOne := by
  intro s hw hne w c l key
  have hW : s.get (Reg.WIN.MAP_W 0) = w := hw
  have hc : s.blockSize = c := congrArg (40 * ·) hw
  refine ⟨fun pa hb => ?formula, fun x y _ _ h => sector_eq_of_locate_eq hw hne h, fun b j ch hj hch => ?channels,
    fun g hg => ?windows⟩
  case formula =>
    intro b x f q
    have hpa : pa / 256 = pa >>> 8 := (Nat.shiftRight_eq_div_pow pa 8).symm
    have hplace : s.blockPlace (pa / 256) = q := by rw [State.blockPlace, blockFold_eq_and, hc, hpa]
    have hlast : pa / 64 % 4 = pa >>> 6 &&& 3 := by
      rw [Nat.shiftRight_eq_div_pow]
      exact (Nat.and_two_pow_sub_one_eq_mod _ 2).symm
    rw [locate_eq, hplace, hW, hc, hpa, hlast]
    exact congrArg (fun n => (_, _, n)) (sectorAddress_eq_or (q / w) hb (hlast ▸ Nat.mod_lt _ (by decide)))
  case channels =>
    have hdiv : (w * ch + j) / w = ch := by
      rw [Nat.mul_add_div (Nat.zero_lt_of_lt hj), Nat.div_eq_of_lt hj, Nat.add_zero]
    have hmod : (w * ch + j) % w = j := by rw [Nat.mul_add_mod, Nat.mod_eq_of_lt hj]
    have hlt : w * ch + j < s.blockSize := by
      have := Nat.mul_le_mul_left w (Nat.le_of_lt_succ hch)
      omega
    obtain ⟨g, hblock, hplace⟩ := exists_blockPlace_eq b hlt
    obtain ⟨hwin, hchan⟩ := locate_granule s g
    rw [hplace, hW, hmod] at hwin
    rw [hplace, hW, hdiv] at hchan
    refine ⟨g, hc ▸ hblock, hwin, hchan, fun g' hblock' hwin' hchan' => ?_⟩
    exact blockPlace_injective (blockSize_pos hw hne) (by rw [hblock, hc, hblock'])
      (blockPlace_eq_of_locate_eq hw hne (hwin'.trans hwin.symm) (hchan'.trans hchan.symm))
  case windows =>
    refine ⟨s.blockPlace g % w, Nat.mod_lt _ (List.length_pos_iff.mpr hne), hW ▸ (locate_granule s g).1, ?_⟩
    rw [(locate_granule s (g + 1)).1, blockPlace_succ (hc ▸ hg), hW, hc, Nat.mod_mod_of_dvd _ (Nat.dvd_mul_left w 40),
      Nat.mod_add_mod]

end Sys2Proof.Machine
end

section
/-!
PROOFS. The bring-up of the memory windows (R258, R259, R518).
-/

namespace Sys2Proof.Machine

section
variable {s : State} {w : Nat}

/-! ### The identity record of a sled (R258) -/

/-- The identity record of a window's sled is held. -/
def State.sledNamed (s : State) (w sledId cap pairs : Nat) : State :=
  s.puts [(Reg.WIN.STATE w, 2), (Reg.WIN.SLED_ID w, sledId), (Reg.WIN.CAP w, cap), (Reg.WIN.PAIRS w, min pairs 4),
    (Reg.WIN.DEGRADED w, ofBool (decide (pairs < 4)))]

theorem sledNamed_now (sledId cap pairs : Nat) : (s.sledNamed w sledId cap pairs).now = s.now := by
  refine State.get_puts_ne _ _ _ ?_
  simp only [List.forall_mem_cons, Fld.key, Reg.TIME.NOW, Reg.WIN.STATE, Reg.WIN.SLED_ID, Reg.WIN.CAP, Reg.WIN.PAIRS,
    Reg.WIN.DEGRADED, winBase]
  refine ⟨?_, ?_, ?_, ?_, ?_, by simp⟩ <;> omega

theorem sledNamed_win (sledId cap pairs : Nat) : (s.sledNamed w sledId cap pairs).win w = s.win w :=
  puts_part (fun t => t.win w) (fun _ _ _ => rfl) s _

/-- A sled that a window can use, named within 12 ms. -/
abbrev State.sledFits (s : State) (w cap channels ver pairs : Nat) : Prop :=
  (cap = 1 ∨ cap = 2) ∧ channels = 40 ∧ ver = 1 ∧ 2 ≤ pairs ∧ s.now ≤ (s.win w).startedAt + 12000000

theorem misfit_iff {sledId cap channels ver pairs : Nat} :
    (cap = 0 ∨ 2 < cap ∨ channels ≠ 40 ∨ ver ≠ 1 ∨ pairs < 2 ∨ (s.sledNamed w sledId cap pairs).pastInit w = true) ↔
      ¬s.sledFits w cap channels ver pairs := by
  rw [State.pastInit, decide_eq_true_iff, sledNamed_win, sledNamed_now]
  omega

/-- A fresh nonce goes to the sled of a window that has so many usable pairs. -/
def State.sledChallenged (s : State) (w pairs : Nat) : State :=
  let n := Config.random s.freeCtr
  ((s.setWin w { s.win w with nonce := some n, nonceAt := s.now, lost := (List.range 4).drop pairs }).draw).mapLink w
    fun l => l.received.send (mgmtMessage (bytesOf 32 n)) []

section
variable {sledId cap channels ver pairs : Nat} (hst : s.get (Reg.WIN.STATE w) = 1)
include hst

theorem lanesLocked_named (ok : Bool) : s.lanesLocked w sledId cap channels ver pairs ok =
    let u := s.sledNamed w sledId cap pairs
    if s.sledFits w cap channels ver pairs then
      if !ok then ((u.inc Reg.SEC.VERIFY_CNT 1).verifyFail 2 w 1).exclude w
      else (u.inc Reg.SEC.VERIFY_CNT 1).sledChallenged w pairs
    else u.exclude w := by
  refine (if_neg (not_not.mpr hst)).trans ?_
  by_cases hf : s.sledFits w cap channels ver pairs
  · exact (if_neg (mt misfit_iff.mp (not_not.mpr hf))).trans (if_pos hf).symm
  · exact (if_pos (misfit_iff.mpr hf)).trans (if_neg hf).symm

theorem lanesLocked_certified (hf : s.sledFits w cap channels ver pairs) :
    s.lanesLocked w sledId cap channels ver pairs true =
      ((s.sledNamed w sledId cap pairs).inc Reg.SEC.VERIFY_CNT 1).sledChallenged w pairs :=
  (lanesLocked_named hst true).trans ((if_pos hf).trans (if_neg (by simp)))

theorem lanesLocked_uncertified (hf : s.sledFits w cap channels ver pairs) :
    s.lanesLocked w sledId cap channels ver pairs false =
      (((s.sledNamed w sledId cap pairs).inc Reg.SEC.VERIFY_CNT 1).verifyFail 2 w 1).exclude w :=
  (lanesLocked_named hst false).trans ((if_pos hf).trans (if_pos rfl))

theorem lanesLocked_misfit (hf : ¬s.sledFits w cap channels ver pairs) (ok : Bool) :
    s.lanesLocked w sledId cap channels ver pairs ok = (s.sledNamed w sledId cap pairs).exclude w :=
  (lanesLocked_named hst ok).trans (if_neg hf)

end

/-! ### The answer of a sled (R518) -/

/-- The answer to a window's nonce has come: its flit acknowledges what went out, and the nonce is spent. -/
def State.nonceSpent (s : State) (w : Nat) : State :=
  (s.mapLink w fun l => l.received.ackAll).setWin w { s.win w with nonce := none }

theorem nonceSpent_counted_now : ((s.nonceSpent w).inc Reg.SEC.VERIFY_CNT 1).now = s.now :=
  State.get_inc_ne _ _ _ _ (by decide)

theorem nonceSpent_pastInit : (s.nonceSpent w).pastInit w = decide ((s.win w).startedAt + 12000000 < s.now) := by
  rw [State.pastInit, State.nonceSpent, State.win_setWin_self]
  rfl

section
variable {n : Nat} (hst : s.get (Reg.WIN.STATE w) = 2) (hn : (s.win w).nonce = some n)
include hst hn

theorem nonce_awaited : ¬(s.get (Reg.WIN.STATE w) ≠ 2 ∨ (s.win w).nonce.isNone = true) := by simp [hst, hn]

/-- The checks of an answer that a window waits for, in order. -/
theorem sledAnswer_awaited (ok : Bool) : s.sledAnswer w ok =
    let u := s.nonceSpent w
    let v := u.inc Reg.SEC.VERIFY_CNT 1
    if (s.win w).startedAt + 12000000 < s.now then u.exclude w
    else if (s.win w).nonceAt + 5000000 < s.now then (v.verifyFail 2 w 3).exclude w
    else if !ok then (v.verifyFail 2 w 2).exclude w
    else if v.duplicateSled w then (v.verifyFail 2 w 4).exclude w
    else v.put (Reg.WIN.STATE w) 3 := by
  have hinit : (s.nonceSpent w).pastInit w = true ↔ (s.win w).startedAt + 12000000 < s.now := by
    rw [nonceSpent_pastInit, decide_eq_true_iff]
  have hlate : (s.win w).nonceAt + 5000000 < ((s.nonceSpent w).inc Reg.SEC.VERIFY_CNT 1).now ↔
      (s.win w).nonceAt + 5000000 < s.now := by rw [nonceSpent_counted_now]
  exact (if_neg (nonce_awaited hst hn)).trans (if_congr hinit rfl (if_congr hlate rfl rfl))

theorem sledAnswer_pastInit (h : (s.win w).startedAt + 12000000 < s.now) (ok : Bool) :
    s.sledAnswer w ok = (s.nonceSpent w).exclude w :=
  (sledAnswer_awaited hst hn ok).trans (if_pos h)

theorem sledLate_awaited : s.sledLate w =
    (((s.passTo ((s.win w).nonceAt + 5000000)).setWin w { s.win w with nonce := none }).verifyFail 2 w 3).exclude w :=
  if_neg (nonce_awaited hst hn)

section
variable (hi : s.now ≤ (s.win w).startedAt + 12000000)
include hi

theorem sledAnswer_late (h : (s.win w).nonceAt + 5000000 < s.now) (ok : Bool) :
    s.sledAnswer w ok = (((s.nonceSpent w).inc Reg.SEC.VERIFY_CNT 1).verifyFail 2 w 3).exclude w :=
  (sledAnswer_awaited hst hn ok).trans ((if_neg hi.not_gt).trans (if_pos h))

section
variable (h : s.now ≤ (s.win w).nonceAt + 5000000)
include h

theorem sledAnswer_bad :
    s.sledAnswer w false = (((s.nonceSpent w).inc Reg.SEC.VERIFY_CNT 1).verifyFail 2 w 2).exclude w :=
  (sledAnswer_awaited hst hn false).trans ((if_neg hi.not_gt).trans ((if_neg h.not_gt).trans (if_pos rfl)))

theorem sledAnswer_good : s.sledAnswer w true =
    let v := (s.nonceSpent w).inc Reg.SEC.VERIFY_CNT 1
    if v.duplicateSled w then (v.verifyFail 2 w 4).exclude w else v.put (Reg.WIN.STATE w) 3 :=
  (sledAnswer_awaited hst hn true).trans ((if_neg hi.not_gt).trans ((if_neg h.not_gt).trans (if_neg (by simp))))

end
end
end

/-! ### READY, and the end of the time for it (R258) -/

section
variable (hst : s.get (Reg.WIN.STATE w) = 3) (hr : (s.win w).ready = false)
include hst hr

theorem sledIsReady_awaited : s.sledIsReady w =
    if (s.win w).startedAt + 2000000000 < s.now then s.exclude w
    else (s.heard w none).setWin w { s.win w with ready := true } :=
  if_neg (by simp [hst, hr])

theorem bringupLate_unready : s.bringupLate w = (s.passTo ((s.win w).startedAt + 2000000000)).exclude w :=
  (if_neg (by omega)).trans (if_pos ⟨hst, by simp [hr]⟩)

end

theorem bringupLate_uninitialized (hst : s.get (Reg.WIN.STATE w) = 1 ∨ s.get (Reg.WIN.STATE w) = 2) :
    s.bringupLate w = (s.passTo ((s.win w).startedAt + 12000000)).exclude w := if_pos hst

end

/-! ### The commands -/

section
variable (w : WinIx) (s : State)

theorem exec_windowLanesLocked (sledId : BitVec 64) (cap channels : BitVec 8) (ver : BitVec 16) (pairs : BitVec 3) (ok : Bool) :
    exec (.windowLanesLocked w sledId cap channels ver pairs ok) s = whenLive s fun s =>
      s.lanesLocked w.val sledId.toNat cap.toNat channels.toNat ver.toNat pairs.toNat ok := rfl

theorem exec_sledChallengeResponse (ok : Bool) :
    exec (.sledChallengeResponse w ok) s = whenLive s fun s => s.sledAnswer w.val ok := rfl

theorem exec_sledVerifyTimeout : exec (.sledVerifyTimeout w) s = whenLive s fun s => s.sledLate w.val := rfl

theorem exec_sledReady : exec (.sledReady w) s = whenLive s fun s => s.sledIsReady w.val := rfl

theorem exec_bringupTimeout : exec (.bringupTimeout w) s = whenLive s fun s => s.bringupLate w.val := rfl

end

/-- Settles O26: each command is its operation, which makes its checks in order. -/
theorem windowsComeUp : Obligations.WindowsComeUp := by
  intro w sledId cap channels ver pairs ok s hu start
  refine ⟨?locked, fun n hst hn => ?answered, fun hst hr => ⟨fun ht => ?ready, fun ht => ?unready, ?late⟩, fun hst => ?unnamed⟩
  case locked =>
    intro u v n fits hst
    have hfits : s.sledFits w.val cap.toNat channels.toNat ver.toNat pairs.toNat ↔ fits := by
      simp [State.sledFits, fits, start, ← BitVec.toNat_inj]
    refine ⟨fun hf => ?fit, fun hf => ?uncertified, fun hf => ?misfit⟩
    case fit =>
      rw [exec_windowLanesLocked, whenLive_up hu, lanesLocked_certified hst (hfits.mpr hf)]
      rfl
    case uncertified =>
      rw [exec_windowLanesLocked, whenLive_up hu, lanesLocked_uncertified hst (hfits.mpr hf)]
      rfl
    case misfit =>
      rw [exec_windowLanesLocked, whenLive_up hu, lanesLocked_misfit hst (mt hfits.mp hf)]
      rfl
  case answered =>
    intro u v sent
    refine ⟨fun hi => ?pastInit, fun hi ht => ?pastAnswer, fun hi ht => ⟨?bad, ?good⟩, ?silent⟩
    case pastInit =>
      rw [exec_sledChallengeResponse, whenLive_up hu, sledAnswer_pastInit hst hn hi]
      rfl
    case pastAnswer =>
      rw [exec_sledChallengeResponse, whenLive_up hu, sledAnswer_late hst hn hi ht]
      rfl
    case bad =>
      rw [exec_sledChallengeResponse, whenLive_up hu, sledAnswer_bad hst hn hi ht]
      rfl
    case good =>
      rw [exec_sledChallengeResponse, whenLive_up hu, sledAnswer_good hst hn hi ht]
      rfl
    case silent => rw [exec_sledVerifyTimeout, whenLive_up hu, sledLate_awaited hst hn]
  case ready => rw [exec_sledReady, whenLive_up hu, sledIsReady_awaited hst hr, if_neg ht.not_gt]
  case unready => rw [exec_sledReady, whenLive_up hu, sledIsReady_awaited hst hr, if_pos ht]
  case late => rw [exec_bringupTimeout, whenLive_up hu, bringupLate_unready hst hr]
  case unnamed => rw [exec_bringupTimeout, whenLive_up hu, bringupLate_uninitialized hst]

end Sys2Proof.Machine
end

section
/-!
PROOFS. The requests, responses and timeouts of the memory windows (R235 to R243, R247, R248).
-/

namespace Sys2Proof.Machine

section
variable {s : State} {w tag : Nat}

/-! ### Tags that are granted (R235, R236, R247) -/

section
variable {n : Nat} (hfe : s.fe = false) (ho : s.winOpen w = true) (hn : (s.win w).freeTag = some n)
include hfe ho hn

theorem grant_wrp {e : TagSt} {rest : List TagSt} (hw : (s.win w).wrps = e :: rest) :
    s.grant w = (s.setWin w { s.win w with wrps := rest }).sendWrp w n e := by
  simp only [State.grant, hn, hw]
  exact if_neg (by simp [hfe, ho])

theorem grant_head {r : MemReq} (hw : (s.win w).wrps = []) (hr : s.nextHead w = some r) : s.grant w = s.takeTag w n r := by
  simp only [State.grant, hn, hw, hr]
  exact if_neg (by simp [hfe, ho])

end

/-! ### Responses (R238 to R243, R248) -/

/-- A response to a request that has timed out only frees its tag (R248). -/
def State.freedLate (s : State) (w : Nat) (t : TagSt) : State :=
  ((s.freeTag w t.tag).inc (Reg.WIN.LATE_DISCARD w) 1).noteHot w

theorem answer_timedOut {t : TagSt} (hp : t.phase = 1) (kind : Nat) : s.answer w kind t = s.freedLate w t := if_pos hp

theorem answerLate_iff {t : TagSt} : s.answerLate w t = true ↔ t.phase ≠ 1 ∧ t.granted + s.winTimeout w < s.now := by
  simp [State.answerLate]

theorem answerLate_heard (t : TagSt) (a : Option Nat) : (s.heard w a).answerLate w t = s.answerLate w t := rfl

section
variable {t : TagSt} (hp : t.phase ≠ 1)
include hp

theorem answer_rdd (hb : t.poison = false) :
    s.answer w 0 t = ((s.freeTag w t.tag).readDone w t t.data t.mesh).noteHot w :=
  (if_neg hp).trans ((if_neg (by simp)).trans ((if_neg (by simp)).trans (if_neg (by simp [hb]))))

theorem answer_rdd_poisoned (hb : t.poison = true) : s.answer w 0 t = s :=
  (if_neg hp).trans ((if_neg (by simp)).trans ((if_neg (by simp)).trans (if_pos hb)))

theorem answer_rdp : s.answer w 1 t =
    (((((s.freeTag w t.tag).sledPoison t).inc (Reg.WIN.POISON_RX w) 1).winRec w 0x40 0 0 t).readDone w t
      (List.replicate 64 0) true).noteHot w :=
  (if_neg hp).trans ((if_neg (by simp)).trans (if_pos rfl))

theorem answer_wack : s.answer w 2 t = ((s.freeTag w t.tag).writeDone w t).noteHot w := (if_neg hp).trans (if_pos rfl)

end

section
variable (ht : s.winTalks w = true)
include ht

theorem response_untagged (hf : (s.win w).tags.find? (fun t => t.tag == tag) = none) (kind : Nat) :
    s.response w tag kind = (s.heard w none).winProtocol w (winSynd 0 tag 0 0 false) := by
  simp only [State.response, hf]
  exact if_neg (by simp [ht])

section
variable {t : TagSt} {kind : Nat} (hf : (s.win w).tags.find? (fun t => t.tag == tag) = some t)
include hf

/-- What a response to a tag in use does: its kind is checked, and then whether it is in time. -/
theorem response_tagged : s.response w tag kind =
    let u := s.heard w (some tag)
    if t.req.write ≠ (kind == 2) then u.winProtocol w (winSynd t.sector t.tag t.channel t.req.src t.req.write)
    else if u.answerLate w t then (u.expire w t).answer w kind { t with phase := 1 }
    else u.answer w kind t := by
  simp only [State.response, hf]
  exact if_neg (by simp [ht])

theorem response_wrongKind (hk : t.req.write ≠ (kind == 2)) : s.response w tag kind =
    (s.heard w (some tag)).winProtocol w (winSynd t.sector t.tag t.channel t.req.src t.req.write) :=
  (response_tagged ht hf).trans (if_pos hk)

section
variable (hk : t.req.write = (kind == 2))
include hk

theorem response_expired (hp : t.phase ≠ 1) (hl : t.granted + s.winTimeout w < s.now) :
    s.response w tag kind = ((s.heard w (some tag)).expire w t).freedLate w t :=
  (response_tagged ht hf).trans ((if_neg (not_not.mpr hk)).trans ((if_pos (answerLate_iff.mpr ⟨hp, hl⟩)).trans
    (answer_timedOut rfl kind)))

theorem response_notLate (hl : t.phase ≠ 1 → s.now ≤ t.granted + s.winTimeout w) :
    s.response w tag kind = (s.heard w (some tag)).answer w kind t := by
  refine (response_tagged ht hf).trans ((if_neg (not_not.mpr hk)).trans (if_neg fun h => ?_))
  obtain ⟨hp, hlt⟩ := answerLate_iff.mp (answerLate_heard t _ ▸ h)
  exact hlt.not_ge (hl hp)

theorem response_timedOut (hp : t.phase = 1) : s.response w tag kind = (s.heard w (some tag)).freedLate w t :=
  (response_notLate ht hf hk (absurd hp)).trans (answer_timedOut hp kind)

end
end

theorem mgmtMsg_talks (op : Nat) (whole : Bool) : s.mgmtMsg w op whole =
    if whole ∧ (op ≤ 3 ∨ op = 7) then s.heard w none else (s.heard w none).winProtocol w 0 :=
  if_neg (by simp [ht])

end

theorem expire_read {t : TagSt} (h : t.req.write = false) : s.expire w t = s.expireRead w t := if_neg (by simp [h])

theorem expire_write {t : TagSt} (h : t.req.write = true) : s.expire w t = s.expireWrite w t := if_pos h

/-! ### Timeouts (R247, R249) -/

/-- A write that times out is counted and recorded, its tag stays in use, and its sector's monitors are poisoned (R247, R301). -/
def State.writeExpired (s : State) (w : Nat) (t : TagSt) : State :=
  (((s.inc (Reg.WIN.TIMEOUT_CNT w) 1).winRec w 0x42 1 t.req.job t).setPhase w t.tag 1).consumeMonitors t.req.pa

section
variable {t : TagSt}

theorem expireWrite_wrp (hp : t.phase = 2) : s.expireWrite w t =
    (s.writeExpired w t).setWin w { (s.writeExpired w t).win w with failing := true } := by
  rw [State.expireWrite, if_pos hp]
  rfl

section
variable (hp : t.phase = 0)
include hp

theorem expireWrite_tagged {n : Nat} (hn : ((s.writeExpired w t).win w).freeTag = some n) :
    s.expireWrite w t = (s.writeExpired w t).sendWrp w n t := by
  rw [State.writeExpired] at hn ⊢
  simp only [State.expireWrite, hn]
  exact if_neg (by simp [hp])

theorem expireWrite_waits (hn : ((s.writeExpired w t).win w).freeTag = none) : s.expireWrite w t =
    (s.writeExpired w t).setWin w
      { (s.writeExpired w t).win w with wrps := ((s.writeExpired w t).win w).wrps ++ [t] } := by
  rw [State.writeExpired] at hn ⊢
  simp only [State.expireWrite, hn]
  exact if_neg (by simp [hp])

end

theorem readTimeout_found (hf : (s.win w).tags.find? (fun t => t.tag == tag && t.phase == 0 && !t.req.write) = some t) :
    s.readTimeout w tag = (s.passTo (t.granted + s.winTimeout w)).expireRead w t := by
  simp only [State.readTimeout, hf]

theorem writeTimeout_found
    (hf : (s.win w).tags.find? (fun t => t.tag == tag && t.req.write && (t.phase == 0 || t.phase == 2)) = some t) :
    s.writeTimeout w tag = (s.passTo (t.granted + s.winTimeout w)).expireWrite w t := by
  simp only [State.writeTimeout, hf]

end
end

/-! ### The commands -/

section
variable {w : WinIx} {s : State} (hu : s.phase = .up)
include hu

theorem exec_tagGrant : exec (.tagGrant w) s = .next ((s.grant w.val).keeping s) :=
  whenLive_up hu fun s => s.grant w.val

theorem exec_mgmt (op : BitVec 3) (whole : Bool) :
    exec (.mgmt w op whole) s = .next ((s.mgmtMsg w.val op.toNat whole).keeping s) :=
  whenLive_up hu fun s => s.mgmtMsg w.val op.toNat whole

variable (tag : BitVec 12)

theorem exec_rdd : exec (.rdd w tag) s = .next ((s.response w.val tag.toNat 0).keeping s) :=
  whenLive_up hu fun s => s.response w.val tag.toNat 0

theorem exec_rdp : exec (.rdp w tag) s = .next ((s.response w.val tag.toNat 1).keeping s) :=
  whenLive_up hu fun s => s.response w.val tag.toNat 1

theorem exec_wack : exec (.wack w tag) s = .next ((s.response w.val tag.toNat 2).keeping s) :=
  whenLive_up hu fun s => s.response w.val tag.toNat 2

theorem exec_readTimeout : exec (.readTimeout w tag) s = .next ((s.readTimeout w.val tag.toNat).keeping s) :=
  whenLive_up hu fun s => s.readTimeout w.val tag.toNat

theorem exec_writeTimeout : exec (.writeTimeout w tag) s = .next ((s.writeTimeout w.val tag.toNat).keeping s) :=
  whenLive_up hu fun s => s.writeTimeout w.val tag.toNat

end

/-- Settles O27: each command is its operation, which looks at the tag first. -/
theorem windowsAnswer : Obligations.WindowsAnswer := by
  intro w tag op s hu
  refine ⟨fun n e rest hfe ho hn hw => ?wrp, fun n r r' p data bad hfe ho hn hw hr hp => ?head, fun t ht hf hp hin => ?inTime,
    fun t ht hf => ?other, fun ht hf => ?untagged, fun whole ht => ?mgmt, fun t hf => ?readTimeout, fun t hf => ?writeTimeout⟩
  case wrp =>
    rw [exec_tagGrant hu, grant_wrp hfe ho hn hw, State.sendWrp]
  case head =>
    rw [exec_tagGrant hu, grant_head hfe ho hn hw hr, State.takeTag, hp]
  case inTime =>
    have hin' := fun _ : t.phase ≠ 1 => hin
    refine ⟨fun hw hb => ?_, fun hw hb => ?_, fun hw => ?_, fun hw => ?_⟩
    · rw [exec_rdd hu, response_notLate (kind := 0) ht hf hw hin', answer_rdd hp hb]
    · rw [exec_rdd hu, response_notLate (kind := 0) ht hf hw hin', answer_rdd_poisoned hp hb]
    · rw [exec_rdp hu, response_notLate (kind := 1) ht hf hw hin', answer_rdp hp]
    · rw [exec_wack hu, response_notLate (kind := 2) ht hf hw hin', answer_wack hp]
  case other =>
    refine ⟨fun hp => ⟨fun hw => ⟨?_, ?_⟩, fun hw => ?_⟩, fun hp hl => ⟨fun hw => ⟨?_, ?_⟩, fun hw => ?_⟩,
      fun hw => ⟨?_, ?_⟩, fun hw => ?_⟩
    · rw [exec_rdd hu, response_timedOut (kind := 0) ht hf hw hp]; rfl
    · rw [exec_rdp hu, response_timedOut (kind := 1) ht hf hw hp]; rfl
    · rw [exec_wack hu, response_timedOut (kind := 2) ht hf hw hp]; rfl
    · rw [exec_rdd hu, response_expired (kind := 0) ht hf hw hp hl, expire_read hw]; rfl
    · rw [exec_rdp hu, response_expired (kind := 1) ht hf hw hp hl, expire_read hw]; rfl
    · rw [exec_wack hu, response_expired (kind := 2) ht hf hw hp hl, expire_write hw]; rfl
    · rw [exec_rdd hu, response_wrongKind (kind := 0) ht hf (by simp [hw])]
    · rw [exec_rdp hu, response_wrongKind (kind := 1) ht hf (by simp [hw])]
    · rw [exec_wack hu, response_wrongKind (kind := 2) ht hf (by simp [hw])]
  case untagged =>
    rw [exec_rdd hu, exec_rdp hu, exec_wack hu, response_untagged ht hf, response_untagged ht hf, response_untagged ht hf]
    exact ⟨rfl, rfl, rfl⟩
  case mgmt =>
    have hop : op = 7 ↔ op.toNat = 7 := BitVec.toNat_inj.symm
    rw [exec_mgmt hu, mgmtMsg_talks ht]
    simp only [hop]
  case readTimeout =>
    rw [exec_readTimeout hu, readTimeout_found hf]
    rfl
  case writeTimeout =>
    rw [exec_writeTimeout hu, writeTimeout_found hf]
    refine ⟨fun n hp hn => ?_, fun hp hn => ?_, fun hp => ?_⟩
    · rw [expireWrite_tagged hp hn]; rfl
    · rw [expireWrite_waits hp hn]; rfl
    · rw [expireWrite_wrp hp]; rfl

end Sys2Proof.Machine
end

section
/-!
PROOFS. The links of windows and doors: errors, replays, retraining and failure, and hot channels (R244 to R249, R256, R310,
R329).
-/

namespace Sys2Proof.Machine

section
variable {s : State}

/-! ### Flits that fail, and replays (R232, R244) -/

section
variable {w : WinIx} (ht : s.winTalks w.val = true)
include ht

theorem crcFail_window {f : Bytes} (hf : flitIntact f = false) :
    s.crcFail (.win w) f = (s.mapLink w.val LinkSt.crcFailed).inc (Reg.WIN.CRC_ERR w.val) 1 := by
  simp only [State.crcFail, hf]
  exact if_pos ht

theorem nak_window (n : Nat) : s.nak (.win w) n = (s.mapLink w.val fun x => x.received.resend n).inc
    (Reg.WIN.REPLAY w.val) (min n (s.link w.val).replay.length) := if_pos ht

end

section
variable {d : DoorIx} {p : Fin 3} (ht : s.linkUsable d.val p.val = true)
include ht

theorem crcFail_door {f : Bytes} (hf : flitIntact f = false) : s.crcFail (.door d p) f =
    (s.mapLink (doorLinkNo d.val p.val) LinkSt.crcFailed).inc (Reg.DOOR.CRC_ERR d.val) 1 := by
  simp only [State.crcFail, hf]
  exact if_pos ht

theorem nak_door (n : Nat) : s.nak (.door d p) n = (s.mapLink (doorLinkNo d.val p.val) fun x => x.received.resend n).inc
    (Reg.DOOR.REPLAY d.val) (min n (s.link (doorLinkNo d.val p.val)).replay.length) := if_pos ht

/-! ### Retraining (R245, R246, R310, R329) -/

theorem retrainLink_door : s.retrainLink (.door d p) =
    ((s.put (Reg.DOOR.LINK_STATE d.val (doorLink d.val p.val)) 4).inc (Reg.DOOR.RETRAIN_CNT d.val) 1).ce
      (0x200 + d.val) 9 0x52 0 := if_pos ht

end

theorem retrainLink_window {w : WinIx} (ho : s.winOpen w.val = true) : s.retrainLink (.win w) =
    (((s.retrainCause w.val).put (Reg.WIN.STATE w.val) 5).inc (Reg.WIN.RETRAIN_CNT w.val) 1).ce
      (0x100 + w.val) 8 0x44 0 := if_pos ho

section
variable {w : Nat} (hst : s.get (Reg.WIN.STATE w) = 5) (usable : Nat)
include hst

theorem winRetrained_failed : s.winRetrained w false usable = s.setWin w { s.win w with
    failures := (s.win w).failures + 1, failing := (s.win w).failing || decide (2 ≤ (s.win w).failures) } :=
  (if_neg (not_not.mpr hst)).trans (if_pos rfl)

/-- A window's link that has retrained asks for spares in place of the pairs it lost, and carries traffic again. -/
theorem winRetrained_done : s.winRetrained w true usable =
    let x := s.win w
    let bad := (List.range 4).filter fun k => !bitOf usable k && !x.lost.contains k
    let a := s.askSpares (w / 2) (fun _ => 1 + w % 2) (fun k => 4 * (w % 2) + k) bad
    let u := a.1.setWin w { x with
      failures := 0, lost := x.lost ++ a.2, failing := x.failing || decide (3 ≤ (x.lost ++ a.2).length),
      tags := x.tags.filter fun t => t.phase ≠ 1 }
    let v := (u.put (Reg.WIN.STATE w) (if u.inTest w = true then 6 else 4)).mapLink w LinkSt.resume
    (if a.2 = [] then v else (v.puts [(Reg.WIN.PAIRS w, 4 - (x.lost ++ a.2).length), (Reg.WIN.DEGRADED w, 1)]).ce
      (0x100 + w) 8 0x45 0).noteHot w := by
  refine (if_neg (not_not.mpr hst)).trans ((if_neg (by simp)).trans ?_)
  simp only [← List.isEmpty_iff]

end

section
variable {d k : Nat} (hst : s.get (Reg.DOOR.LINK_STATE d (doorLink d k)) = 4) (usable : Nat)
include hst

theorem doorRetrained_failed : s.doorRetrained d k false usable =
    let key := d * 4 + doorLink d k
    { s with doors := { s.doors with failures := assocPut key (lookupD 0 key s.doors.failures + 1) s.doors.failures } } :=
  (if_neg (not_not.mpr hst)).trans (if_pos rfl)

/-- A door's link that has retrained asks for the spare in place of the pairs it lost, and carries traffic again. -/
theorem doorRetrained_done : s.doorRetrained d k true usable =
    let j := doorLink d k
    let bad := (linkPairs d k).filter fun p => !bitOf usable p && !s.doors.lost.contains (d * 4 + p)
    let a := s.askSpares d (fun p => 3 + p) (fun p => 8 + p) bad
    let u : State := { a.1 with doors := { a.1.doors with
      failures := assocPut (d * 4 + j) 0 a.1.doors.failures, lost := a.1.doors.lost ++ a.2.map (d * 4 + ·) } }
    let left := ((linkPairs d k).filter fun p => !u.doors.lost.contains (d * 4 + p)).length
    let v := (u.put (Reg.DOOR.LINK_STATE d j) 3).mapLink (doorLinkNo d k) LinkSt.resume
    if a.2 = [] then v
    else (v.puts [(Reg.DOOR.PAIRS d j, left), (Reg.DOOR.DEGRADED d j, 1)]).ce (0x200 + d) 9 0x53 0 := by
  refine (if_neg (not_not.mpr hst)).trans ((if_neg (by simp)).trans ?_)
  simp only [← List.isEmpty_iff]

end

/-! ### Hot channels (R256) -/

theorem hotChannel_dwelt {w c : Nat} {e : Nat × Nat}
    (hh : ((s.noteHot w).win w).hotSince.find? (fun e => e.1 == c) = some e) (hen : s.get (Reg.WIN.HOT_EN w) ≠ 0)
    (ho : s.winOpen w = true) (hr : (((s.noteHot w).win w).hotRaised.any fun r => r.1 == c) = false) :
    s.hotChannel w c = ((s.noteHot w).passTo (e.2 + s.hotDwell w)).hotEvent w c := by
  simp only [State.hotChannel, hh]
  exact if_neg (by simp [hen, ho, hr])

end

/-! ### The commands -/

section
variable {s : State} (hu : s.phase = .up)
include hu

theorem exec_flitCrcFail (l : Link) (f : Bytes) : exec (.flitCrcFail ⟨l, f⟩) s = .next ((s.crcFail l f).keeping s) :=
  whenLive_up hu fun s => s.crcFail l f

theorem exec_nakReceived (l : Link) (n : BitVec 9) : exec (.nakReceived l n) s = .next ((s.nak l n.toNat).keeping s) :=
  whenLive_up hu fun s => s.nak l n.toNat

theorem exec_retrain (l : Link) : exec (.retrain l) s = .next ((s.retrainLink l).keeping s) :=
  whenLive_up hu fun s => s.retrainLink l

theorem exec_retrainDone_window (w : WinIx) (ok : Bool) (usable : BitVec 4) :
    exec (.retrainDone (.win w) ok usable) s = .next ((s.winRetrained w.val ok usable.toNat).keeping s) :=
  whenLive_up hu fun s => s.winRetrained w.val ok usable.toNat

theorem exec_retrainDone_door (d : DoorIx) (p : Fin 3) (ok : Bool) (usable : BitVec 4) :
    exec (.retrainDone (.door d p) ok usable) s = .next ((s.doorRetrained d.val p.val ok usable.toNat).keeping s) :=
  whenLive_up hu fun s => s.doorRetrained d.val p.val ok usable.toNat

theorem exec_linkDown (w : WinIx) : exec (.linkDown w) s =
    .next ((if s.winOpen w.val ∧ (s.win w.val).failing then s.winDown w.val else s).keeping s) :=
  whenLive_up hu fun s => if s.winOpen w.val ∧ (s.win w.val).failing then s.winDown w.val else s

theorem exec_hotChannel (w : WinIx) (ch : Fin 40) :
    exec (.hotChannel w ch) s = .next ((s.hotChannel w.val ch.val).keeping s) :=
  whenLive_up hu fun s => s.hotChannel w.val ch.val

end

/-- Settles O28: each command is its operation, on the link that it names. -/
theorem linksAreKept : Obligations.LinksAreKept := by
  intro w d p n ch usable f s hu
  refine ⟨fun ht => ⟨fun hf => ?crcWindow, ?nakWindow⟩, fun ho => ⟨?retrainWindow, fun hf => ?down⟩,
    fun ht => ⟨fun hf => ?crcDoor, ?nakDoor, ?retrainDoor⟩, fun hst => ⟨?failedWindow, ?doneWindow⟩,
    fun hst => ⟨?failedDoor, ?doneDoor⟩, fun e hh hen ho hr => ?hot⟩
  case crcWindow => rw [exec_flitCrcFail hu, crcFail_window ht hf]
  case nakWindow => rw [exec_nakReceived hu, nak_window ht]
  case retrainWindow =>
    rw [exec_retrain hu, retrainLink_window ho]
    rfl
  case down => rw [exec_linkDown hu, if_pos ⟨ho, hf⟩]
  case crcDoor => rw [exec_flitCrcFail hu, crcFail_door ht hf]
  case nakDoor => rw [exec_nakReceived hu, nak_door ht]
  case retrainDoor => rw [exec_retrain hu, retrainLink_door ht]
  case failedWindow => rw [exec_retrainDone_window hu, winRetrained_failed hst]
  case doneWindow => rw [exec_retrainDone_window hu, winRetrained_done hst]
  case failedDoor => rw [exec_retrainDone_door hu, doorRetrained_failed hst]
  case doneDoor => rw [exec_retrainDone_door hu, doorRetrained_done hst]
  case hot => rw [exec_hotChannel hu, hotChannel_dwelt hh hen ho hr]

end Sys2Proof.Machine
end

section
/-!
PROOFS. What a read of host memory does when it comes back (R264, R276, R279, R449, R461, R474, R475, R497).
-/

namespace Sys2Proof.Machine

section
variable {s : State} {r : HostRead} {id : Nat} {data : Bytes} {res : CplResult}

/-! ### What AER notes (R449) -/

/-- The state but for what AER has noted. -/
def State.withAer (s : State) (n : Nat) : State := { s with host := { s.host with aer := n } }

theorem noteAer_eq_withAer (b : Nat) : s.noteAer b = s.withAer (s.host.aer ||| 2 ^ b) := rfl

/-- What a completion changes before its read is looked for: at most what AER has noted. -/
theorem heard_eq_withAer : ∃ n, (if res = .poisoned then s.noteAer 12 else s) = s.withAer n := by
  split
  · exact ⟨_, noteAer_eq_withAer 12⟩
  · exact ⟨s.host.aer, rfl⟩

/-! ### Which of the reads ends (R449) -/

/-- The state with other reads of host memory out. -/
def State.withReads (s : State) (l : List HostRead) : State := { s with host := { s.host with reads := l } }

theorem splitFirst_eq_none {α : Type} {p : α → Bool} {l : List α} (h : ∀ x ∈ l, p x = false) :
    splitFirst p l = none := by
  induction l with
  | nil => rfl
  | cons x l ih =>
    obtain ⟨hx, hl⟩ := List.forall_mem_cons.mp h
    simp [splitFirst, hx, ih hl]

theorem readEnds_unasked (h : ∀ x ∈ s.host.reads, x.id ≠ id) : s.readEnds id data res = s := by
  simp only [State.readEnds, splitFirst_eq_none fun x hx => beq_false_of_ne (h x hx)]

section
variable {a b : List HostRead} (hs : splitFirst (fun (x : HostRead) => x.id == id) s.host.reads = some (a, r, b))
include hs

theorem readEnds_untagged (ha : 1024 ≤ a.length) : s.readEnds id data res = s := by
  simp only [State.readEnds, hs, if_pos ha]

theorem readEnds_onLink (ha : a.length < 1024) :
    s.readEnds id data res = (s.withReads (a ++ b)).readBack r data res := by
  simp only [State.readEnds, hs, if_neg ha.not_ge]
  rfl

end

/-! ### An entry (R276, R461) -/

section
variable {ring : Nat} {tried : Bool} {x : Ring} (hu : r.use = .entry ring tried) (hx : s.ring? ring = some x)
  (hr : x.reading = true)
include hu hx hr

theorem readBack_entry_good : s.readBack r data .good =
    s.mapRing ring fun y => { y with reading := false, entry := some (slice 0 64 data) } := by
  simp [State.readBack, hu, State.gotEntry, hx, hr]

theorem readBack_entry_failed (hg : res ≠ .good) : s.readBack r data res =
    if tried then s.entryFailed ring else s.hostRead r.addr r.len (.entry ring true) := by
  simp [State.readBack, hu, State.gotEntry, hx, hr, hg]

end

/-! ### Data of a mover (R264, R276, R279) -/

section
variable {m ch n pa : Nat} {y : Run} (hu : r.use = .burst m ch n pa) (hy : s.run? m ch = some y)
include hu hy

theorem readBack_burst_data (h : ¬(y.burstNo = n ∧ y.flushed = true)) : s.readBack r data res =
    (s.deliverPiece m ch n pa (slice 0 64 data) (res != .good)).settleMover m := by
  simp only [State.readBack, hu, State.gotBurst, hy, if_neg h]

theorem readBack_burst_flushed (hn : y.burstNo = n) (hf : y.flushed = true) :
    s.readBack r data res = (s.ackRun m ch).settleMover m := by
  simp only [State.readBack, hu, State.gotBurst, hy, if_pos (And.intro hn hf)]

end

theorem readBack_dropped {m : Nat} (hu : r.use = .dropped m) :
    s.readBack r data res = State.feedCopies (ceilDiv r.len 64) (s.settleMover m) := by
  simp only [State.readBack, hu]

/-! ### Data of a HOST_COPY (R279, R474, R475, R497) -/

theorem readBack_copy {n va : Nat} {tried : Bool} (hu : r.use = .copy n va tried) :
    s.readBack r data res = State.feedCopies (ceilDiv r.len 64) (s.gotCopy r n va tried data res) := by
  simp only [State.readBack, hu]

/-- What a HOST_COPY makes of the write of a read's data to job's address va: it has one read less to wait for, and the error
of a write that was stopped is recorded first (R475). -/
def State.copyWrote (s : State) (r : HostRead) (n va job : Nat) : Acc → State
  | .done => s.copyPart n stSUCCESS (unitsOf va r.len)
  | .bad _ re _ => (s.walkKill job 0x401 re).copyPart n stADDRESS []
  | .poison x => ((s.countKill job).unitConsume job 0x401 0x14 x).copyPart n stPOISON []

section
variable {n va : Nat} {tried : Bool} {c : HostCopy} (hc : s.host.copies.find? (fun x => x.n == n) = some c)
include hc

theorem gotCopy_jobGone (hj : s.get (Reg.XLAT.JOB_VALID c.r.job.toNat) = 0) :
    s.gotCopy r n va tried data res = s.copyStops c := by
  simp only [State.gotCopy, hc, if_pos hj]

section
variable (hj : s.get (Reg.XLAT.JOB_VALID c.r.job.toNat) ≠ 0)
include hj

theorem gotCopy_error : s.gotCopy r n va tried data .error =
    if tried then s.copyPart n 0x19 [] else s.hostRead r.addr r.len (.copy n va true) := by
  simp only [State.gotCopy, hc, if_neg hj, if_pos]

theorem gotCopy_data (he : res ≠ .error) : s.gotCopy r n va tried data res =
    let job := c.r.job.toNat
    let v := if res = .poisoned then s.inc (Reg.MOVER.MOVER_POISON 8) (ceilDiv r.len 64) else s
    let w := v.writeVa 0x401 job va (slice 0 r.len data) (res = .poisoned)
    w.1.copyWrote r n va job w.2 := by
  simp only [State.gotCopy, hc, if_neg hj, if_neg he]
  split <;> simp only [State.copyWrote, *]

end
end
end

/-! ### The commands -/

section
variable {s : State} (hu : s.phase = .up)
include hu

theorem exec_pcieReadCompletion (id : Nat) (data : Bytes) (res : CplResult) : exec (.pcieReadCompletion id data res) s =
    .next (((if res = .poisoned then s.noteAer 12 else s).readEnds id data res).keeping s) :=
  whenLive_up hu fun s => (if res = .poisoned then s.noteAer 12 else s).readEnds id data res

theorem exec_completionTimeout (id : Nat) :
    exec (.completionTimeout id) s = .next (((s.noteAer 14).readEnds id [] .error).keeping s) :=
  whenLive_up hu fun s => (s.noteAer 14).readEnds id [] .error

end

theorem next_keeping {s t u : State} (h : t = u) : (.next (t.keeping s) : Out) = .next (u.keeping s) :=
  congrArg (fun x : State => (.next (x.keeping s) : Out)) h

/-- Settles O39: each command ends the read that it names in the state with AER's note, which changes nothing that the read's
unit looks at, and the end of a read is what its use makes of it. -/
theorem hostReadsComeBack : Obligations.HostReadsComeBack := by
  intro id data res s hu heard late
  have hcpl : exec (.pcieReadCompletion id data res) s = .next ((heard.readEnds id data res).keeping s) :=
    exec_pcieReadCompletion hu id data res
  have hout : exec (.completionTimeout id) s = .next ((late.readEnds id [] .error).keeping s) :=
    exec_completionTimeout hu id
  obtain ⟨i, hi⟩ : ∃ i, heard = s.withAer i := heard_eq_withAer
  obtain ⟨j, hj⟩ : ∃ j, late = s.withAer j := ⟨_, noteAer_eq_withAer 14⟩
  clear_value heard late
  subst hi hj
  rw [hcpl, hout]
  refine ⟨fun h => ⟨next_keeping (readEnds_unasked h), next_keeping (readEnds_unasked h)⟩, ?_⟩
  intro a b r hs off u z
  refine ⟨fun ha => ⟨next_keeping (readEnds_untagged hs ha), next_keeping (readEnds_untagged hs ha)⟩, fun ha => ?_⟩
  rw [readEnds_onLink (s := s.withAer i) hs ha, readEnds_onLink (s := s.withAer j) hs ha]
  refine ⟨?entry, ?burst, ?copy, ?dropped⟩
  case entry =>
    intro ring tried x hr hx hg failed
    refine ⟨?_, fun h => next_keeping (readBack_entry_failed hr hx hg h),
      next_keeping (readBack_entry_failed hr hx hg (by decide))⟩
    rintro rfl
    exact next_keeping (readBack_entry_good hr hx hg)
  case burst =>
    intro m ch n pa y hr hy
    exact ⟨fun h => ⟨next_keeping (readBack_burst_data hr hy h), next_keeping (readBack_burst_data hr hy h)⟩,
      fun hn hf => ⟨next_keeping (readBack_burst_flushed hr hy hn hf),
        next_keeping (readBack_burst_flushed hr hy hn hf)⟩⟩
  case copy =>
    intro n va tried c hr hc job then_ again
    rw [readBack_copy hr, readBack_copy hr]
    refine ⟨fun hv => ⟨congrArg then_ (gotCopy_jobGone hc hv), congrArg then_ (gotCopy_jobGone hc hv)⟩,
      fun hv => ⟨?error, congrArg then_ (gotCopy_error hc hv), ?data⟩⟩
    case error =>
      rintro rfl
      exact congrArg then_ (gotCopy_error hc hv)
    case data =>
      intro he v w
      refine congrArg then_ ((gotCopy_data (s := u) hc hv he).trans ?_)
      change w.1.copyWrote r n va job w.2 = _
      cases w.2 <;> rfl
  case dropped =>
    intro m hr
    exact ⟨next_keeping (readBack_dropped hr), next_keeping (readBack_dropped hr)⟩

end Sys2Proof.Machine
end

section
/-!
PROOFS. What the homes of latches do with the messages that reach them, and what a notification does at its core (chapter 10).
-/

namespace Sys2Proof.Machine

/-! ### Answers that arrive with other messages (R283; log entry 120) -/

section
variable {s : State} {a : AckMsg}

/-- Answers that all stand behind other messages stay on their way. -/
theorem landAcks_stay (h : ∀ a ∈ s.net.acks, s.ackBehind a = true) : s.landAcks = s := by
  have hgo : s.net.acks.filter (fun a => !s.ackBehind a) = [] := List.filter_eq_nil_iff.mpr fun a ha => by simp [h a ha]
  have hstay : s.net.acks.filter s.ackBehind = s.net.acks := List.filter_eq_self.mpr h
  simp only [State.landAcks, hgo, hstay, List.foldl_nil]

theorem landAcks_none (h : s.net.acks = []) : s.landAcks = s := landAcks_stay (by simp [h])

theorem landAcks_single_stays (h : s.net.acks = [a]) (hb : s.ackBehind a = true) : s.landAcks = s :=
  landAcks_stay (by simpa [h] using hb)

theorem landAcks_single_lands (h : s.net.acks = [a]) (hb : s.ackBehind a = false) :
    s.landAcks = ({ s with net := { s.net with acks := [] } } : State).takeAck a := by
  simp [State.landAcks, h, hb]

end

/-! ### A jmp that has its value (R209) -/

section
variable {s : State} {n tag : Nat} {set : Bool}

theorem resolveJmp_gone (h : (s.core n).window.find? (fun i => i.tag = tag && i.op = 2 && i.waits != 0) = none) :
    s.resolveJmp n tag set = s := by
  simp only [State.resolveJmp, h]

theorem resolveJmp_waits {i : Insn}
    (h : (s.core n).window.find? (fun i => i.tag = tag && i.op = 2 && i.waits != 0) = some i) :
    s.resolveJmp n tag set =
      let x := (s.mapInsn n tag fun x => { x with waits := 0 }).markDone n tag Cnt.none
      if (i.mod 35 34 = 1) = set ∧ i.waits = 1 then x.redirect n i.target else x := by
  simp only [State.resolveJmp, h]

/-- A jmp that is resolved keeps the phase and the queue. -/
theorem keeping_resolveJmp (t s : State) (n tag : Nat) (set : Bool) :
    (t.resolveJmp n tag set).keeping s = (t.keeping s).resolveJmp n tag set := by
  cases h : (t.core n).window.find? (fun i => i.tag = tag && i.op = 2 && i.waits != 0) with
  | none => rw [resolveJmp_gone h, resolveJmp_gone (s := t.keeping s) h]
  | some i =>
    rw [resolveJmp_waits h, resolveJmp_waits (s := t.keeping s) h]
    exact apply_ite (State.keeping · s) _ _ _

end

/-! ### The message that arrives next (R283, R303) -/

/-- A message does not arrive yet: a barrier message stands before it, or a snapshot holds a write that the host posted before. -/
def State.heldBack (s : State) (m : LatchMsg) : Bool := s.behindBar m || (m.src == 0x401 && !m.close && s.hostHeld)

/-- The condition under which a home takes the message. -/
theorem heldBack_eq_false {s : State} {m : LatchMsg} :
    s.heldBack m = false ↔ !s.behindBar m ∧ !(m.src = 0x401 ∧ !m.close ∧ s.hostHeld) := by
  simp [State.heldBack, imp_iff_not_or, or_assoc]

/-- The state without the message that arrives. -/
def State.withMsgs (s : State) (l : List LatchMsg) : State := { s with net := { s.net with latchMsgs := l } }

section
variable {s : State} {k : Nat} {m : LatchMsg} {rest : List LatchMsg} {kind : HomeOp → Bool}
  (hp : pick LatchMsg.sameWay k s.net.latchMsgs = some (m, rest))
include hp

theorem takeMsg_arrives (hw : s.heldBack m = false) (hk : kind m.op = true) :
    s.takeMsg k kind = some (s.withMsgs rest, m) := by
  simp only [State.takeMsg, hp]
  exact if_pos ⟨hk, heldBack_eq_false.mp hw⟩

theorem takeMsg_waits (hw : s.heldBack m = true) : s.takeMsg k kind = none := by
  simp only [State.takeMsg, hp]
  exact if_neg fun h => by simp [heldBack_eq_false.mpr h.2] at hw

end

/-! ### Sets, clears and watches at the home (R291, R292, R294) -/

section
variable {s : State} {m : LatchMsg}

theorem performLatch_set (ho : m.op = .set) (hl : m.latch < 0x3E00 ∨ (m.close = false ∧ m.src = 0x401)) :
    s.performLatch m =
      ((((s.collide m).put (Reg.LATCH.latch m.latch) 1).inc Reg.LATCH.LATCH_SETS 1).notify m.latch).ackLop m := by
  have hn : ¬(0x3E00 ≤ m.latch ∧ (m.close ∨ m.src ≠ 0x401)) := by
    rintro ⟨hge, hc⟩
    rcases hl with hl | ⟨hc', hs⟩
    · omega
    · simp [hc', hs] at hc
  simp only [State.performLatch, if_pos ho, if_neg hn]

theorem performLatch_edge (ho : m.op = .set) (hl : 0x3E00 ≤ m.latch) (hc : m.close = true ∨ m.src ≠ 0x401) :
    s.performLatch m = (((((s.collide m).put (Reg.LATCH.latch m.latch) 1).inc Reg.LATCH.LATCH_SETS 1).notify
      m.latch).hostEdge m.latch).ackLop m := by
  simp only [State.performLatch, if_pos ho, if_pos (And.intro hl hc)]

theorem performLatch_clear (ho : m.op = .clear) : s.performLatch m =
    (((s.collide m).put (Reg.LATCH.latch m.latch) 0).inc Reg.LATCH.LATCH_CLEARS 1).ackLop m := by
  simp [State.performLatch, ho]

theorem performWatch_set (h : s.get (Reg.LATCH.latch m.latch) = 1) : s.performWatch m = s.sendNote m.src m.latch :=
  if_pos h

theorem performWatch_recorded (h : s.get (Reg.LATCH.latch m.latch) ≠ 1)
    (hw : (s.net.watchers.any fun w => w.core == m.src && w.latch == m.latch) = true) : s.performWatch m = s :=
  (if_neg h).trans (if_pos hw)

theorem performWatch_records (h : s.get (Reg.LATCH.latch m.latch) ≠ 1)
    (hw : (s.net.watchers.any fun w => w.core == m.src && w.latch == m.latch) = false) : s.performWatch m =
      { s with net := { s.net with watchers := s.net.watchers ++ [⟨m.src, m.latch, m.sent⟩] } } :=
  (if_neg h).trans (if_neg (by simp [hw]))

end

/-! ### The commands -/

section
variable {s t : State} {k : Nat} {m : LatchMsg} (hu : s.phase = .up)
include hu

theorem exec_latchMessage (ht : s.takeMsg k (fun o => o == .set || o == .clear) = some (t, m)) :
    exec (.latchMessage k) s = .next ((t.performLatch m).keeping s) := by
  change execLatchMessage k s = _
  simp only [execLatchMessage, whenLive_up hu, ht]

theorem exec_watch (ht : s.takeMsg k (fun o => o == .watch) = some (t, m)) :
    exec (.watch k) s = .next ((t.performWatch m).keeping s) := by
  change execWatch k s = _
  simp only [execWatch, whenLive_up hu, ht]

theorem exec_latchRead {n tag : Nat} (ht : s.takeMsg k (fun o => o == .read) = some (t, m)) (ha : m.ack = some (n, tag)) :
    exec (.latchRead k) s = .next ((t.sendAck (homeRouter m.latch) n tag
      (.jmp (t.get (Reg.LATCH.latch m.latch) == 1))).keeping s) := by
  change execLatchRead k s = _
  simp only [execLatchRead, whenLive_up hu, ht, ha]

theorem exec_latchRead_forgotten (ht : s.takeMsg k (fun o => o == .read) = some (t, m)) (ha : m.ack = none) :
    exec (.latchRead k) s = .next (t.keeping s) := by
  change execLatchRead k s = _
  simp only [execLatchRead, whenLive_up hu, ht, ha]

/-- Nothing happens at a home to which no message comes. -/
theorem exec_latch_untaken (ht : ∀ kind, s.takeMsg k kind = none) :
    exec (.latchMessage k) s = .next s ∧ exec (.watch k) s = .next s ∧ exec (.latchRead k) s = .next s := by
  change execLatchMessage k s = _ ∧ execWatch k s = _ ∧ execLatchRead k s = _
  simp only [execLatchMessage, execWatch, execLatchRead, whenLive_up hu, ht, State.keeping_self, and_self]

end

/-- Settles O17: the message that arrives leaves the list, and its home does with it what its kind asks for; a read's answer
lands at once unless another message stands before it. -/
theorem latchHomesAnswer : Obligations.LatchHomesAnswer := by
  intro k s m rest u c waits hu hp
  have arrives {kind : HomeOp → Bool} (hw : waits = false) (hk : kind m.op = true) : s.takeMsg k kind = some (u, m) :=
    takeMsg_arrives hp hw hk
  refine ⟨fun hw ho hl => ?set, fun hw ho hl hc => ?edge, fun hw ho => ?clear, fun hw ho h1 => ?answered,
    fun hw ho h1 hn => ?records, fun hw ho h1 hr => ?recorded, fun n tag hw ho ha => ?read, fun hw ho ha => ?forgotten,
    fun hw => exec_latch_untaken hu fun kind => takeMsg_waits hp hw⟩
  case set => rw [exec_latchMessage hu (arrives hw (by simp [ho])), performLatch_set ho hl]
  case edge => rw [exec_latchMessage hu (arrives hw (by simp [ho])), performLatch_edge ho hl hc]
  case clear => rw [exec_latchMessage hu (arrives hw (by simp [ho])), performLatch_clear ho]
  case answered =>
    rw [exec_watch hu (arrives hw (by simp [ho])), performWatch_set (s := u) h1]
    rfl
  case records =>
    rw [exec_watch hu (arrives hw (by simp [ho])), performWatch_records (s := u) h1 hn]
    rfl
  case recorded =>
    rw [exec_watch hu (arrives hw (by simp [ho])), performWatch_recorded (s := u) h1 hr]
    rfl
  case read =>
    intro a v
    have hread : exec (.latchRead k) s = .next (v.landAcks.keeping s) :=
      exec_latchRead hu (arrives hw (by simp [ho])) ha
    have hone (h : s.net.acks = []) : v.net.acks = [a] := congrArg (· ++ [a]) h
    refine ⟨hread, fun h hb => ?_, fun i h hb hi => ?_, fun h hb hi => ?_⟩
    · rw [hread, landAcks_single_stays (hone h) hb]
      rfl
    · rw [hread, landAcks_single_lands (hone h) hb]
      refine congrArg _ ((keeping_resolveJmp _ _ _ _ _).trans (resolveJmp_waits hi))
    · rw [hread, landAcks_single_lands (hone h) hb]
      exact congrArg _ ((keeping_resolveJmp _ _ _ _ _).trans (resolveJmp_gone hi))
  case forgotten =>
    rw [exec_latchRead_forgotten hu (arrives hw (by simp [ho])) ha]
    rfl

/-! ### A notification at its core (R205, R292) -/

/-- The state without the notification that arrives. -/
def State.withNotes (s : State) (l : List WatchMsg) : State := { s with net := { s.net with notes := l } }

theorem exec_latchNotification {s : State} {k : Nat} {w : WatchMsg} {rest : List WatchMsg} (hu : s.phase = .up)
    (hp : pick (fun a b => a.way == b.way) k s.net.notes = some (w, rest)) (hb : s.behindRelease w = false) :
    exec (.latchNotification k) s = .next (((s.withNotes rest).takeNote w).landAcks.keeping s) := by
  change execLatchNotification k s = _
  simp only [execLatchNotification, whenLive_up hu, hp, hb]
  rfl

/-- What a notification changes of its core. -/
theorem takeNote_core (s : State) (w : WatchMsg) : (s.takeNote w).core w.core =
    { s.core w.core with
      watching := (s.core w.core).watching.filter fun l => l ≠ w.latch
      window := mapIf (fun i => i.waitV && i.wait == w.latch) (fun i => { i with waitOk := true }) (s.core w.core).window } :=
  State.core_setCore_self _ _ _

/-- Settles O18: a notification changes its core alone, and with no answer on its way nothing else arrives. -/
theorem notificationsSatisfyWaits : Obligations.NotificationsSatisfyWaits := by
  intro k s w rest hu hp hb
  have hexec := exec_latchNotification hu hp hb
  have hcore := takeNote_core (s.withNotes rest) w
  exact ⟨(s.withNotes rest).takeNote w, hexec, rfl, rfl, rfl, congrArg CoreSt.watching hcore, congrArg CoreSt.window hcore,
    fun ha => hexec.trans (next_keeping (landAcks_none (s := (s.withNotes rest).takeNote w) ha))⟩

end Sys2Proof.Machine
end

section
/-!
PROOFS. What the homes of barrier counters do with arrivals, releases and withdrawals, and what closes a phase (chapter 10).
-/

namespace Sys2Proof.Machine

/-! ### Arrivals (R295) -/

/-- The state without the barrier message that arrives. -/
def State.withArrivals (s : State) (l : List BarMsg) : State := { s with net := { s.net with arrivals := l } }

/-- An arrival is counted in ARRIVED or EARLY, and kept with the arrivals counted. -/
def State.countIn (s : State) (f : Fld) (a : BarMsg) : State :=
  { s.put f (s.get f + 2 ^ a.part) with net := { s.net with counted := s.net.counted ++ [a] } }

section
variable {s : State} {a : BarMsg}

theorem performArrival_refused (h : s.get (Reg.BARRIER.CFG_VALID a.counter) = 0 ∨
    bitOf (s.get (Reg.BARRIER.CFG_PART a.counter)) a.part = false) : s.performArrival a = s.refuseArrival a :=
  if_pos (h.imp_right fun h => by simp [h])

section
variable (hv : s.get (Reg.BARRIER.CFG_VALID a.counter) ≠ 0)
  (hp : bitOf (s.get (Reg.BARRIER.CFG_PART a.counter)) a.part = true)
include hv hp

theorem performArrival_first (ha : bitOf (s.get (Reg.BARRIER.ARRIVED a.counter)) a.part = false) :
    s.performArrival a =
      (s.countIn (Reg.BARRIER.ARRIVED a.counter) a).closePhases a.counter (if a.part < 8 then a.part else 0x401) 2 := by
  simp only [State.performArrival, hv, hp, ha]
  rfl

theorem performArrival_second (ha : bitOf (s.get (Reg.BARRIER.ARRIVED a.counter)) a.part = true)
    (he : bitOf (s.get (Reg.BARRIER.EARLY a.counter)) a.part = false) :
    s.performArrival a = (s.countIn (Reg.BARRIER.EARLY a.counter) a).inc Reg.BARRIER.EARLY_CNT 1 := by
  simp only [State.performArrival, hv, hp, ha, he]
  rfl

theorem performArrival_third (ha : bitOf (s.get (Reg.BARRIER.ARRIVED a.counter)) a.part = true)
    (he : bitOf (s.get (Reg.BARRIER.EARLY a.counter)) a.part = true) : s.performArrival a = s.put Reg.BARRIER.HOST_OVF 1 := by
  simp only [State.performArrival, hv, hp, ha, he]
  rfl

end
end

/-! ### Releases (R296) -/

theorem takeRelease_barr {s : State} {a : BarMsg} (h : a.dead = false) : s.takeRelease a = s.markDone a.part a.tag Cnt.none :=
  if_neg (ne_true_of_eq_false h)

theorem takeRelease_killed {s : State} {a : BarMsg} (h : a.dead = true) : s.takeRelease a = s := if_pos h

/-! ### Withdrawals (R298) -/

/-- A counted arrival is the one that a withdrawal takes back. -/
def BarMsg.takesBack (a x : BarMsg) : Bool := x.counter == a.counter && x.part == a.part && x.tag == a.tag && x.dead == a.dead

/-- The counted arrival of a withdrawal is gone, and its participant's bit is cleared from a field. -/
def State.uncount (s : State) (f : Fld) (a : BarMsg) : State :=
  ({ s with net := { s.net with counted := s.net.counted.filter fun x => !a.takesBack x } } : State).put f (s.get f - 2 ^ a.part)

/-- The barr of a withdrawal leaves its window, where it stands in one still. -/
def State.barrLeaves (s : State) (a : BarMsg) : State := if a.dead then s else s.dropInsn a.part a.tag

section
variable {s : State} {a : BarMsg}

theorem performWithdrawal_closed (hc : s.net.counted.any a.takesBack = false) : s.performWithdrawal a = s :=
  if_neg (ne_true_of_eq_false hc)

section
variable (hc : s.net.counted.any a.takesBack = true)
include hc

theorem performWithdrawal_early (he : bitOf (s.get (Reg.BARRIER.EARLY a.counter)) a.part = true) :
    s.performWithdrawal a = (s.uncount (Reg.BARRIER.EARLY a.counter) a).barrLeaves a :=
  (if_pos hc).trans (congrArg (State.barrLeaves · a) (if_pos he))

theorem performWithdrawal_open (he : bitOf (s.get (Reg.BARRIER.EARLY a.counter)) a.part = false)
    (ha : bitOf (s.get (Reg.BARRIER.ARRIVED a.counter)) a.part = true) :
    s.performWithdrawal a = (s.uncount (Reg.BARRIER.ARRIVED a.counter) a).barrLeaves a :=
  (if_pos hc).trans (congrArg (State.barrLeaves · a) ((if_neg (ne_true_of_eq_false he)).trans
    (congrArg (State.put _ _) (if_pos ha))))

end
end

/-! ### The commands -/

section
variable {s : State} {k : Nat} {a : BarMsg} {rest : List BarMsg} (hu : s.phase = .up)
include hu

section
variable (hp : pick BarMsg.sameWay k s.net.arrivals = some (a, rest)) (hb : s.behindLatch a = false)
include hp hb

theorem exec_barrierArrival (hl : a.leave = false) :
    exec (.barrierArrival k) s = .next (((s.withArrivals rest).performArrival a).keeping s) := by
  change execBarrierArrival k s = _
  simp only [execBarrierArrival, whenLive_up hu, hp, hb, hl]
  rfl

theorem exec_barrierWithdrawal (hl : a.leave = true) :
    exec (.barrierWithdrawal k) s = .next (((s.withArrivals rest).performWithdrawal a).keeping s) := by
  change execBarrierWithdrawal k s = _
  simp only [execBarrierWithdrawal, whenLive_up hu, hp, hb, hl]
  rfl

end

theorem exec_barrierRelease (hp : pick (fun a b => a.back == b.back) k s.net.releases = some (a, rest))
    (hb : s.behindNote a = false) : exec (.barrierRelease k) s =
      .next ((({ s with net := { s.net with releases := rest } } : State).takeRelease a).landAcks.keeping s) := by
  change execBarrierRelease k s = _
  simp only [execBarrierRelease, whenLive_up hu, hp, hb]
  rfl

end

/-- Settles O19: the message that arrives leaves the list, and its counter's home does with it what the participant's bits say. -/
theorem barrierHomesAnswer : Obligations.BarrierHomesAnswer := by
  intro k s a rest u mine hu
  refine ⟨fun hp hb hl hr => ?refused, fun hp hb hl hv hpart => ?counted, fun hp hb => ?release,
    fun hp hb hl hc => ?takenBack, fun hp hb hl hc => ?closed⟩
  case refused =>
    exact (exec_barrierArrival hu hp hb hl).trans (next_keeping (performArrival_refused (s := u) hr))
  case counted =>
    have hexec := exec_barrierArrival hu hp hb hl
    exact ⟨fun ha => hexec.trans (next_keeping (performArrival_first (s := u) hv hpart ha)),
      fun ha he => hexec.trans (next_keeping (performArrival_second (s := u) hv hpart ha he)),
      fun ha he => hexec.trans (next_keeping (performArrival_third (s := u) hv hpart ha he))⟩
  case release =>
    have hexec := exec_barrierRelease hu hp hb
    exact ⟨fun hd => hexec.trans (next_keeping (congrArg State.landAcks (takeRelease_barr hd))),
      fun hd => hexec.trans (next_keeping (congrArg State.landAcks (takeRelease_killed hd)))⟩
  case takenBack =>
    have hexec := exec_barrierWithdrawal hu hp hb hl
    exact ⟨fun he => hexec.trans (next_keeping (performWithdrawal_early (s := u) hc he)),
      fun he ha => hexec.trans (next_keeping (performWithdrawal_open (s := u) hc he ha))⟩
  case closed =>
    exact (exec_barrierWithdrawal hu hp hb hl).trans (next_keeping (performWithdrawal_closed (s := u) hc))

/-! ### The fields of a counter (R304) -/

/-- Two fields of one register have different keys where they begin at different bits. -/
theorem key_ne_of_lo {f g : Fld} (ho : f.off = g.off) (hl : (f.lo == g.lo) = false) : f.key ≠ g.key := by
  have := ne_of_beq_false hl
  unfold Fld.key
  omega

/-- The fields of a counter's CFG have other keys than those of its STATE. -/
theorem cfg_key_ne_state {f g : Fld} {c : Nat} (hf : f.off = 0xA0000 + 0x0 + 16 * c) (hg : g.off = 0xA0000 + 0x8 + 16 * c)
    (hl : f.lo < 64) : f.key ≠ g.key := by
  unfold Fld.key
  omega

/-! ### The close of a phase (R295) -/

/-- A phase that closes is counted. -/
def State.phaseCounted (s : State) (c : Nat) : State :=
  s.puts [(Reg.BARRIER.PHASE c, 1 - s.get (Reg.BARRIER.PHASE c)),
    (Reg.BARRIER.CLOSE_CNT c, s.get (Reg.BARRIER.CLOSE_CNT c) + 1)]

/-- A close sends the set of its post latch, where the configuration has one. -/
def State.postLatch (s : State) (c src : Nat) : State :=
  if s.get (Reg.BARRIER.CFG_POST_V c) = 1 then
    s.injectLatch (homeRouter c) src (s.get (Reg.BARRIER.CFG_POST c)) .set none true else s

/-- The open phase is over: its participants are released, and its post latch is set. -/
def State.phaseOver (s : State) (c src : Nat) : State :=
  ((s.phaseCounted c).release c (s.get (Reg.BARRIER.CFG_PART c)) (List.range 9)).postLatch c src

/-- One phase of a counter closes, and the arrivals that came early are those of the next one. -/
def State.closeOne (s : State) (c src : Nat) : State :=
  (s.phaseOver c src).puts
    [(Reg.BARRIER.ARRIVED c, (s.phaseOver c src).get (Reg.BARRIER.EARLY c)), (Reg.BARRIER.EARLY c, 0)]

theorem closePhases_open {s : State} {c src : Nat}
    (h : s.get (Reg.BARRIER.ARRIVED c) ≠ s.get (Reg.BARRIER.CFG_PART c)) : ∀ k, s.closePhases c src k = s
  | 0 => rfl
  | _ + 1 => if_neg fun hc => h hc.1

theorem closePhases_full {s : State} {c src : Nat}
    (h : s.get (Reg.BARRIER.ARRIVED c) = s.get (Reg.BARRIER.CFG_PART c)) (h0 : s.get (Reg.BARRIER.CFG_PART c) ≠ 0) (k : Nat) :
    s.closePhases c src (k + 1) = (s.closeOne c src).closePhases c src k :=
  if_pos ⟨h, h0⟩

/-- Releases change the mesh alone, and send nothing to a latch's home. -/
theorem release_eq (s : State) (c mask : Nat) (l : List Nat) :
    ∃ n, s.release c mask l = { s with net := n } ∧ n.latchMsgs = s.net.latchMsgs := by
  induction l generalizing s with
  | nil => exact ⟨s.net, rfl, rfl⟩
  | cons q r ih =>
    unfold State.release
    split
    · split
      · obtain ⟨n, hn, hm⟩ := ih { s with net := _ }
        refine ⟨n, hn, hm.trans ?_⟩
        split <;> rfl
      · exact ih s
    · exact ih s

section
variable (s : State) (c src : Nat)

theorem postLatch_get (f : Fld) : (s.postLatch c src).get f = s.get f := by
  unfold State.postLatch
  split <;> rfl

theorem postLatch_mem : (s.postLatch c src).mem = s.mem := by
  unfold State.postLatch
  split <;> rfl

/-- The message of a close goes behind those that are on their way. -/
theorem postLatch_latchMsgs : ∃ q, (s.postLatch c src).net.latchMsgs = s.net.latchMsgs ++
    if s.get (Reg.BARRIER.CFG_POST_V c) = 1 then
      [⟨src, s.get (Reg.BARRIER.CFG_POST c) % 16384, .set, none, true, homeRouter c, q⟩] else [] := by
  unfold State.postLatch
  split
  · exact ⟨_, rfl⟩
  · exact ⟨0, (List.append_nil _).symm⟩

theorem phaseOver_get (f : Fld) : (s.phaseOver c src).get f = (s.phaseCounted c).get f := by
  obtain ⟨n, hn, -⟩ := release_eq (s.phaseCounted c) c (s.get (Reg.BARRIER.CFG_PART c)) (List.range 9)
  rw [State.phaseOver, postLatch_get, hn]
  rfl

theorem closeOne_mem : (s.closeOne c src).mem = s.mem := by
  obtain ⟨n, hn, -⟩ := release_eq (s.phaseCounted c) c (s.get (Reg.BARRIER.CFG_PART c)) (List.range 9)
  change (s.phaseOver c src).mem = s.mem
  rw [State.phaseOver, postLatch_mem, hn]
  rfl

theorem phaseCounted_get_ne {f : Fld} (hp : f.key ≠ (Reg.BARRIER.PHASE c).key) (hc : f.key ≠ (Reg.BARRIER.CLOSE_CNT c).key) :
    (s.phaseCounted c).get f = s.get f :=
  State.get_puts_ne _ _ _ (by simp [hp, hc])

theorem closeOne_get_ne {f : Fld} (ha : f.key ≠ (Reg.BARRIER.ARRIVED c).key) (he : f.key ≠ (Reg.BARRIER.EARLY c).key) :
    (s.closeOne c src).get f = (s.phaseCounted c).get f :=
  (State.get_puts_ne _ _ _ (by simp [ha, he])).trans (phaseOver_get s c src f)

theorem closeOne_cfg {f : Fld} (ho : f.off = 0xA0000 + 0x0 + 16 * c) (hl : f.lo < 64) :
    (s.closeOne c src).get f = s.get f := by
  have hne {g : Fld} (hg : g.off = 0xA0000 + 0x8 + 16 * c) : f.key ≠ g.key := cfg_key_ne_state ho hg hl
  rw [closeOne_get_ne s c src (hne rfl) (hne rfl), phaseCounted_get_ne s c (hne rfl) (hne rfl)]

theorem closeOne_phase : (s.closeOne c src).get (Reg.BARRIER.PHASE c) = (1 - s.get (Reg.BARRIER.PHASE c)) % 2 := by
  rw [closeOne_get_ne s c src (f := Reg.BARRIER.PHASE c) (key_ne_of_lo rfl rfl) (key_ne_of_lo rfl rfl)]
  exact (State.get_put_ne _ (Reg.BARRIER.CLOSE_CNT c) (Reg.BARRIER.PHASE c) _ (key_ne_of_lo rfl rfl)).trans
    (State.get_put_self s _ _)

theorem closeOne_closeCnt : (s.closeOne c src).get (Reg.BARRIER.CLOSE_CNT c) =
    (s.get (Reg.BARRIER.CLOSE_CNT c) + 1) % 2 ^ 32 := by
  rw [closeOne_get_ne s c src (f := Reg.BARRIER.CLOSE_CNT c) (key_ne_of_lo rfl rfl) (key_ne_of_lo rfl rfl)]
  exact State.get_put_self _ _ _

theorem closeOne_early : (s.closeOne c src).get (Reg.BARRIER.EARLY c) = 0 := State.get_put_self _ _ _

theorem closeOne_arrived : (s.closeOne c src).get (Reg.BARRIER.ARRIVED c) = s.get (Reg.BARRIER.EARLY c) % 2 ^ 9 := by
  have hearly : (s.phaseOver c src).get (Reg.BARRIER.EARLY c) = s.get (Reg.BARRIER.EARLY c) :=
    (phaseOver_get s c src _).trans
      (phaseCounted_get_ne s c (f := Reg.BARRIER.EARLY c) (key_ne_of_lo rfl rfl) (key_ne_of_lo rfl rfl))
  rw [← hearly]
  exact (State.get_put_ne _ (Reg.BARRIER.EARLY c) (Reg.BARRIER.ARRIVED c) _ (key_ne_of_lo rfl rfl)).trans
    (State.get_put_self _ _ _)

/-- The close of a phase sends the set of the post latch, where the configuration has one, and no other latch message. -/
theorem closeOne_latchMsgs : ∃ q, (s.closeOne c src).net.latchMsgs = s.net.latchMsgs ++
    if s.get (Reg.BARRIER.CFG_POST_V c) = 1 then
      [⟨src, s.get (Reg.BARRIER.CFG_POST c) % 16384, .set, none, true, homeRouter c, q⟩] else [] := by
  obtain ⟨n, hn, hm⟩ := release_eq (s.phaseCounted c) c (s.get (Reg.BARRIER.CFG_PART c)) (List.range 9)
  obtain ⟨q, hq⟩ := postLatch_latchMsgs { s.phaseCounted c with net := n } c src
  have hcfg {f : Fld} (hoff : f.off = 0xA0000 + 0x0 + 16 * c) (hl : f.lo < 64) :
      (s.phaseCounted c).get f = s.get f :=
    phaseCounted_get_ne s c (cfg_key_ne_state hoff rfl hl) (cfg_key_ne_state hoff rfl hl)
  refine ⟨q, ?_⟩
  rw [← hcfg (f := Reg.BARRIER.CFG_POST_V c) rfl (of_decide_eq_true rfl),
    ← hcfg (f := Reg.BARRIER.CFG_POST c) rfl (of_decide_eq_true rfl)]
  change (s.phaseOver c src).net.latchMsgs = _
  rw [State.phaseOver, hn, hq, hm]
  rfl

end

/-- An arrival that is counted in ARRIVED changes no other register. -/
theorem countArrived_get_ne (s : State) (a : BarMsg) {f : Fld} (h : f.key ≠ (Reg.BARRIER.ARRIVED a.counter).key) :
    (s.countIn (Reg.BARRIER.ARRIVED a.counter) a).get f = s.get f :=
  State.get_put_ne _ _ _ _ h

/-- Where an arrival completes the open phase, and what came early does not complete the next one, one phase closes. -/
theorem closePhases_once {s : State} {a : BarMsg} (src k : Nat)
    (hcfg : s.get (Reg.BARRIER.CFG_PART a.counter) < 512)
    (hfull : s.get (Reg.BARRIER.ARRIVED a.counter) + 2 ^ a.part = s.get (Reg.BARRIER.CFG_PART a.counter))
    (hearly : s.get (Reg.BARRIER.EARLY a.counter) < 512)
    (hnext : s.get (Reg.BARRIER.EARLY a.counter) ≠ s.get (Reg.BARRIER.CFG_PART a.counter)) :
    let x := s.countIn (Reg.BARRIER.ARRIVED a.counter) a
    x.closePhases a.counter src (k + 1) = x.closeOne a.counter src ∧
      (x.closeOne a.counter src).get (Reg.BARRIER.ARRIVED a.counter) = s.get (Reg.BARRIER.EARLY a.counter) := by
  intro x
  have hpart : x.get (Reg.BARRIER.CFG_PART a.counter) = s.get (Reg.BARRIER.CFG_PART a.counter) :=
    countArrived_get_ne s a (cfg_key_ne_state rfl rfl (of_decide_eq_true rfl))
  have hall : x.get (Reg.BARRIER.ARRIVED a.counter) = s.get (Reg.BARRIER.CFG_PART a.counter) := by
    rw [← hfull]
    exact get_put_of_lt s (hfull.trans_lt hcfg)
  have hnew : (x.closeOne a.counter src).get (Reg.BARRIER.ARRIVED a.counter) = s.get (Reg.BARRIER.EARLY a.counter) := by
    rw [closeOne_arrived, countArrived_get_ne s a (f := Reg.BARRIER.EARLY a.counter) (key_ne_of_lo rfl rfl)]
    exact Nat.mod_eq_of_lt hearly
  have hpos : s.get (Reg.BARRIER.CFG_PART a.counter) ≠ 0 := by
    have := Nat.two_pow_pos a.part
    omega
  refine ⟨?_, hnew⟩
  rw [closePhases_full (hall.trans hpart.symm) (hpart ▸ hpos), closePhases_open]
  rw [hnew, closeOne_cfg x a.counter src rfl (of_decide_eq_true rfl), hpart]
  exact hnext

/-- Settles O20: the arrival makes ARRIVED the participants of the configuration, so that one phase closes; the arrivals of
the next one are those that came early, which do not close it. -/
theorem lastArrivalClosesThePhase : Obligations.LastArrivalClosesThePhase := by
  intro k s a rest hu hp hb hl _ _ hv hpart harr hcfg hfull hearly hnext
  have hexec := exec_barrierArrival hu hp hb hl
  rw [performArrival_first (s := s.withArrivals rest) hv hpart harr] at hexec
  generalize (if a.part < 8 then a.part else 0x401) = src at hexec ⊢
  obtain ⟨hone, hnew⟩ := closePhases_once (s := s.withArrivals rest) src 1 hcfg hfull hearly hnext
  rw [hone] at hexec
  have hx (f : Fld) (hf : f.key ≠ (Reg.BARRIER.ARRIVED a.counter).key) :
      ((s.withArrivals rest).countIn (Reg.BARRIER.ARRIVED a.counter) a).get f = s.get f :=
    countArrived_get_ne (s.withArrivals rest) a hf
  have hmsgs := closeOne_latchMsgs ((s.withArrivals rest).countIn (Reg.BARRIER.ARRIVED a.counter) a) a.counter src
  rw [hx (Reg.BARRIER.CFG_POST_V a.counter) (cfg_key_ne_state rfl rfl (of_decide_eq_true rfl)),
    hx (Reg.BARRIER.CFG_POST a.counter) (cfg_key_ne_state rfl rfl (of_decide_eq_true rfl))] at hmsgs
  obtain ⟨q, hq⟩ := hmsgs
  refine ⟨_, hexec, ?phase, ?closeCnt, hnew, closeOne_early _ _ _, ?before, ?after, closeOne_mem _ _ _⟩
  case phase =>
    rw [State.keeping_get, closeOne_phase, hx (Reg.BARRIER.PHASE a.counter) (key_ne_of_lo rfl rfl)]
  case closeCnt =>
    rw [State.keeping_get, closeOne_closeCnt, hx (Reg.BARRIER.CLOSE_CNT a.counter) (key_ne_of_lo rfl rfl)]
  case before =>
    rw [State.keeping_net, hq]
    exact List.take_left
  case after =>
    rw [State.keeping_net, hq]
    refine (congrArg _ List.drop_left).trans ?_
    split <;> rfl

end Sys2Proof.Machine
end

section
/-!
PROOFS. What monitors, the releases of multicast copies and errors of the mesh do (chapter 10).
-/

namespace Sys2Proof.Machine

/-! ### Monitors (R300, R301) -/

/-- The state without the write that a monitor tests. -/
def State.withWrites (s : State) (l : List (Nat × BitVec 64)) : State := { s with net := { s.net with monWrites := l } }

/-- The fault of a mwait whose word is poisoned (R301). -/
def Insn.monPoison (i : Insn) : Flt := fltOf cPOISON roleA (i.td roleA) (i.td roleA).base

/-- A monitor's condition holds for the value that a write leaves. -/
def State.monMet (s : State) (m : Nat) (v : BitVec 64) : Bool :=
  monHolds (s.get (Reg.BARRIER.MON_COND m)) v.toNat (s.get (Reg.BARRIER.MON_COMPARAND m))

/-- The count of tested writes is no register of a monitor. -/
theorem monMet_counted (s : State) {m : Nat} (hm : m < 256) (v : BitVec 64) (n : Nat) :
    (s.inc Reg.BARRIER.MON_WRITES n).monMet m v = s.monMet m v := by
  have hcond : (Reg.BARRIER.MON_COND m).key ≠ Reg.BARRIER.MON_WRITES.key := by
    simp only [Fld.key, Reg.BARRIER.MON_COND, Reg.BARRIER.MON_WRITES]
    omega
  have hcomp : (Reg.BARRIER.MON_COMPARAND m).key ≠ Reg.BARRIER.MON_WRITES.key := by
    simp only [Fld.key, Reg.BARRIER.MON_COMPARAND, Reg.BARRIER.MON_WRITES]
    omega
  rw [State.monMet, State.monMet, State.get_inc_ne _ _ _ _ hcond, State.get_inc_ne _ _ _ _ hcomp]

section
variable {s : State} {m : Nat} {v : BitVec 64}

theorem testMonitor_unarmed (h : s.net.monTags.find? (fun x => x.1 = m) = none) (poison : Bool) :
    s.testMonitor m v poison = s := by
  simp only [State.testMonitor, h]

section
variable {tg : Nat × Nat} (h : s.net.monTags.find? (fun x => x.1 = m) = some tg)
include h

theorem testMonitor_poison {i : Insn}
    (hi : (s.core (s.get (Reg.BARRIER.MON_CORE m))).window.find? (fun i => i.tag = tg.2) = some i) :
    s.testMonitor m v true = (s.disarmOne m).takeFault (s.get (Reg.BARRIER.MON_CORE m)) i i.monPoison := by
  have hi' : ((s.disarmOne m).core (s.get (Reg.BARRIER.MON_CORE m))).window.find? (fun i => i.tag = tg.2) = some i := hi
  simp only [State.testMonitor, h, if_pos, hi']
  rfl

theorem testMonitor_unmet (hm : m < 256) (hv : s.monMet m v = false) :
    s.testMonitor m v false = s.inc Reg.BARRIER.MON_WRITES 1 := by
  simp only [State.testMonitor, h]
  exact if_neg (ne_true_of_eq_false ((monMet_counted s hm v 1).trans hv))

theorem testMonitor_met (hm : m < 256) (hv : s.monMet m v = true) : s.testMonitor m v false =
    (((s.inc Reg.BARRIER.MON_WRITES 1).disarmOne m).inc Reg.BARRIER.MON_WAKE 1).markDone
      (s.get (Reg.BARRIER.MON_CORE m)) tg.2 Cnt.none := by
  simp only [State.testMonitor, h]
  exact if_pos ((monMet_counted s hm v 1).trans hv)

end
end

/-! ### Errors of the mesh (R2, R20, R285, R401) -/

section
variable {s : State} {src : BitVec 16}

theorem exec_meshHeader_foreign (h : s.isSource src.toNat = false) (hu : s.phase = .up) (payload : Option (BitVec 57)) :
    exec (.meshHeader ⟨src, payload⟩) s = .next s := by
  change execMeshHeader _ s = _
  simp only [execMeshHeader, whenLive_up hu, h]
  rfl

theorem exec_meshHeader_header (h : s.isSource src.toNat = true) (hu : s.phase = .up) :
    exec (.meshHeader ⟨src, none⟩) s =
      .next (((s.inc Reg.LATCH.NET_ECC_UNCORR 1).raiseFE src.toNat 7 0x24 0).keeping s) := by
  change execMeshHeader _ s = _
  simp only [execMeshHeader, whenLive_up hu, h]
  rfl

theorem exec_meshHeader_payload (h : s.isSource src.toNat = true) (hu : s.phase = .up) (pa : BitVec 57) :
    exec (.meshHeader ⟨src, some pa⟩) s =
      .next (((s.inc Reg.LATCH.NET_ECC_UNCORR 1).meshPayload src.toNat pa.toNat).keeping s) := by
  change execMeshHeader _ s = _
  simp only [execMeshHeader, whenLive_up hu, h]
  rfl

theorem exec_syncState_nothing {corrected : Bool} (h : corrected = true ∨ s.isSource src.toNat = false)
    (hu : s.phase = .up) : exec (.syncState src corrected) s = .next s := by
  change execSyncState _ _ s = _
  rw [execSyncState, whenLive_up hu, if_pos (by simpa using h), State.keeping_self]

theorem exec_syncState_fatal (h : s.isSource src.toNat = true) (hu : s.phase = .up) :
    exec (.syncState src false) s = .next ((s.raiseFE src.toNat 0x0F 0x31 0).keeping s) := by
  change execSyncState _ _ s = _
  rw [execSyncState, whenLive_up hu, if_neg (by simp [h])]

end

/-! ### The commands -/

theorem exec_monitorWrite {s : State} {k : Nat} {e : Nat × BitVec 64} {rest : List (Nat × BitVec 64)} (hu : s.phase = .up)
    (hp : pick (fun a b => a.1 % 256 == b.1 % 256) k s.net.monWrites = some (e, rest)) :
    exec (.monitorWrite k) s =
      .next (((s.withWrites rest).testMonitor (e.1 % 256) e.2 (decide (256 ≤ e.1))).keeping s) := by
  change execMonitorWrite k s = _
  simp only [execMonitorWrite, whenLive_up hu, hp]
  rfl

theorem exec_mcastHoldRelease {s : State} (hu : s.phase = .up) (g : Fin 32) (targets : BitVec 36) :
    exec (.mcastHoldRelease g targets) s =
      .next (((((List.range 36).filter (bitOf targets.toNat)).foldl (fun s r => s.releaseCopy g.val r) s).waitingMcasts
        g.val).keeping s) := by
  change execMcastHoldRelease g targets s = _
  rw [execMcastHoldRelease, whenLive_up hu]

/-- Settles O21: a monitor tests the write that comes next, whose number says whether it is poison; a source that this device has
decides what an error of the mesh does. -/
theorem monitorsAndMulticastRun : Obligations.MonitorsAndMulticastRun := by
  intro k s e tg rest u hu
  refine ⟨fun hp he ht => ?value, fun i hp he ht hi => ?poison, fun hp ht => ?unarmed, exec_mcastHoldRelease hu,
    fun src h => exec_meshHeader_header h hu, fun src pa h => exec_meshHeader_payload h hu pa,
    fun src => exec_syncState_nothing (.inl rfl) hu, fun src h => exec_syncState_fatal h hu,
    fun src payload h => ⟨exec_meshHeader_foreign h hu payload, exec_syncState_nothing (.inr h) hu⟩⟩
  case value =>
    have hexec := exec_monitorWrite hu hp
    rw [Nat.mod_eq_of_lt he, decide_eq_false (Nat.not_le.mpr he)] at hexec
    exact ⟨fun hv => hexec.trans (next_keeping (testMonitor_unmet (s := u) ht he hv)),
      fun hv => hexec.trans (next_keeping (testMonitor_met (s := u) ht he hv))⟩
  case poison =>
    have hexec := exec_monitorWrite hu hp
    rw [decide_eq_true he] at hexec
    exact hexec.trans (next_keeping (testMonitor_poison (s := u) ht hi))
  case unarmed => exact (exec_monitorWrite hu hp).trans (next_keeping (testMonitor_unarmed (s := u) ht _))

end Sys2Proof.Machine
end

section
/-!
PROOFS. What the host and Sill firmware do at the synchronization registers (chapter 10).
-/

namespace Sys2Proof.Machine

/-! ### LATCH.SET and LATCH.CLR (R303, R304) -/

/-- The messages to the latches of a list, which are injected at a router one after another. -/
def NetSt.listMsgs (t : NetSt) (router src : Nat) (op : HomeOp) (l : List Nat) : List LatchMsg :=
  l.zipIdx.map fun e => ⟨src, e.1, op, none, false, router, t.sent + e.2⟩

theorem listMsgs_concat (t : NetSt) (router src : Nat) (op : HomeOp) (l : List Nat) (x : Nat) :
    t.listMsgs router src op (l ++ [x]) =
      t.listMsgs router src op l ++ [⟨src, x, op, none, false, router, t.sent + l.length⟩] := by
  simp [NetSt.listMsgs, List.zipIdx_append]

theorem sendLatch_inRange (s : State) (src : Nat) (set : Bool) {x : Nat} (hx : x < 16384) : s.sendLatch src x set none =
    { s with net := { s.net.cross (routerOf src) (homeRouter x) with latchMsgs := s.net.latchMsgs ++
        [⟨src, x, if set then .set else .clear, none, false, routerOf src, s.net.sent⟩] } } := by
  rw [State.sendLatch, State.injectLatch, Nat.mod_eq_of_lt hx]

/-- Messages to a list of latches cross the mesh to their homes one after another. -/
theorem foldl_sendLatch (s : State) (src : Nat) (set : Bool) {l : List Nat} (hl : ∀ x ∈ l, x < 16384) :
    l.foldl (fun s x => s.sendLatch src x set none) s =
      { s with net := { s.net.crossTo (routerOf src) l with
          latchMsgs := s.net.latchMsgs ++ s.net.listMsgs (routerOf src) src (if set then .set else .clear) l
          sent := s.net.sent + l.length } } := by
  induction l using List.reverseRecOn with
  | nil => simp [NetSt.listMsgs]
  | append_singleton r x ih =>
    rw [List.foldl_append, ih fun y hy => hl y (by simp [hy]), crossTo_concat, listMsgs_concat, ← List.append_assoc,
      List.length_append]
    exact sendLatch_inRange _ src set (hl x (by simp))

/-- The messages that a word written to LATCH.SET or LATCH.CLR sends (R303). -/
theorem hostLatches_eq (s : State) {k : Nat} (hk : k < 256) (v : Nat) (set : Bool) :
    let bits := (List.range 64).filter (bitOf v)
    s.hostLatches k v set = { s with net := { s.net.crossTo (routerOf 0x401) (bits.map (64 * k + ·)) with
      latchMsgs := s.net.latchMsgs ++ bits.zipIdx.map fun i =>
        ⟨0x401, 64 * k + i.1, if set then .set else .clear, none, false, routerOf 0x401, s.net.sent + i.2⟩
      sent := s.net.sent + bits.length } } := by
  intro bits
  have hlatches : ∀ x ∈ bits.map (64 * k + ·), x < 16384 := by
    intro x hx
    obtain ⟨i, hi, rfl⟩ := List.mem_map.mp hx
    have := List.mem_range.mp (List.mem_of_mem_filter hi)
    omega
  have hsend := foldl_sendLatch s 0x401 set hlatches
  rw [List.foldl_map, NetSt.listMsgs, List.zipIdx_map, List.map_map, List.length_map] at hsend
  exact hsend

/-! ### BARRIER.CFG and LATCH.MCAST (R299, R304) -/

/-- A counter's configuration is written while it is empty (R299). -/
theorem barrierCfg_empty {s : State} {c : Nat} (v : Nat) (ha : s.get (Reg.BARRIER.ARRIVED c) = 0)
    (he : s.get (Reg.BARRIER.EARLY c) = 0) : s.barrierCfg c v =
      (((s.put (Reg.BARRIER.CFG_VALID c) (bitsOf v 63 63)).put (Reg.BARRIER.CFG_POST_V c) (bitsOf v 47 47)).put
        (Reg.BARRIER.CFG_POST c) (bitsOf v 46 33)).put (Reg.BARRIER.CFG_PART c) (bitsOf v 8 0) :=
  if_pos ⟨ha, he⟩

theorem barrierCfg_busy {s : State} {c : Nat} (v : Nat)
    (h : ¬(s.get (Reg.BARRIER.ARRIVED c) = 0 ∧ s.get (Reg.BARRIER.EARLY c) = 0)) :
    s.barrierCfg c v = s.put Reg.BARRIER.CFG_BUSY 1 :=
  if_neg h

/-- Sill firmware writes a multicast group while nothing of it is in flight (R304). -/
theorem mcastWrite_idle {s : State} {g : Nat} (v : Nat) (h : s.get (Reg.LATCH.MCAST_INFLIGHT g) = 0) :
    s.mcastWrite g v true =
      (s.put (Reg.LATCH.MCAST_VALID g) (bitsOf v 63 63)).put (Reg.LATCH.MCAST_TARGETS g) (bitsOf v 35 0) :=
  if_pos h

theorem mcastWrite_inFlight {s : State} {g : Nat} (v : Nat) (h : s.get (Reg.LATCH.MCAST_INFLIGHT g) ≠ 0) :
    s.mcastWrite g v true = s :=
  if_neg h

/-! ### The commands -/

section
variable {s : State} (hu : s.phase = .up)
include hu

theorem exec_latchSetWrite (hd : s.host.d3hot = false) (k : Fin 256) (v : BitVec 64) :
    exec (.latchSetWrite k v) s = .next ((s.hostLatches k.val v.toNat true).keeping s) :=
  whenBar_open hu (.inl hd) fun s => s.hostLatches k.val v.toNat true

theorem exec_latchClrWrite (hd : s.host.d3hot = false) (k : Fin 256) (v : BitVec 64) :
    exec (.latchClrWrite k v) s = .next ((s.hostLatches k.val v.toNat false).keeping s) :=
  whenBar_open hu (.inl hd) fun s => s.hostLatches k.val v.toNat false

theorem exec_arriveWrite (hd : s.host.d3hot = false) (v : BitVec 64) :
    exec (.arriveWrite v) s = .next ((s.sendArrival 8 (bitsOf v.toNat 10 0) 0).keeping s) :=
  whenBar_open hu (.inl hd) fun s => s.sendArrival 8 (bitsOf v.toNat 10 0) 0

theorem exec_barrierCfgWrite {sill : Bool} (ho : s.host.d3hot = false ∨ sill = true) (c : Fin 2048) (v : BitVec 64) :
    exec (.barrierCfgWrite c v sill) s = .next ((s.barrierCfg c.val v.toNat).keeping s) :=
  whenBar_open hu ho fun s => s.barrierCfg c.val v.toNat

theorem exec_mcastWrite_sill (g : Fin 32) (v : BitVec 64) :
    exec (.mcastWrite g v true) s = .next ((s.mcastWrite g.val v.toNat true).keeping s) :=
  whenBar_open hu (.inr rfl) fun s => s.mcastWrite g.val v.toNat true

end

/-- Settles O22: each write is its register's, and the messages of a word of LATCH.SET or LATCH.CLR are those of its ones. -/
theorem synchronizationRegistersAct : Obligations.SynchronizationRegistersAct := by
  intro k c g v sill s hu bits sent
  exact ⟨fun hd => (exec_latchSetWrite hu hd k v).trans (next_keeping (hostLatches_eq s k.isLt v.toNat true)),
    fun hd => (exec_latchClrWrite hu hd k v).trans (next_keeping (hostLatches_eq s k.isLt v.toNat false)),
    fun hd => exec_arriveWrite hu hd v,
    fun ho ha he => (exec_barrierCfgWrite hu ho c v).trans (next_keeping (barrierCfg_empty v.toNat ha he)),
    fun ho h => (exec_barrierCfgWrite hu ho c v).trans (next_keeping (barrierCfg_busy v.toNat h)),
    fun h => (exec_mcastWrite_sill hu g v).trans (next_keeping (mcastWrite_idle v.toNat h)),
    fun h => (exec_mcastWrite_sill hu g v).trans (next_keeping (mcastWrite_inFlight v.toNat h))⟩

end Sys2Proof.Machine
end

section
/-!
PROOFS. What a step does with the queue, with a command in reset, and what the resets keep and clear (R531, R533, R534).
-/

namespace Sys2Proof.Machine

/-! ### The queue, the phase, and where a command stops -/

/-- Settles O1: a step on a queue with a front command is that command's outcome. -/
theorem stepTakesFront : Obligations.StepTakesFront :=
  fun _ _ => rfl

/-- The commands that act in reset too are well-formed and answer a next state. -/
theorem exec_next_of_actsInReset {c : Instr} (h : actsInReset c = true) (s : State) :
    c.wellFormed = true ∧ ∃ t, exec c s = .next t := by
  cases c
  case perstAssert | effectiveRelease | railDrop | tamperTrip | vauxWithinRange => exact ⟨rfl, _, rfl⟩
  all_goals cases h

/-- Settles O3: the shape of every command's outcome says where it stops. -/
theorem stopsExactlyWhenIllFormed : Obligations.StopsExactlyWhenIllFormed := by
  intro c s
  obtain hr | ⟨hw, f, he⟩ | ⟨hw, he⟩ := exec_shape c s
  · obtain ⟨hw, hn⟩ := exec_next_of_actsInReset hr s
    exact ⟨fun _ => hn, fun hb => absurd (hw.symm.trans hb) Bool.noConfusion⟩
  · exact ⟨fun _ => ⟨_, he⟩, fun hb => absurd (hw.symm.trans hb) Bool.noConfusion⟩
  · exact ⟨fun hg => absurd (hw.symm.trans hg) Bool.noConfusion, fun _ => he⟩

/-- Settles O5: a well-formed command that does not act in reset works out of reset alone. -/
theorem onlyResetsActInReset : Obligations.OnlyResetsActInReset := by
  intro c s hp hr hw
  obtain hr' | ⟨-, f, he⟩ | ⟨hw', -⟩ := exec_shape c s
  · exact absurd (hr.symm.trans hr') Bool.noConfusion
  · exact he.trans (whenLive_reset hp f)
  · exact absurd (hw.symm.trans hw') Bool.noConfusion

/-- A command that works out of reset keeps the queue and the phase. -/
theorem whenLive_keeps {s t : State} {f : State → State} (h : whenLive s f = .next t) :
    t.pending = s.pending ∧ t.phase = s.phase := by
  obtain rfl := Host.Outcome.next.inj h
  split
  · exact ⟨rfl, rfl⟩
  · exact ⟨rfl, rfl⟩

/-- Settles O4: a command that acts in reset names its queue, and every other one works out of reset or stops. -/
theorem keepsQueueAndPhase : Obligations.KeepsQueueAndPhase := by
  intro c s t h
  obtain hr | ⟨-, f, he⟩ | ⟨-, he⟩ := exec_shape c s
  · cases c
    case perstAssert ns =>
      obtain rfl := Host.Outcome.next.inj h
      refine ⟨?_, fun hn => absurd rfl (hn ns)⟩
      split <;> rfl
    case effectiveRelease x =>
      obtain rfl := Host.Outcome.next.inj h
      refine ⟨?_, fun _ hn => absurd rfl (hn x)⟩
      split <;> rfl
    case railDrop r p ns =>
      obtain rfl := Host.Outcome.next.inj h
      refine ⟨?_, fun _ _ hn => absurd rfl (hn r p ns)⟩
      split <;> rfl
    case tamperTrip | vauxWithinRange =>
      obtain rfl := Host.Outcome.next.inj h
      exact ⟨rfl, fun _ _ _ => rfl⟩
    all_goals cases hr
  · obtain ⟨hq, hp⟩ := whenLive_keeps (he.symm.trans h)
    exact ⟨hq, fun _ _ _ => hp⟩
  · cases he.symm.trans h

/-! ### What a state in reset holds -/

/-- A key of the security block's registers. -/
def secKey (k : Nat) : Bool := decide (0x40000 * 64 ≤ k) && decide (k < 0x50000 * 64)

/-- The security block's registers are all that a list holds. -/
theorem secRegs_eq_self_iff {l : List (Nat × Nat)} : secRegs l = l ↔ ∀ e ∈ l, secKey e.1 = true :=
  List.filter_eq_self

theorem secRegs_idem (l : List (Nat × Nat)) : secRegs (secRegs l) = secRegs l :=
  secRegs_eq_self_iff.mpr fun _ he => (List.mem_filter.mp he).2

/-- A write to the security block's registers leaves no other one listed. -/
theorem secRegs_sparseSet {k : Nat} (hk : secKey k = true) (d v : Nat) {l : List (Nat × Nat)} (h : secRegs l = l) :
    secRegs (sparseSet d k v l) = sparseSet d k v l := by
  rw [secRegs_eq_self_iff] at h ⊢
  intro e he
  unfold sparseSet at he
  split at he
  · exact h e (List.mem_of_mem_filter he)
  · obtain rfl | he := (mem_sparseInsert _ _ _ _).mp he
    · exact hk
    · exact h e (List.mem_of_mem_filter he)

/-- Neither does a write of the value that no entry holds. -/
theorem secRegs_sparseSet_default (k d : Nat) {l : List (Nat × Nat)} (h : secRegs l = l) :
    secRegs (sparseSet d k d l) = sparseSet d k d l := by
  rw [secRegs_eq_self_iff] at h ⊢
  intro e he
  rw [sparseSet, if_pos rfl] at he
  exact h e (List.mem_of_mem_filter he)

/-- All but the security block is as after the reset of a dropped rail (R533). -/
def State.railHolds (s : State) : Prop :=
  secRegs s.regs = s.regs ∧ s = { s.domains .railReset with kept := s.kept, sec := s.sec, regs := s.regs }

/-- All is as after PERST# (R534). -/
def State.perstHolds (s : State) : Prop := ∃ t : State, s = { t.domains .perst with kept := s.kept }

/-- What a state in reset holds, phase by phase. -/
theorem resetHolds_iff (s : State) :
    s.resetHolds ↔ (s.phase = .perst → s.perstHolds) ∧ (s.phase = .railReset → s.railHolds) := by
  refine and_congr Iff.rfl (imp_congr_right fun _ => ⟨?_, ?_⟩)
  · rintro ⟨t, h⟩
    have hregs : s.regs = secRegs s.regs := congrArg State.regs h
    refine ⟨hregs.symm, ?_⟩
    rw [← hregs] at h
    have hsnap : s.snap = { SnapSt.reset with current := t.snap.current } := congrArg State.snap h
    have hhost : s.host = { HostSt.reset with out := t.host.out, cpl := t.host.cpl, msi := t.host.msi } := congrArg State.host h
    have hctr : s.freeCtr = t.freeCtr := (congrArg State.freeCtr h :)
    have hq : s.pending = t.pending := (congrArg State.pending h :)
    refine h.trans ?_
    simp only [State.domains, hsnap, hhost, hctr, hq]
  · rintro ⟨hregs, h⟩
    refine ⟨s, ?_⟩
    rw [hregs]
    exact h

theorem resetHolds_of_railHolds {s : State} (hp : s.phase = .railReset) (h : s.railHolds) : s.resetHolds :=
  (resetHolds_iff s).mpr ⟨fun hq => by simp [hp] at hq, fun _ => h⟩

theorem resetHolds_of_perstHolds {s : State} (hp : s.phase = .perst) (h : s.perstHolds) : s.resetHolds :=
  (resetHolds_iff s).mpr ⟨fun _ => h, fun hq => by simp [hp] at hq⟩

theorem State.railHolds.put {s : State} (h : s.railHolds) {f : Fld} (hf : secKey f.key = true) (v : Nat) : (s.put f v).railHolds :=
  ⟨secRegs_sparseSet hf _ _ h.1, congrArg (fun t : State => t.put f v) h.2⟩

theorem State.railHolds.put_default {s : State} (h : s.railHolds) {f : Fld} {v : Nat} (hv : v % 2 ^ f.w = f.reset) :
    (s.put f v).railHolds := by
  refine ⟨?_, congrArg (fun t : State => t.put f v) h.2⟩
  show secRegs (sparseSet f.reset f.key (v % 2 ^ f.w) s.regs) = _
  rw [hv]
  exact (secRegs_sparseSet_default _ _ h.1).trans (by rw [State.put, hv])

theorem State.railHolds.puts {s : State} (h : s.railHolds) (l : List (Fld × Nat))
    (hl : (l.all fun e => secKey e.1.key) = true) : (s.puts l).railHolds := by
  induction l generalizing s with
  | nil => exact h
  | cons e r ih =>
    obtain ⟨he, hr⟩ := (Bool.and_eq_true _ _).mp hl
    exact ih (h.put he e.2) hr

theorem State.railHolds.latchAlarm {s : State} (h : s.railHolds) (level : Nat) : (s.latchAlarm level).railHolds :=
  ⟨h.1, congrArg (fun t : State => t.latchAlarm level) h.2⟩

/-- The keys that the shutter drop erases (R508, R522). -/
def State.withoutKeys (s : State) : State :=
  { s with sec := { s.sec with akSeed := none, csk := none, peers := [] }, host := { s.host with newKey := none } }

theorem State.railHolds.withoutKeys {s : State} (h : s.railHolds) : s.withoutKeys.railHolds := by
  refine ⟨h.1, (congrArg State.withoutKeys h.2).trans ?_⟩
  rfl

/-- The shutter drop erases keys of the security block, and leaves what else a reset has erased already (R508, R522). -/
theorem State.railHolds.eraseKeys {s : State} (h : s.railHolds) : s.eraseKeys.railHolds := by
  exact (h.withoutKeys.puts [(Reg.SEC.ID_VALID, 0), (Reg.SEC.AK_VALID, 0), (Reg.SEC.CSK_VALID, 0), (Reg.SEC.CSK_ID, 0)]
    rfl).put_default rfl

/-- A sensor that trips while a dropped rail holds the device changes the security block alone (R521 to R524, R533). -/
theorem State.railHolds.tamper {s : State} (h : s.railHolds) (hp : s.phase = .railReset) (sensors : Nat) :
    (s.tamper sensors).railHolds := by
  unfold State.tamper
  dsimp only
  split
  · exact h
  rw [if_neg (by simp [hp])]
  split
  · exact h.put (by decide) 0
  have hnoted := ((h.latchAlarm (((bitsIn 8 sensors).map s.alarmLevel).foldl max 0)).put (f := Reg.SEC.NOTICE_CNT) (by decide)
    (min (s.get Reg.SEC.NOTICE_CNT + 1) (2 ^ 32 - 1))).puts [(Reg.SEC.SENSORS, sensors), (Reg.SEC.LAST_ALARM_TIME, s.now),
      (Reg.SEC.LAST_ALARM_LEVEL, ((bitsIn 8 sensors).map s.alarmLevel).foldl max 0),
      (Reg.SEC.LAST_ALARM_SENSOR, (bitsIn 8 sensors).headD 0)] (by simp only [List.all_cons, List.all_nil]; decide)
  split
  · exact hnoted
  · rw [if_neg (by simp [State.puts, hp, State.latchAlarm])]
    exact hnoted.eraseKeys

/-- Under PERST# a sensor that trips latches its level at most (R522). -/
theorem tamper_perst {s : State} (hp : s.phase = .perst) (sensors : Nat) :
    s.tamper sensors = { s with kept := (s.tamper sensors).kept } := by
  unfold State.tamper
  dsimp only
  rw [if_pos hp]
  split
  · rfl
  · split
    · rfl
    · rfl

/-- A command that finds the device in reset leaves it in what a reset keeps, or out of reset. -/
theorem exec_keeps_resetHolds {c : Instr} {s t : State} (h : s.resetHolds) (he : exec c s = .next t) : t.resetHolds := by
  obtain hr | ⟨-, f, hl⟩ | ⟨-, hl⟩ := exec_shape c s
  · cases c
    case perstAssert ns =>
      obtain rfl := Host.Outcome.next.inj he
      split
      · exact resetHolds_of_perstHolds rfl ⟨s, rfl⟩
      · exact h
    case effectiveRelease x =>
      obtain rfl := Host.Outcome.next.inj he
      split
      · exact resetHolds_of_up rfl
      · exact h
    case railDrop r p ns =>
      obtain rfl := Host.Outcome.next.inj he
      split
      · exact resetHolds_of_railHolds rfl ⟨secRegs_idem s.regs, rfl⟩
      · exact h
    case tamperTrip x =>
      obtain rfl := Host.Outcome.next.inj he
      obtain ⟨hperst, hrail⟩ := (resetHolds_iff s).mp h
      cases hp : s.phase with
      | up => exact resetHolds_of_up hp
      | perst =>
        obtain ⟨t, ht⟩ := hperst hp
        refine resetHolds_of_perstHolds hp ⟨t, ?_⟩
        rw [tamper_perst hp]
        exact congrArg (fun u : State => { u with kept := (s.tamper x.toNat).kept }) ht
      | railReset =>
        obtain ⟨hregs, hs⟩ := (hrail hp).tamper hp x.toNat
        refine resetHolds_of_railHolds hp ⟨hregs, ?_⟩
        exact (congrArg (fun u : State => u.keeping s) hs).trans (by simp only [State.keeping, State.domains, hp])
    case vauxWithinRange =>
      obtain rfl := Host.Outcome.next.inj he
      obtain ⟨hperst, hrail⟩ := (resetHolds_iff s).mp h
      refine (resetHolds_iff _).mpr ⟨fun hp => ?_, fun hp => ?_⟩
      · obtain ⟨t, ht⟩ := hperst hp
        exact ⟨{ t with sec := { t.sec with powered := true } },
          congrArg (fun u : State => { u with sec := { u.sec with powered := true } }) ht⟩
      · obtain ⟨hregs, hs⟩ := hrail hp
        exact ⟨hregs, congrArg (fun u : State => { u with sec := { s.sec with powered := true } }) hs⟩
    all_goals cases hr
  · by_cases hp : s.phase = .up
    · exact resetHolds_of_up ((whenLive_keeps (hl.symm.trans he)).2.trans hp)
    · obtain rfl := Host.Outcome.next.inj ((whenLive_reset hp f).symm.trans (hl.symm.trans he))
      exact h
  · cases hl.symm.trans he

/-- The passing of device time leaves the phase. -/
theorem passTo_phase (s : State) (t : Nat) : (s.passTo t).phase = s.phase :=
  passTo_part State.phase s t (fun _ _ => rfl) (fun _ _ _ => rfl) (fun _ _ _ => rfl) (fun _ _ => rfl) fun _ _ => rfl

theorem State.resetHolds.pending {s : State} (h : s.resetHolds) (q : List Instr) : State.resetHolds { s with pending := q } := by
  obtain ⟨hperst, hrail⟩ := h
  refine ⟨fun hp => ?_, fun hp => ?_⟩
  · obtain ⟨t, ht⟩ := hperst hp
    exact ⟨{ t with pending := q }, congrArg (fun u : State => { u with pending := q }) ht⟩
  · obtain ⟨t, ht⟩ := hrail hp
    exact ⟨{ t with pending := q }, congrArg (fun u : State => { u with pending := q }) ht⟩

/-- Settles O6: each command that acts in reset leaves what a reset keeps, and any other one and the passing of time leave the
state. -/
theorem resetHoldsIsKept : Obligations.ResetHoldsIsKept := by
  intro s t h hstep
  cases hq : s.pending with
  | nil =>
    obtain rfl := Host.Outcome.next.inj ((step_empty hq).symm.trans hstep)
    by_cases hp : s.phase = .up
    · rw [idle_up hp]
      exact resetHolds_of_up ((passTo_phase s _).trans hp)
    · rw [idle_reset hp]; exact h
  | cons c rest =>
    rw [step, hq] at hstep
    exact exec_keeps_resetHolds (h.pending rest) hstep

/-! ### What the resets clear -/

/-- A filter that spares a key leaves what is read there. -/
theorem sparseGet_filter_of_keeps {α : Type} (d : α) {k : Nat} {p : Nat → Bool} (hp : p k = true) (l : List (Nat × α)) :
    sparseGet d k (l.filter fun e => p e.1) = sparseGet d k l := by
  induction l with
  | nil => rfl
  | cons e r ih =>
    obtain ⟨j, v⟩ := e
    by_cases hj : j = k
    · subst hj; simp [sparseGet, hp]
    · cases hpj : p j <;> simp [sparseGet, hpj, hj, ih]

/-- A filter that takes a key away leaves nothing to read there. -/
theorem sparseGet_filter_of_drops {α : Type} (d : α) {k : Nat} {p : Nat → Bool} (hp : p k = false) (l : List (Nat × α)) :
    sparseGet d k (l.filter fun e => p e.1) = d := by
  induction l with
  | nil => rfl
  | cons e r ih =>
    obtain ⟨j, v⟩ := e
    cases hpj : p j with
    | false => simpa [hpj] using ih
    | true =>
      have hj : j ≠ k := by rintro rfl; simp [hp] at hpj
      simp [sparseGet, hpj, hj, ih]

theorem exec_perstAssert {ns : Nat} {s : State} (hns : 100 < ns) (hp : s.phase ≠ .perst) :
    exec (.perstAssert ns) s = .next { s.domains .perst with kept := s.kept.atPerst } :=
  congrArg Host.Outcome.next (if_pos ⟨hns, hp⟩)

theorem exec_effectiveRelease {s : State} (hp : s.phase = .perst) (x : Straps) :
    exec (.effectiveRelease x) s = .next { s.domains .up with kept := { s.kept with straps := x } } :=
  congrArg Host.Outcome.next (if_pos hp)

theorem exec_railDrop {rail : Fin 8} {percent ns : Nat} {s : State} (hp : s.phase = .up) (hr : rail.val < 5)
    (hpc : percent < 90) (hns : 10000 < ns) :
    exec (.railDrop rail percent ns) s = .next { s.domains .railReset with sec := s.sec, regs := secRegs s.regs } :=
  congrArg Host.Outcome.next (if_pos ⟨hp, hr, hpc, hns⟩)

/-- Settles O23: each reset is what its command answers; a dropped rail spares the security block's registers. -/
theorem resetsClearAllButWhatTheyKeep : Obligations.ResetsClearAllButWhatTheyKeep := by
  intro ns percent rail x s
  refine ⟨fun hns hp => ⟨_, exec_perstAssert hns hp, ?_⟩,
    fun hp hr hpc hns => ⟨_, exec_railDrop hp hr hpc hns, ?_⟩, fun hp => ⟨_, exec_effectiveRelease hp x, ?_⟩, rfl⟩
  · exact ⟨rfl, fun _ => rfl, rfl, rfl, rfl, rfl, rfl, rfl, rfl, rfl, rfl, rfl, rfl, rfl, rfl⟩
  · refine ⟨rfl, fun f hf => ?_, fun f hlo hhi => ?_, rfl, rfl, rfl, rfl, rfl, rfl, rfl, rfl, rfl, rfl, rfl, rfl⟩
    · refine sparseGet_filter_of_drops _ (p := secKey) ?_ s.regs
      simp only [secKey, Bool.and_eq_false_iff, decide_eq_false_iff_not]
      omega
    · refine sparseGet_filter_of_keeps _ (p := secKey) ?_ s.regs
      simp only [secKey, Bool.and_eq_true, decide_eq_true_eq]
      omega
  · exact ⟨rfl, fun _ => rfl, rfl, rfl, rfl, rfl, rfl⟩

end Sys2Proof.Machine
end

section
/-!
PROOFS. How the doors are cabled (R306 to R308).
-/

namespace Sys2Proof.Machine

/-- A device number's tray and position fit their fields (R21). -/
theorem dev_lt (s : State) : s.dev < 64 := by
  have ht := s.kept.straps.trayId.isLt
  have hp := s.kept.straps.trayPos.isLt
  rw [State.dev]
  omega

theorem peerOf_rank (s : State) (k : Nat) :
    s.peerOf 15 k = ((s.dev / 16 + k + 1) % 4 * 16 + s.dev % 16, 15, 2 - k) := rfl

theorem peerOf_tray (s : State) {d : Nat} (k : Nat) (hd : d < 15) :
    s.peerOf d k = (s.dev / 16 * 16 + (d + if s.dev % 16 ≤ d then 1 else 0),
      doorTo (d + if s.dev % 16 ≤ d then 1 else 0) (s.dev % 16), 0) :=
  if_neg (by omega)

/-- The door d of a device leads past that device's own position (R306). -/
theorem peerOf_above (s : State) {d : Nat} (k : Nat) (hd : d < 15) (h : s.dev % 16 ≤ d) :
    s.peerOf d k = (s.dev / 16 * 16 + (d + 1), s.dev % 16, 0) := by
  rw [peerOf_tray s k hd, if_pos h, doorTo, if_neg (by omega)]
  rfl

theorem peerOf_below (s : State) {d : Nat} (k : Nat) (hd : d < 15) (h : d < s.dev % 16) :
    s.peerOf d k = (s.dev / 16 * 16 + d, s.dev % 16 - 1, 0) := by
  rw [peerOf_tray s k hd, if_neg (by omega), doorTo, Nat.add_zero, if_pos h]

/-- Three pairs of a door inside the tray are one link (R306). -/
theorem linkUsable_pair (s : State) (d k : Nat) : s.linkUsable d (if d = 15 then k else 0) = s.linkUsable d k := by
  by_cases hd : d = 15 <;> simp [State.linkUsable, hd]

/-- A cable inside a tray leads back to the door that it came from. -/
theorem peerOf_peerOf_tray {s u : State} {d k : Nat} (hd : d < 15) (hu : (s.peerOf d k).1 = u.dev) :
    u.peerOf (s.peerOf d k).2.1 (s.peerOf d k).2.2 = (s.dev, d, 0) := by
  obtain h | h := Nat.lt_or_ge d (s.dev % 16)
  · rw [peerOf_below s k hd h] at hu ⊢
    dsimp only at hu ⊢
    rw [peerOf_above u 0 (by omega) (by omega)]
    refine Prod.ext ?_ (Prod.ext ?_ rfl) <;> dsimp only <;> omega
  · rw [peerOf_above s k hd h] at hu ⊢
    dsimp only at hu ⊢
    rw [peerOf_below u 0 (by omega) (by omega)]
    refine Prod.ext ?_ (Prod.ext ?_ rfl) <;> dsimp only <;> omega

/-- A cable between trays leads back to the pair that it came from (R307). -/
theorem peerOf_peerOf_rank {s u : State} {k : Nat} (hk : k < 3) (hu : (s.peerOf 15 k).1 = u.dev) :
    u.peerOf 15 (2 - k) = (s.dev, 15, k) := by
  rw [peerOf_rank] at hu ⊢
  dsimp only at hu ⊢
  have := dev_lt s
  refine Prod.ext ?_ (Prod.ext rfl ?_)
  · dsimp only; omega
  · dsimp only; omega

/-- R308's table sends a packet for the far end of a link out on that link. -/
theorem direct_peerOf {s : State} {d k : Nat} (hd : d < 16) (hk : k < 3) :
    s.direct (s.peerOf d k).1 = (d, if d = 15 then k else 0) ∧ (s.peerOf d k).1 ≠ s.dev := by
  have hdev := dev_lt s
  obtain rfl | hd' : d = 15 ∨ d < 15 := by omega
  · rw [peerOf_rank]
    refine ⟨?_, by dsimp only; omega⟩
    rw [State.direct, if_neg (by dsimp only; omega), if_pos rfl]
    refine Prod.ext rfl ?_
    dsimp only; omega
  · rw [if_neg (by omega)]
    obtain h | h := Nat.lt_or_ge d (s.dev % 16)
    · rw [peerOf_below s k hd' h]
      refine ⟨?_, by dsimp only; omega⟩
      dsimp only
      rw [State.direct, if_pos (by omega), doorTo, if_neg (by omega)]
      refine Prod.ext ?_ rfl
      dsimp only; omega
    · rw [peerOf_above s k hd' h]
      refine ⟨?_, by dsimp only; omega⟩
      dsimp only
      rw [State.direct, if_pos (by omega), doorTo, if_pos (by omega)]
      refine Prod.ext ?_ rfl
      dsimp only; omega

/-- A packet for the far end of a link that is up leaves on it (R308). -/
theorem route_peerOf {s : State} {d k : Nat} (hd : d < 16) (hk : k < 3) (hl : s.linkUsable d k = true) :
    s.route (s.peerOf d k).1 = some (d, if d = 15 then k else 0) := by
  obtain ⟨hgo, hne⟩ := direct_peerOf (s := s) hd hk
  rw [State.route, if_neg hne, hgo, if_pos ((linkUsable_pair s d k).trans hl)]

/-- Settles O57: each link leads where R306 and R307 say, and back. -/
theorem doorsAreCabledInPairs : Obligations.DoorsAreCabledInPairs := by
  intro s u d k hd hk p q
  refine ⟨fun hd' => ⟨peerOf_tray s k hd', ?_⟩, peerOf_rank s k, fun hu => ?_, fun dst _ hdst hl => ?_⟩
  · rw [← linkUsable_pair s d k, if_neg (by omega)]
  · obtain rfl | hd' : d = 15 ∨ d < 15 := by omega
    · exact peerOf_peerOf_rank hk hu
    · rw [if_neg (by omega)]
      exact peerOf_peerOf_tray hd' hu
  · subst hdst
    refine ⟨d, if d = 15 then k else 0, route_peerOf hd hk hl, ?_⟩
    obtain rfl | hd' : d = 15 ∨ d < 15 := by omega
    · rfl
    · rw [peerOf_tray s _ hd', peerOf_tray s k hd']

end Sys2Proof.Machine
end

section
/-!
PROOFS. What a host write through the aperture leaves in memory (R454, R455).
-/

namespace Sys2Proof.Machine

/-! ### A translation leaves memory -/

@[simp] theorem cache_mem (s : State) (src job level vpn e : Nat) : (s.cache src job level vpn e).mem = s.mem := by
  unfold State.cache
  dsimp only
  split
  · rfl
  · rfl

/-- A walk that finds a page reads tables alone (R177, R181). -/
theorem walk_mem {s u : State} {src job va n table : Nat} {p : Nat × Nat} (h : s.walk src job va n table = .inl (u, p)) :
    u.mem = s.mem := by
  induction n generalizing s table with
  | zero => cases h
  | succ n ih =>
    unfold State.walk at h
    extract_lets vpn at_ hit s1 e s2 at h
    have hs1 : s1.mem = s.mem := by
      simp only [s1]
      split
      · rfl
      · split
        · exact unitRead_mem _ _ _ _ _
        · rfl
    have hs2 : s2.mem = s.mem := by
      simp only [s2]
      split
      · exact hs1
      · exact (cache_mem _ _ _ _ _ _).trans hs1
    split at h
    · cases h
    split at h
    · cases h
    split at h
    · cases h
    split at h
    · exact (congrArg (fun x => x.1.mem) (Sum.inl.inj h)).symm.trans hs2
    · exact (ih h).trans hs2

theorem pageOf_mem {s u : State} {src job va : Nat} {p : Nat × Nat} (h : s.pageOf src job va = .inl (u, p)) :
    u.mem = s.mem := by
  unfold State.pageOf at h
  dsimp only at h
  split at h
  · cases h; rfl
  · split at h
    · cases h
    · exact (walk_mem h :)

/-- A translation that gives an address leaves memory. -/
theorem xlat_mem {s u : State} {src job va pa : Nat} {rd wr kill snap : Bool}
    (h : s.xlat src job va rd wr = (u, .ok pa kill snap)) : u.mem = s.mem := by
  unfold State.xlat at h
  split at h
  · cases h; rfl
  split at h
  · cases h
  split at h
  · cases h
  next t e l hpage =>
  dsimp only at h
  split at h
  · cases h
  split at h
  · cases h
  split at h
  · cases h
  · cases h
    exact pageOf_mem hpage

/-! ### A write inside one sector -/

/-- Bytes inside one sector are one chunk. -/
theorem sectorsOf_inside {va n : Nat} (hn : n ≠ 0) (h : va % 64 + n ≤ 64) : sectorsOf va n = [(va, n)] := by
  have hone : (va + n - 1) / 64 - va / 64 + 1 = 1 := by omega
  rw [sectorsOf, if_neg hn, hone]
  simp only [List.range_one, List.map_cons, List.map_nil, Nat.add_zero]
  rw [Nat.max_eq_left (by omega), Nat.min_eq_left (by omega), Nat.add_sub_cancel_left]

/-- All bytes of a list are the list. -/
theorem slice_all (l : Bytes) : slice 0 l.length l = l := by
  refine List.ext_getElem (by simp [slice]) fun i hi hi' => ?_
  simp [slice, List.getElem?_eq_getElem hi']

/-- A write without poison leaves its bytes, in main memory as in a core store. -/
theorem unitWrite_mem (s : State) (r : MemReq) (hp : r.poison = false) : (s.unitWrite r).mem = (s.setBytes r.pa r.data).mem := by
  have happly : ∀ r : MemReq, r.poison = false → (s.applyReq r).mem = (s.setBytes r.pa r.data).mem := by
    intro r hr
    rw [State.applyReq, if_neg (by simp [hr])]
    exact foldl_mem _ (fun s _ => clearPoison_mem s _ _) _ _
  unfold State.unitWrite
  split
  · exact happly { r with owner := .unit } hp
  · rw [State.performReq, if_neg (by simp [hp])]
    exact happly r hp

/-- A chunk that a unit writes leaves memory as it was, or leaves its bytes there: where no snapshot holds it and the FE state
does not drop it (R184, R185, R428). -/
theorem writeChunk_mem (s : State) (src job va : Nat) {pa : Nat} (data : Bytes) (snap : Bool) (hh : inHost pa = false) :
    let t := s.writeChunk src job va pa data false snap
    (t.mem = s.mem ∨ t.mem = (s.setBytes pa (data.map some)).mem) ∧
      (snap = false → s.fe = false → t.mem = (s.setBytes pa (data.map some)).mem) := by
  intro t
  simp only [t, State.writeChunk, hh]
  split
  next b hb =>
    refine ⟨.inl rfl, fun hs => ?_⟩
    simp [hs] at hb
  next =>
    rw [if_neg (by simp)]
    split
    next hfe => exact ⟨.inl rfl, fun _ hf => absurd hfe.2 (by simp [hf])⟩
    next =>
      have hw := unitWrite_mem s ⟨queueOfSrc src, src, job, pa, true, data.map some, false, .unit, false, [], false, []⟩ rfl
      exact ⟨.inr hw, fun _ _ => hw⟩

theorem byte_of_mem {s t : State} (h : t.mem = s.mem) (a : Nat) : t.byte a = s.byte a :=
  congrArg (sparseGet 0 a) h

/-- A write through the aperture inside one sector is one chunk at its page. -/
theorem bar4Write_inside {s u : State} {off pa : Nat} {data : Bytes} {kill snap : Bool} (ha : s.apertureOn = true)
    (hl : off + data.length ≤ 2 ^ 32) (hd : data ≠ []) (hs : s.apertureVa off % 64 + data.length ≤ 64)
    (hx : s.xlat 0x401 (s.get Reg.GEN.BAR4_JOB) (s.apertureVa off) false true = (u, .ok pa kill snap)) :
    s.bar4Write off data =
      u.writeChunk 0x401 (s.get Reg.GEN.BAR4_JOB) (s.apertureVa off) pa data false snap := by
  have hw : s.writeVa 0x401 (s.get Reg.GEN.BAR4_JOB) (s.apertureVa off) data false =
      (u.writeChunk 0x401 (s.get Reg.GEN.BAR4_JOB) (s.apertureVa off) pa data false snap, .done) := by
    rw [State.writeVa, sectorsOf_inside (by simpa using hd) hs, List.map_cons, List.map_nil, Nat.sub_self, slice_all]
    simp [State.writeChunks, hx]
  rw [bar4Write_on hl ha, hw]

/-- Settles O58: the one chunk leaves its bytes at the translated address, or memory as it was. -/
theorem storesTouchOnlyTheirBytes : Obligations.StoresTouchOnlyTheirBytes := by
  intro o data s u pa kill snap va job hu hd ha hl hne hs _ hx hh
  refine ⟨_, (exec_bar4Write o data s).trans (whenBar_open hu (.inl hd) _), ?_⟩
  rw [bar4Write_inside ha hl hne hs hx]
  have hxm := xlat_mem hx
  obtain ⟨hor, hstored⟩ := writeChunk_mem u 0x401 job va data snap hh
  refine ⟨fun a hout => ?_, fun hsnap hfe i hi => ?_⟩
  · obtain h | h := hor
    · exact byte_of_mem (h.trans hxm) a
    · exact (byte_of_mem h a).trans ((byte_setBytes_ne u pa a _ (by simpa using hout)).trans (byte_of_mem hxm a))
  · refine (byte_of_mem (hstored hsnap hfe) (pa + i)).trans ?_
    rw [byte_setBytes u pa i (data.map some) (by simpa using hi)]
    simp

end Sys2Proof.Machine
end

section
/-!
PROOFS. What the detections of chapter 15 do.
-/

namespace Sys2Proof.Machine

/-- A command that works out of reset, by its work. -/
theorem exec_live {c : Instr} {s t : State} {f : State → State} (hu : s.phase = .up) (hc : exec c s = whenLive s f)
    (hf : f s = t) : exec c s = .next (t.keeping s) := by
  rw [hc, whenLive_up hu, hf]

/-! ### Verdicts and epochs (R316, R317, R399, R416) -/

theorem failVerdict_core {s : State} {i : Nat} {x : Check} (hx : s.checks[i]? = some x) (hu : x.unit ≠ 0x0B) (v : Verdict) :
    s.failVerdict i v = s.coreVerdict x v := by
  simp only [State.failVerdict, hx, if_neg hu]

theorem failVerdict_agate {s : State} {i : Nat} {x : Check} (hx : s.checks[i]? = some x) (hu : x.unit = 0x0B) (v : Verdict) :
    s.failVerdict i v = s.agateVerdict x := by
  simp only [State.failVerdict, hx, if_pos hu]

/-- Out of the FE state the oldest open epoch closes (R316, R317). -/
theorem closeEpoch_closes {s : State} (hf : s.fe = false) :
    let t := (((s.passTo ((s.doors.nextClose + 1) * 1024 + 2048)).sendAll 7 (doorSrc 0) 0 (s.doors.nextClose % 2 ^ 32) []).put
      (Reg.DOOR.CLOSED_EPOCH 0) s.doors.nextClose)
    s.closeEpoch = { t with
      doors := { t.doors with nextClose := s.doors.nextClose + 1 }
      checks := t.checks.filter fun x => decide (s.doors.nextClose < x.epoch) } :=
  if_neg (by simp [hf])

/-- A unit under observation leaves it after 24 hours without an event (R419). -/
theorem obsExpire_observed {s : State} {k : Nat}
    (ho : s.observed (obsUnit k).1 (obsUnit k).2.1 (obsUnit k).2.2 = true) :
    s.obsExpire k = (s.passTo (((s.host.obsEvents.filter fun e => e.1 == (obsUnit k).1 && e.2.1 == (obsUnit k).2.1 &&
      e.2.2.1 == (obsUnit k).2.2).map fun e => e.2.2.2).foldl max 0 + 86400000000000)).setObserved (obsUnit k).1 (obsUnit k).2.1
        (obsUnit k).2.2 false :=
  if_neg (by simp [ho])

/-! ### Parity in caches and buffers (R401) -/

theorem dropCached_found {s : State} {src i : Nat} {x : XEnt}
    (hx : (s.slices.filter fun x => x.src % 65536 == src)[i]? = some x) :
    s.dropCached src i = ({ s with slices := s.slices.erase x } : State).ce src 0x0E 0x32 0 := by
  simp only [State.dropCached, hx]

/-- The sources of cores lie below those of every other unit (R20). -/
theorem lt_of_present {s : State} {n : Nat} (h : s.present n = true) : n < 8 := by
  simp only [State.present, Bool.or_eq_true, Bool.and_eq_true, decide_eq_true_eq, beq_iff_eq] at h
  omega

theorem poisonBuffer_mover {s : State} {src : Nat} (hlo : 0x500 ≤ src) (hhi : src < 0x50A) (l : List Nat) :
    s.poisonBuffer src l = s.poisonStaged (src - 0x500) l :=
  if_pos ⟨hlo, hhi⟩

theorem poisonBuffer_core {s : State} {src : Nat} (hp : s.present src = true) (l : List Nat) :
    s.poisonBuffer src l = s.coreParity src l := by
  have := lt_of_present hp
  rw [State.poisonBuffer, if_neg (by omega), if_pos hp]

theorem poisonBuffer_door {s : State} {src : Nat} (hlo : 0x200 ≤ src) (hhi : src < 0x210) (l : List Nat) :
    s.poisonBuffer src l = (((s.doors.ledger.filter fun e => e.door == src - 0x200).flatMap Ledger.sectors).filter fun pa =>
      l.contains (pa / 64)).foldl State.markSector s := by
  rw [State.poisonBuffer, if_neg (by omega), if_neg fun hp => absurd (lt_of_present hp) (by omega), if_pos ⟨hlo, hhi⟩]

theorem poisonBuffer_expert (s : State) (l : List Nat) :
    s.poisonBuffer expSrc l = (l.filter fun k => s.inMain (64 * k) || (s.storeOf (64 * k)).isSome).foldl
      (fun t k => t.markSector (64 * k)) s := by
  rw [State.poisonBuffer, if_neg (by decide), if_neg fun hp => absurd (lt_of_present hp) (by decide), if_neg (by decide),
    if_pos rfl]

/-! ### The hourly check (R425) -/

/-- The hourly check has been made, at the time at which it was due. -/
def State.romChecked (s : State) : State :=
  let t := s.passTo (s.host.romCheckedAt + 3600000000000)
  { t with host := { t.host with romCheckedAt := t.now } }

/-- The hour, written out, so that no check of two states unfolds it under a projection. -/
theorem hourNs_eq : hourNs = 3600000000000 := rfl

/-! ### The commands -/

section
variable {s : State} (hu : s.phase = .up)
include hu

theorem exec_residueVerdictFail (i : Nat) (parity : Bool) (path : BitVec 4) (lane : BitVec 8) (tile : Fin 8)
    (e o : BitVec 3) (va last : BitVec 57) : exec (.residueVerdictFail i parity path lane tile e o va last) s =
      .next ((s.failVerdict i ⟨parity, path.toNat, lane.toNat, tile.val, e.toNat, o.toNat, va.toNat, last.toNat⟩).keeping s) :=
  whenLive_up hu fun s =>
    s.failVerdict i ⟨parity, path.toNat, lane.toNat, tile.val, e.toNat, o.toNat, va.toNat, last.toNat⟩

theorem exec_csUncorr {c : CoreIx} (hp : s.present c.val = true) (off : BitVec 26) : exec (.csUncorr c off) s =
    .next ((((s.setPoison (csBase + c.val * csSize + off.toNat)).inc Reg.ERR.CS_UNCORR 1).ce c.val 6 0x23 0).keeping s) := by
  refine exec_live hu rfl ?_
  exact if_pos hp

theorem exec_csCorr {c : CoreIx} (hp : s.present c.val = true) (off : BitVec 26) : exec (.csCorr c off) s =
    .next (((s.inc Reg.ERR.CS_CORR 1).ce c.val 6 0x22 0).keeping s) := by
  refine exec_live hu rfl ?_
  exact if_pos hp

theorem exec_scrubPass {c : CoreIx} (hp : s.present c.val = true) :
    exec (.scrubPass c) s = .next (s.inc Reg.ERR.SCRUB_PASSES 1) := by
  change execScrubPass c s = _
  rw [execScrubPass, whenLive_up hu, if_pos hp]
  rfl

theorem exec_poisonConsumption {src : BitVec 16} (hs : s.isSource src.toNat = true) (job : BitVec 6) (unit : BitVec 8)
    (va : BitVec 57) : exec (.poisonConsumption job src unit va) s =
      .next (((s.addRec (mkRec src.toNat unit.toNat 1 job.toNat cPOISON va.toNat)).killJob job.toNat src.toNat cPOISON
        false).keeping s) := by
  change execPoisonConsumption job src unit va s = _
  rw [execPoisonConsumption, whenLive_up hu, if_pos hs, State.unitConsume, State.consume, Nat.mod_eq_of_lt va.isLt]

theorem exec_feState {src : BitVec 16} (hs : s.isSource src.toNat = true) {code : BitVec 8}
    (hc : feCodes.contains code.toNat = true) (unit : BitVec 8) (synd : BitVec 128) : exec (.feState src unit code synd) s =
      .next (((s.addRec (mkRec src.toNat unit.toNat 2 0 code.toNat synd.toNat)).takeFE src.toNat code.toNat).keeping s) := by
  change execFeState src unit code synd s = _
  rw [execFeState, whenLive_up hu, if_pos ⟨hs, hc⟩, State.raiseFE]

theorem exec_epochClose : exec .epochClose s = .next (s.closeEpoch.keeping s) :=
  whenLive_up hu State.closeEpoch

theorem exec_xlatParity (src : BitVec 16) (i : Nat) : exec (.xlatParity src i) s = .next ((s.dropCached src.toNat i).keeping s) :=
  whenLive_up hu fun s => s.dropCached src.toNat i

theorem exec_bufferParity (src : BitVec 16) (l : List Nat) :
    exec (.bufferParity src l) s = .next ((s.poisonBuffer src.toNat l).keeping s) :=
  whenLive_up hu fun s => s.poisonBuffer src.toNat l

theorem exec_sillMemoryEcc (k : SillCheck) : exec (.sillMemoryEcc k) s = .next ((s.sillCheck k).keeping s) :=
  whenLive_up hu fun s => s.sillCheck k

theorem exec_heartbeat : exec .heartbeat s =
    .next (({ s with host := { s.host with heartbeatAt := s.now } } : State).inc Reg.FW.HEARTBEAT 1) :=
  whenLive_up hu fun s => ({ s with host := { s.host with heartbeatAt := s.now } } : State).inc Reg.FW.HEARTBEAT 1

theorem exec_heartbeatTimeout (hr : s.get Reg.SEC.READY = 1) : exec .heartbeatTimeout s =
    .next (((s.passTo (s.host.heartbeatAt + 10000000)).sillFails 0x406 0x13).keeping s) := by
  refine exec_live hu rfl ?_
  exact if_pos hr

theorem exec_romCheck (ok : Bool) : exec (.romCheck ok) s =
    .next ((if ok then s.romChecked else s.romChecked.raiseFE 0x406 0x13 0x30 0).keeping s) := by
  change execRomCheck ok s = _
  rw [execRomCheck, whenLive_up hu, hourNs_eq]
  rfl

theorem exec_observationExpiry (k : Nat) : exec (.observationExpiry k) s = .next ((s.obsExpire k).keeping s) :=
  whenLive_up hu fun s => s.obsExpire k

end

/-- Settles O29: each detection's command is its effect out of reset, by the case of the unit that it strikes. -/
theorem detectionsAct : Obligations.DetectionsAct := by
  intro c off src unit code job va last synd s hu
  refine ⟨fun i x parity path lane tile e o hx => ⟨fun hn => ?_, fun ha => ?_⟩,
    fun hp => ⟨exec_csUncorr hu hp off, exec_csCorr hu hp off, exec_scrubPass hu hp⟩,
    fun hs => ⟨exec_poisonConsumption hu hs job unit va, fun hc => exec_feState hu hs hc unit synd⟩,
    fun hf => (exec_epochClose hu).trans (next_keeping (closeEpoch_closes hf)),
    fun i x hx => (exec_xlatParity hu src i).trans (next_keeping (dropCached_found hx)),
    fun l => ⟨fun hlo hhi => (exec_bufferParity hu src l).trans (next_keeping (poisonBuffer_mover hlo hhi l)),
      fun hlo hhi => (exec_bufferParity hu src l).trans (next_keeping (poisonBuffer_door hlo hhi l)),
      fun hp => (exec_bufferParity hu src l).trans (next_keeping (poisonBuffer_core hp l)), fun hx => ?_⟩,
    ⟨fun k hk => ?_, exec_sillMemoryEcc hu .rewrite, fun k hk => ?_, exec_heartbeatTimeout hu⟩,
    exec_heartbeat hu, exec_romCheck hu,
    fun k ho => (exec_observationExpiry hu k).trans (next_keeping (obsExpire_observed ho))⟩
  · exact (exec_residueVerdictFail hu ..).trans (next_keeping (failVerdict_core hx hn _))
  · exact (exec_residueVerdictFail hu ..).trans (next_keeping (failVerdict_agate hx ha _))
  · subst hx
    exact (exec_bufferParity hu _ l).trans (next_keeping (poisonBuffer_expert s l))
  · obtain rfl | rfl := hk
    · exact exec_sillMemoryEcc hu .corrected
    · exact exec_sillMemoryEcc hu .rerun
  · obtain rfl | rfl | rfl := hk
    · exact exec_sillMemoryEcc hu .uncorrectable
    · exact exec_sillMemoryEcc hu .rewriteFails
    · exact exec_sillMemoryEcc hu .signature

end Sys2Proof.Machine
end

section
/-!
PROOFS. The start and the end of tests, and the end of a calibration (R329, R423, R499, R500).
-/

namespace Sys2Proof.Machine

theorem startTest_starts {s : State} {i : Nat} {x : TestSt} (hx : s.host.tests[i]? = some x) (hr : x.running = false)
    (ht : s.testReady x = true) (hb : ((s.host.tests.take i).any fun y => x.behind y) = false)
    (ha : ((s.host.tests.drop (i + 1)).any fun y => y.running && x.behind y) = false) :
    s.startTest i = (s.testEvent x 5).runTest (s.host.tests.take i) x (s.host.tests.drop (i + 1)) := by
  simp only [State.startTest, hx]
  rw [if_neg (by simp [hr, ht, hb, ha])]

/-- The list of tests without the one at a place. -/
def State.withoutTest (s : State) (i : Nat) : State :=
  { s with host := { s.host with tests := s.host.tests.eraseIdx i } }

section
variable {s : State} {i : Nat} {x : TestSt} (hx : s.host.tests[i]? = some x) (hr : x.running = true)
  (hw : s.fenceWaits x = false)
include hx hr hw

/-- A running test that has begun ends by its kind (R423, R500). -/
theorem finishTest_running (h5 : x.kind ≠ 5) (pass : Bool) (failing : Nat) : s.finishTest i pass failing =
    if x.kind = 1 then (s.withoutTest i).tileTestEnd x pass
    else if x.kind = 2 then (s.withoutTest i).coreTestEnd x pass failing
    else (s.withoutTest i).sledTestEnd x pass failing := by
  simp only [State.finishTest, hx]
  rw [if_neg (by simp [hr, hw, h5])]
  rfl

theorem finishTest_tile (hk : x.kind = 1) (hg : s.tileGone x = false) (pass : Bool) (failing : Nat) :
    s.finishTest i pass failing =
      if pass then ((s.withoutTest i).fenceWrite x.core .unfence (2 ^ x.tile)).endTest x stSUCCESS 0
      else ((s.withoutTest i).tileFails x.core x.tile).endTest x stTESTFAIL 0 := by
  have hg' : (s.withoutTest i).tileGone x = false := hg
  rw [finishTest_running hx hr hw (by omega), if_pos hk, State.tileTestEnd, if_neg (by simp [hg'])]

theorem finishTest_core (hk : x.kind = 2) (pass : Bool) (failing : Nat) :
    s.finishTest i pass failing = (s.withoutTest i).coreTestEnd x pass failing := by
  rw [finishTest_running hx hr hw (by omega), if_neg (by omega), if_pos hk]

theorem finishTest_sled (hk : x.kind = 3 ∨ x.kind = 4) (pass : Bool) (failing : Nat) :
    s.finishTest i pass failing = (s.withoutTest i).sledTestEnd x pass failing := by
  rw [finishTest_running hx hr hw (by omega), if_neg (by omega), if_neg (by omega)]

end

/-! ### The commands -/

section
variable {s : State} (hu : s.phase = .up)
include hu

theorem exec_periodicTileTest_due {c : CoreIx} {t : Fin 8} (hp : s.present c.val = true) (ht : s.tileState c.val t.val < 2)
    (hr : (s.core c.val).retired = false) (hd : s.testDue c.val t.val = true) : exec (.periodicTileTest c t) s =
      .next ((({ s with host := { s.host with tileTests := assocPut (8 * c.val + t.val) s.now s.host.tileTests } } :
        State).askTest ⟨none, 1, c.val, t.val, 0, false⟩).keeping s) := by
  change execPeriodicTileTest c t s = _
  rw [execPeriodicTileTest, whenLive_up hu, if_pos ⟨hp, ht, by simp [hr], hd⟩]

theorem exec_periodicTileTest_early {c : CoreIx} {t : Fin 8} (hd : s.testDue c.val t.val = false) :
    exec (.periodicTileTest c t) s = .next s := by
  change execPeriodicTileTest c t s = _
  rw [execPeriodicTileTest, whenLive_up hu, if_neg (by simp [hd]), State.keeping_self]

theorem exec_testStart (i : Nat) : exec (.testStart i) s = .next ((s.startTest i).keeping s) :=
  whenLive_up hu fun s => s.startTest i

theorem exec_testDone (i : Nat) (pass : Bool) (failing : BitVec 40) :
    exec (.testDone i pass failing) s = .next ((s.finishTest i pass failing.toNat).keeping s) :=
  whenLive_up hu fun s => s.finishTest i pass failing.toNat

theorem exec_calibrationDone {k : CaseIx} (hk : s.get (Reg.CASE.CAL_STATE k.val) = 1) : exec (.calibrationDone k) s =
    .next ((((s.put (Reg.CASE.CAL_STATE k.val) 0).inc (Reg.CASE.CAL_CNT k.val) 1).calPart k.val).keeping s) := by
  change execCalibrationDone k s = _
  rw [execCalibrationDone, whenLive_up hu, if_pos hk]

end

/-- Settles O31: each command is its operation, and a test that ends does so by its kind. -/
theorem testsRun : Obligations.TestsRun := by
  intro c k t i x failing s hu
  refine ⟨exec_periodicTileTest_due hu, exec_periodicTileTest_early hu, fun hx hr ht hb ha => ?_,
    fun hx hr hw => ⟨fun hk hg => ⟨?_, ?_⟩, fun hk => ⟨?_, ?_⟩, fun hk => ⟨?_, ?_⟩⟩, exec_calibrationDone hu⟩
  · exact (exec_testStart hu i).trans (next_keeping (startTest_starts hx hr ht hb ha))
  · exact (exec_testDone hu i true failing).trans (next_keeping (finishTest_tile hx hr hw hk hg true _))
  · exact (exec_testDone hu i false failing).trans (next_keeping (finishTest_tile hx hr hw hk hg false _))
  · exact (exec_testDone hu i true failing).trans (next_keeping (finishTest_core hx hr hw hk true _))
  · exact (exec_testDone hu i false failing).trans (next_keeping (finishTest_core hx hr hw hk false _))
  · exact (exec_testDone hu i true failing).trans (next_keeping (finishTest_sled hx hr hw hk true _))
  · exact (exec_testDone hu i false failing).trans (next_keeping (finishTest_sled hx hr hw hk false _))

end Sys2Proof.Machine
end

section
/-!
PROOFS. How a part of a command of Sill firmware ends, and what the SILL packets do (R325, R326, R472, R505).
-/

namespace Sys2Proof.Machine

/-! ### How a part ends (R326, R472, R505) -/

theorem finish_member {s : State} (hm : s.isMember = true) (r : Req) (st r0 r1 : Nat) : s.finish r st r0 r1 =
    s.sendPkt 9 (s.hdr 0x400 s.lead r.job.toNat (2 + 16 * r.ring.toNat) 1)
      (completionBytes r.cmdId.toNat st 0 r.ring.toNat s.dev r0 r1 false ++ bytesOf 32 0) :=
  if_pos hm

theorem finish_alone {s : State} (hm : s.isMember = false) {r : Req}
    (hx : ∀ x ∈ s.host.relayed, x.of r.ring.toNat r.cmdId.toNat = false) (st r0 r1 : Nat) :
    s.finish r st r0 r1 = s.pushDue r st r0 r1 s.dev := by
  have hnone : s.host.relayed.any (fun x => x.of r.ring.toNat r.cmdId.toNat && x.waiting.contains s.dev) = false := by
    rw [List.any_eq_false]
    intro x hmem
    simp [hx x hmem]
  rw [State.finish, if_neg (by simp [hm]), if_neg (by rw [hnone]; exact Bool.false_ne_true)]

theorem endForming_none {s : State} (hf : s.host.forming = none) (r : Req) (ok : Bool) : s.endForming r ok = s := by
  simp only [State.endForming, hf]

/-- The last part of a command of several devices, none of which has failed, makes its completion due (R472). -/
theorem closeRelay_success {s : State} {x : Relay} (hf : s.host.forming = none) (hw : x.whole = true) (hs : x.status = 0) :
    s.closeRelay x = s.pushDue x.r 0 x.result0 x.result1 s.dev := by
  simp only [State.closeRelay, hs, endForming_none hf, State.cancelFor, hw, if_true]
  simp

theorem finish_lastPart {s : State} {r : Req} {x : Relay} (hm : s.isMember = false) (hr : s.host.relayed = [x])
    (ho : x.of r.ring.toNat r.cmdId.toNat = true) (hwait : x.waiting = [s.dev]) (hw : x.whole = true) (hs : x.status = 0)
    (hf : s.host.forming = none) (r0 r1 : Nat) : s.finish r 0 r0 r1 =
      ({ s with host := { s.host with relayed := [] } } : State).pushDue x.r 0 (x.result0 ||| r0) (x.result1 ||| r1) s.dev := by
  have hfound : (x.of r.ring.toNat r.cmdId.toNat && x.waiting.contains s.dev) = true := by simp [ho, hwait]
  have hpart : x.part s.dev 0 r0 r1 =
      { x with waiting := [], result0 := x.result0 ||| r0, result1 := x.result1 ||| r1 } := by
    simp [Relay.part, hwait, setErase]
  rw [State.finish, if_neg (by simp [hm]), if_pos (by simp [hr, ho, hwait]), State.partDone, hr, List.find?_cons, hfound]
  simp only [hw, if_true, hpart, List.isEmpty_nil, List.filter_cons, ho, Bool.not_true, Bool.false_eq_true, if_false,
    List.filter_nil]
  exact closeRelay_success hf rfl hs

/-! ### The packets of SILL (R325, R326, R505) -/

section
variable {d : DoorIx} {h : Hdr} {p : Bytes} {s : State} (ht : s.takes d.val 9 h p)
include ht

theorem exec_command (hk : h.addr.toNat % 16 = 1) :
    exec (.command d h p) s = .next (((s.countRx d.val h p).gotCommand h p).keeping s) :=
  packet_of_takes ht (ok := kind4 1) (beq_iff_eq.mpr hk) fun s => s.gotCommand h p

theorem exec_completion (hk : h.addr.toNat % 16 = 2) :
    exec (.completion d h p) s = .next (((s.countRx d.val h p).gotCompletion h p).keeping s) :=
  packet_of_takes ht (ok := kind4 2) (beq_iff_eq.mpr hk) fun s => s.gotCompletion h p

theorem exec_record (hk : h.addr.toNat % 16 = 3) :
    exec (.record d h p) s = .next (((s.countRx d.val h p).gotRecord p).keeping s) :=
  packet_of_takes ht (ok := kind4 3) (beq_iff_eq.mpr hk) fun s => s.gotRecord p

theorem exec_kill (hk : h.addr.toNat % 16 = 4) :
    exec (.kill d h p) s = .next (((s.countRx d.val h p).gotKill (field p 0 1 % 64) (field p 1 1)).keeping s) :=
  packet_of_takes ht (ok := kind4 4) (beq_iff_eq.mpr hk) fun s => s.gotKill (field p 0 1 % 64) (field p 1 1)

theorem exec_hostEdge (hk : h.addr.toNat % 16 = 5) :
    exec (.hostEdge d h p) s = .next (((s.countRx d.val h p).gotEdge (h.src.toNat / 65536 % 64)).keeping s) :=
  packet_of_takes ht (ok := kind4 5) (beq_iff_eq.mpr hk) fun s => s.gotEdge (originOf h % 64)

theorem exec_event (hk : h.addr.toNat % 16 = 6) :
    exec (.event d h p) s = .next (((s.countRx d.val h p).gotEvent p).keeping s) :=
  packet_of_takes ht (ok := kind4 6) (beq_iff_eq.mpr hk) fun s => s.gotEvent p

end

/-- Sill firmware that has failed takes no command (R428). -/
theorem gotCommand_down {u : State} (hd : u.host.sillDown = true) (h : Hdr) (p : Bytes) : u.gotCommand h p = u :=
  if_pos hd

/-- A member performs its part of a command of its lead (R325, R326). -/
theorem gotCommand_part {u : State} {h : Hdr} {p : Bytes} (hd : u.host.sillDown = false)
    (hform : field (slice 0 64 p) 0 2 ≠ 0x100) (hm : u.isMember = true) (hl : h.src.toNat / 65536 = u.lead) {feOk : Bool}
    {part : State → State × Answer}
    (hp : partOf (field (slice 0 64 p) 0 2) (u.reqOf h (slice 0 64 p)) (slice 0 64 p) = some (feOk, part)) :
    u.gotCommand h p = u.ownPart (u.reqOf h (slice 0 64 p)) feOk part := by
  unfold State.gotCommand
  dsimp only
  rw [if_neg (by simp [hd]), if_neg hform, if_neg (by simp [hm, originOf, hl]), hp]

theorem gotCommand_unknown {u : State} {h : Hdr} {p : Bytes} (hd : u.host.sillDown = false)
    (hform : field (slice 0 64 p) 0 2 ≠ 0x100) (hm : u.isMember = true) (hl : h.src.toNat / 65536 = u.lead)
    (hp : partOf (field (slice 0 64 p) 0 2) (u.reqOf h (slice 0 64 p)) (slice 0 64 p) = none) :
    u.gotCommand h p = u.finish (u.reqOf h (slice 0 64 p)) stUNKNOWN 0 0 := by
  unfold State.gotCommand
  dsimp only
  rw [if_neg (by simp [hd]), if_neg hform, if_neg (by simp [hm, originOf, hl]), hp]

section
variable {u : State} (hd : u.host.sillDown = false) (r : Req) (part : State → State × Answer)
include hd

theorem ownPart_fe (hf : u.fe = true) : u.ownPart r false part = u.finish r stFESTATE 0 0 := by
  rw [State.ownPart, if_neg (by simp [hd]), if_pos (by simp [hf])]

/-- A part that is allowed ends with what it answers. -/
theorem ownPart_allowed {feOk : Bool} (hf : u.fe = true → feOk = true) :
    u.ownPart r feOk part = State.answered r (part u) := by
  rw [State.ownPart, if_neg (by simp [hd]), if_neg (by simpa using hf)]
  rcases part u with ⟨t, _ | ⟨st, r0, r1⟩⟩ <;> rfl

end

theorem gotKill_halts {u : State} {job : Nat} (hj : job ≠ 0) (hk : u.host.killed.contains job = false) (code : Nat) :
    let t := ({ u with host := { u.host with killed := setInsert job u.host.killed } } : State).stopJob job
    u.gotKill job code = if t.isMember then t else t.sendAll 9 0x400 job 4 (killBytes job code t.now) :=
  if_neg (by rw [hk]; simp [hj])

section
variable {u : State} (hm : u.isMember = false)
include hm

theorem gotCompletion_lead (h : Hdr) (p : Bytes) : u.gotCompletion h p =
    u.partDone (bitsOf h.addr.toNat 19 4) (field p 0 4) (h.src.toNat / 65536) (field p 4 2) (field p 16 8) (field p 24 4) :=
  if_neg (by simp [hm])

theorem gotRecord_lead (p : Bytes) :
    let b := sealRec (slice 0 60 (putAt 15 1 (field p 15 1 ||| 4) (slice 0 64 p)))
    let t := u.enterLog (field p 13 1 / 64) 0x400 b
    u.gotRecord p = if field p 13 1 / 64 = 2 then t.keepFE (field p 0 8) (field p 8 4 % 2 ^ 22) b else t :=
  if_neg (by simp [hm])

theorem gotEdge_lead (dev : Nat) :
    let t := u.put Reg.GEN.MEMBER_EDGE (u.get Reg.GEN.MEMBER_EDGE ||| 2 ^ dev)
    u.gotEdge dev = if t.get Reg.GEN.MEMBER_VEC_EN = 1 then t.sendVec (t.get Reg.GEN.MEMBER_VEC_VEC) else t :=
  if_neg (by simp [hm])

theorem gotEvent_lead (p : Bytes) : u.gotEvent p =
    u.writeEvent (field p 4 1) (field p 5 1) (field p 6 1) (field p 7 1) (field p 8 8) (field p 16 8) (field p 24 4) :=
  if_neg (by simp [hm])

end

/-- Taking a packet from its link leaves the port and Sill firmware. -/
theorem countRx_host (s : State) (d : Nat) (h : Hdr) (p : Bytes) : (s.countRx d h p).host = s.host := rfl

/-- Settles O33: each packet is its operation, in the state in which it has been taken from its link. -/
theorem sillPacketsAct : Obligations.SillPacketsAct := by
  intro d h p s ht
  refine ⟨?_, fun hk hm => (exec_completion ht hk).trans (next_keeping (gotCompletion_lead hm h p)),
    fun hk hm => (exec_record ht hk).trans (next_keeping (gotRecord_lead hm p)), fun hk hj hkilled => ?_,
    fun hk hm => (exec_hostEdge ht hk).trans (next_keeping (gotEdge_lead hm _)),
    fun hk hm => (exec_event ht hk).trans (next_keeping (gotEvent_lead hm p))⟩
  case refine_2 =>
    rw [← countRx_host s d.val h p] at hkilled
    exact (exec_kill ht hk).trans (next_keeping (gotKill_halts hj hkilled _))
  intro feOk part t u e r hk hform hm hl
  refine ⟨fun hp => ⟨fun hd => ?_, fun hd hf hq => ?_, fun hd hf => ?_⟩, fun hd hp => ?_⟩
  · exact (exec_command ht hk).trans (next_keeping (gotCommand_down hd h p))
  · subst hq
    exact (exec_command ht hk).trans (next_keeping ((gotCommand_part hd hform hm hl hp).trans (ownPart_fe hd r part hf)))
  · have hpart : exec (.command d h p) s = .next ((State.answered r (part u)).keeping s) :=
      (exec_command ht hk).trans (next_keeping ((gotCommand_part hd hform hm hl hp).trans (ownPart_allowed hd r part hf)))
    exact ⟨fun st a b hans => by rw [hpart, hans]; rfl, fun hans => by rw [hpart, hans]; rfl⟩
  · exact (exec_command ht hk).trans (next_keeping (gotCommand_unknown hd hform hm hl hp))

/-- Settles O44: each of the three ends of a part. -/
theorem partsEndInOneCompletion : Obligations.PartsEndInOneCompletion := by
  intro r st r0 r1 s
  refine ⟨fun hm => finish_member hm r st r0 r1, fun hm hx => ?_, fun x hm hr ho hwait hw hs hst hf => ?_⟩
  · rw [finish_alone hm hx]
    rfl
  · subst hst
    rw [finish_lastPart hm hr ho hwait hw hs hf]
    exact ⟨rfl, rfl⟩

end Sys2Proof.Machine
end

section
/-!
PROOFS. The expert router's own commands and packets (R333 to R335, R338, R342, R344 to R346, R349 to R351).
-/

namespace Sys2Proof.Machine

/-! ### Summaries (R338) -/

/-- A device whose counts are complete, and whose experts have their xrecvs, sends its summary to every other device of its tray. -/
theorem sendSummary_sends {s : State} {g : Nat} {b : Batch} (hb : s.batch? g = some b) (hs : b.sent = false)
    (hc : (s.dispCores.all fun n => b.xdisps.any fun x => x.core == n) = true)
    (ht : (s.localExperts.all fun e => b.xrecvs.any fun x => x.expert == e) = true) :
    let dem := s.ownDemand b
    let t := (s.trayPositions.filter fun q => q ≠ s.pos).foldl (fun (u : State) q =>
      u.sendReq 0x0C 5 (u.hdr expSrc (u.dev / 16 * 16 + q) dem.job (expertAddr 0 0 0 g 0 1) 5) (summaryBytes dem)) s
    s.sendSummary g = (t.mapBatch g fun x => { x with sent := true, demands := x.demands ++ [dem] }).tryAllocate g := by
  unfold State.sendSummary
  rw [hb]
  dsimp only
  rw [if_neg (by simp [hs, hc, ht])]

/-- The demand that a summary brings. -/
def summaryDemand (h : Hdr) (p : Bytes) : Demand :=
  ⟨h.src.toNat / 65536 % 16, (List.range 64).map fun e => natOf (slice (4 * e) 4 p), (p.getD 261 0).toNat,
    (p.getD 260 0).toNat, natOf (slice 256 4 p), h.job.toNat⟩

section
variable {u : State} {h : Hdr} (d : Nat) (p : Bytes)

theorem takeSummary_joins (hr : u.batchRoom (bitsOf h.addr.toNat 25 10) = true)
    (hg : u.genRetired (bitsOf h.addr.toNat 25 10) = false) :
    let gen := bitsOf h.addr.toNat 25 10
    u.takeSummary d h p = ((u.openBatch gen h.job.toNat).mapBatch gen fun b =>
      if b.demands.any fun x => x.pos == (summaryDemand h p).pos then b
      else { b with demands := b.demands ++ [summaryDemand h p] }).tryAllocate gen := by
  intro gen
  rw [State.takeSummary, if_pos hr]
  exact if_neg (by simp [hg])

theorem takeSummary_discards (hr : u.batchRoom (bitsOf h.addr.toNat 25 10) = true)
    (hg : u.genRetired (bitsOf h.addr.toNat 25 10) = true) : u.takeSummary d h p = u.inc Reg.EXPERT.TOK_DISCARD 1 := by
  rw [State.takeSummary, if_pos hr]
  exact if_pos hg

theorem takeSummary_waits (hr : u.batchRoom (bitsOf h.addr.toNat 25 10) = false) :
    u.takeSummary d h p = { u with doors := { u.doors with waiting := u.doors.waiting ++ [(d, ⟨5, h, p⟩)] } } :=
  if_neg (by simp [hr])

end

/-! ### Tokens and returns (R342, R344 to R346, R350) -/

section
variable {u : State} {h : Hdr} (d : Nat) (p : Bytes) (core choice index : Nat)

theorem gotToken_writes {b : Batch} {x : XPart} (hb : u.batch? (bitsOf h.addr.toNat 25 10) = some b)
    (hx : b.xrecvs.find? (fun x => x.expert == bitsOf h.addr.toNat 9 4 && !x.finished) = some x) :
    let row := bitsOf h.addr.toNat 44 29
    let piece := bitsOf h.addr.toNat 56 45
    u.gotToken d h p core choice index = State.acknowledge ((u.ledgerAdd d h (rowSectors x.bound
      ((parseTD x.dD).va [0, row] + 2048 * piece) p.length)).putToken b x row piece (rowTag (bitsOf h.addr.toNat 25 10)
        (bitsOf h.addr.toNat 9 4) (originOf h) core choice index) p h.poison.toNat) d h := by
  unfold State.gotToken
  dsimp only
  rw [hb]
  dsimp only
  rw [hx]

theorem gotToken_unexpected {b : Batch} (hb : u.batch? (bitsOf h.addr.toNat 25 10) = some b)
    (hx : b.xrecvs.find? (fun x => x.expert == bitsOf h.addr.toNat 9 4 && !x.finished) = none) :
    u.gotToken d h p core choice index = u.inc Reg.EXPERT.TOK_DISCARD 1 := by
  unfold State.gotToken
  dsimp only
  rw [hb]
  dsimp only
  rw [hx]

theorem gotToken_noBatch (hb : u.batch? (bitsOf h.addr.toNat 25 10) = none) :
    u.gotToken d h p core choice index = u.inc Reg.EXPERT.TOK_DISCARD 1 := by
  unfold State.gotToken
  dsimp only
  rw [hb]

theorem gotReturn_writes {b : Batch} {x : XPart} (hb : u.batch? (bitsOf h.addr.toNat 25 10) = some b)
    (hx : b.xdisps.find? (fun x => x.core == bitsOf h.addr.toNat 28 26 && x.owed.contains (bitsOf h.addr.toNat 44 29)) = some x) :
    let row := bitsOf h.addr.toNat 44 29
    let piece := bitsOf h.addr.toNat 56 45
    u.gotReturn d h p = (u.ledgerAdd d h (rowSectors x.bound (x.base + row * (parseTD x.dA).rowLen + 2048 * piece)
      p.length)).putReturn b x row piece p h.poison.toNat := by
  unfold State.gotReturn
  dsimp only
  rw [hb]
  dsimp only
  rw [hx]

theorem gotReturn_unexpected {b : Batch} (hb : u.batch? (bitsOf h.addr.toNat 25 10) = some b)
    (hx : b.xdisps.find? (fun x => x.core == bitsOf h.addr.toNat 28 26 && x.owed.contains (bitsOf h.addr.toNat 44 29)) = none) :
    u.gotReturn d h p = u.inc Reg.EXPERT.RET_DISCARD 1 := by
  unfold State.gotReturn
  dsimp only
  rw [hb]
  dsimp only
  rw [hx]

theorem gotReturn_noBatch (hb : u.batch? (bitsOf h.addr.toNat 25 10) = none) :
    u.gotReturn d h p = u.inc Reg.EXPERT.RET_DISCARD 1 := by
  unfold State.gotReturn
  dsimp only
  rw [hb]

end

/-! ### Batches that end (R335, R349) -/

theorem closeBatch_over {s : State} {g : Nat} {b : Batch} (hb : s.batch? g = some b) (ho : s.batchOver b = true) :
    s.closeBatch g =
      (({ s with batches := s.batches.filter fun x => x.gen ≠ g } : State).inc Reg.EXPERT.BATCHES 1).seat := by
  unfold State.closeBatch
  rw [hb]
  exact if_pos ho

theorem cancelGen_closed {s : State} {g : Nat} (hb : s.batches.find? (fun b => b.gen = g) = none) :
    s.cancelGen g = if s.genNew g then s.put Reg.EXPERT.NEWEST g else s := by
  unfold State.cancelGen
  rw [hb]

theorem cancelGen_open {s : State} {g : Nat} {b : Batch} (hb : s.batches.find? (fun b => b.gen = g) = some b) :
    let t := b.xrecvs.foldl State.cancelXrecv (b.xdisps.foldl (State.cancelXdisp b) s)
    let u := t.dispCores.foldl (fun (v : State) n => v.setReturnLatch b n) t
    s.cancelGen g = (({ u with batches := u.batches.filter fun x => x.gen ≠ g } : State).inc Reg.EXPERT.CANCELLED 1).inc
      Reg.EXPERT.BATCHES 1 := by
  unfold State.cancelGen
  rw [hb]

/-! ### The commands -/

section
variable {s : State} (hu : s.phase = .up)
include hu

theorem exec_summarySend (g : BitVec 16) :
    exec (.summarySend g) s = .next ((s.seat.sendSummary g.toNat).seat.keeping s) :=
  whenLive_up hu fun s => (s.seat.sendSummary g.toNat).seat

theorem exec_batchClose (g : BitVec 16) : exec (.batchClose g) s = .next ((s.closeBatch g.toNat).keeping s) :=
  whenLive_up hu fun s => s.closeBatch g.toNat

theorem exec_expertCancel (g : BitVec 16) : exec (.expertCancel g) s = .next ((s.cancelGen g.toNat).seat.keeping s) :=
  whenLive_up hu fun s => (s.cancelGen g.toNat).seat

variable {d : DoorIx} {h : Hdr} {p : Bytes} (ht : s.seat.takes d.val 5 h p)
include ht

theorem exec_summary (hk : h.addr.toNat % 16 = 1) :
    exec (.summary d h p) s = .next (((s.seat.countRx d.val h p).takeSummary d.val h p).seat.keeping s) :=
  bulkPacket_of_takes hu ht (ok := kind4 1) (beq_iff_eq.mpr hk) fun s => (s.takeSummary d.val h p).seat

theorem exec_token (hk : h.addr.toNat % 16 = 2) (core : CoreIx) (choice : BitVec 2) (index : BitVec 14) :
    exec (.token d h p core choice index) s =
      .next (((s.seat.countRx d.val h p).gotToken d.val h p core.val choice.toNat index.toNat).keeping s) :=
  bulkPacket_of_takes hu ht (ok := kind4 2) (beq_iff_eq.mpr hk) fun s =>
    s.gotToken d.val h p core.val choice.toNat index.toNat

theorem exec_returnPacket (hk : h.addr.toNat % 16 = 3) :
    exec (.returnPacket d h p) s = .next (((s.seat.countRx d.val h p).gotReturn d.val h p).keeping s) :=
  bulkPacket_of_takes hu ht (ok := kind4 3) (beq_iff_eq.mpr hk) fun s => s.gotReturn d.val h p

end

/-- Settles O35: each command is its operation, by the case of what the batch expects. -/
theorem expertPacketsAct : Obligations.ExpertPacketsAct := by
  intro g d h p core choice index s
  refine ⟨fun b hu hb hs hc ht => ?_, ?_, ?_, ?_, fun b hu hb ho => ?_, fun hu => ⟨fun hb => ?_, fun b hb => ?_⟩⟩
  case refine_1 =>
    exact (exec_summarySend hu g).trans (next_keeping (congrArg State.seat (sendSummary_sends hb hs hc ht)))
  case refine_2 =>
    intro u gen dem hu ht hk
    refine ⟨fun hr hg => ?_, fun hr hg => ?_, fun hr => ?_⟩
    · exact (exec_summary hu ht hk).trans (next_keeping (congrArg State.seat (takeSummary_joins d.val p hr hg)))
    · exact (exec_summary hu ht hk).trans (next_keeping (congrArg State.seat (takeSummary_discards d.val p hr hg)))
    · exact (exec_summary hu ht hk).trans (next_keeping (congrArg State.seat (takeSummary_waits d.val p hr)))
  case refine_3 =>
    intro u gen e row piece tag hu ht hk
    refine ⟨fun b x hb hx => ?_, fun b hb hx => ?_, fun hb => ?_⟩
    · exact (exec_token hu ht hk core choice index).trans (next_keeping (gotToken_writes d.val p _ _ _ hb hx))
    · exact (exec_token hu ht hk core choice index).trans (next_keeping (gotToken_unexpected d.val p _ _ _ hb hx))
    · exact (exec_token hu ht hk core choice index).trans (next_keeping (gotToken_noBatch d.val p _ _ _ hb))
  case refine_4 =>
    intro u row piece mine hu ht hk
    refine ⟨fun b x hb hx => ?_, fun b hb hx => ?_, fun hb => ?_⟩
    · exact (exec_returnPacket hu ht hk).trans (next_keeping (gotReturn_writes d.val p hb hx))
    · exact (exec_returnPacket hu ht hk).trans (next_keeping (gotReturn_unexpected d.val p hb hx))
    · exact (exec_returnPacket hu ht hk).trans (next_keeping (gotReturn_noBatch d.val p hb))
  case refine_5 => exact (exec_batchClose hu g).trans (next_keeping (closeBatch_over hb ho))
  case refine_6 => exact (exec_expertCancel hu g).trans (next_keeping (congrArg State.seat (cancelGen_closed hb)))
  case refine_7 => exact (exec_expertCancel hu g).trans (next_keeping (congrArg State.seat (cancelGen_open hb)))

end Sys2Proof.Machine
end

section
/-!
PROOFS. What agput, xdisp, xrecv and xret do where they go and their checks pass (R223, R334 to R336, R343, R345, R377, R378).
-/

namespace Sys2Proof.Machine

/-! ### What a dispatch leaves (R201) -/

section
variable (s : State) (n : Nat) (i : Insn)

theorem get_sent (f : Fld) : (s.sent n i).get f = s.get f := rfl

theorem dev_sent : (s.sent n i).dev = s.dev := rfl

theorem freeCtr_sent : (s.sent n i).freeCtr = s.freeCtr := rfl

theorem linkUsable_sent (d k : Nat) : (s.sent n i).linkUsable d k = s.linkUsable d k := by
  simp only [State.linkUsable, get_sent]

theorem detour_sent (dst : Nat) : (s.sent n i).detour dst = s.detour dst := by
  simp only [State.detour, State.detourUp, State.farUp, linkUsable_sent, dev_sent, freeCtr_sent]
  rfl

theorem route_sent (dst : Nat) : (s.sent n i).route dst = s.route dst := by
  simp only [State.route, State.direct, linkUsable_sent, detour_sent, dev_sent, get_sent]
  rfl

theorem placedHere_sent (e : Nat) : (s.sent n i).placedHere e = s.placedHere e := by
  simp only [State.placedHere, State.pos, dev_sent, get_sent]

theorem unreachable_sent : (s.sent n i).unreachable = s.unreachable := by
  simp only [State.unreachable, placedHere_sent, route_sent, dev_sent, get_sent]

end

/-! ### agput (R377, R378) -/

section
variable {s : State} {n : Nat} {i : Insn} (hc : s.agputConfig n (i.mod 35 20) (i.mod 19 4) = true)
include hc

theorem agputRun_discards (hs : s.get Reg.AGATE.STEP_STATE = 2) :
    s.agputRun n i = (s.inc Reg.AGATE.DISCARD 1).markDone n i.tag Cnt.none := by
  unfold State.agputRun
  dsimp only
  rw [if_neg (by simp [hc]), if_pos hs]

theorem agputRun_waits (hs : s.get Reg.AGATE.STEP_STATE ≠ 2)
    (hf : agputFlt i (s.jobOf n) (s.get (Reg.AGATE.BUCKET_N (i.mod 35 20))) (s.get (Reg.AGATE.BUCKET_OUT_TYPE (i.mod 35 20))) =
      none) :
    s.agputRun n i = { s with agate := { s.agate with dispatched := assocPut (i.mod 35 20) (lookupD 0 (i.mod 35 20) s.agate.dispatched + 1) s.agate.dispatched, waiting := s.agate.waiting ++ [⟨n, i.tag, i.mod 35 20, i.dD, i.dA, i.dX⟩] } } := by
  unfold State.agputRun
  dsimp only
  rw [if_neg (by simp [hc]), if_neg hs, hf]

end

/-! ### xdisp and xrecv (R334 to R337, R343) -/

section
variable {s : State} {n : Nat} {i : Insn} (hg : s.genRetired i.gen = false)
include hg

theorem xdispRun_joins {s1 s2 s3 s4 : State} {pages back : Bound} {mb mx : List (Nat × Byte)} {l : List (Option Nat)}
    (hd : s.dispCores.contains n = true) (hb : ∀ b, s.batch? i.gen = some b → (b.xdisps.any fun p => p.core == n) = false)
    (hf : xdispFlt i (s.jobOf n) = none) (hr : s.unreachable = false)
    (h1 : s.bindAll expSrc (s.jobOf n) .anywhere [⟨roleD, i.td roleD, false, true⟩, ⟨roleA, i.td roleA, true, false⟩] =
      (s1, .inr pages))
    (h2 : s1.bindReturn (s.jobOf n) (s.get (Reg.EXPERT.RETURN_BASE n (i.gen % 4)))
      ((i.td roleA).size 1 * (i.mod 19 18 + 1) * (i.td roleA).rowLen) = (s2, .inr back))
    (h3 : s2.readSpans expSrc (s.jobOf n) (spans (elemBytes ((i.td roleB).places (i.td roleB).allIx))) = (s3, mb, .done))
    (h4 : s3.readSpans expSrc (s.jobOf n) (spans (elemBytes ((i.td roleX).places (i.td roleX).allIx))) = (s4, mx, .done))
    (hl : s4.classify i mb mx ((List.range ((i.td roleA).size 1)).flatMap fun t =>
      (List.range (i.mod 19 18 + 1)).map fun k => (k, t)) = .inr l) :
    s.xdispRun n i =
      (s4.joinXdisp n i (pages ++ back) l false).inc Reg.EXPERT.UNROUTED (l.filter Option.isNone).length := by
  unfold State.xdispRun
  dsimp only
  refine (if_neg ?_).trans ?_
  · rw [hg, hd]
    rcases hbatch : s.batch? i.gen with _ | b
    · simp
    · simp [hb b hbatch]
  rw [hf]
  dsimp only
  rw [if_neg (by simp [hr]), h1]
  dsimp only
  rw [h2]
  dsimp only
  rw [h3]
  dsimp only
  rw [h4]
  dsimp only
  rw [hl]

theorem xrecvRun_joins {s1 : State} {pages : Bound} (hp : s.placedHere (i.mod 19 14) = true)
    (hb : ∀ b, s.batch? i.gen = some b → (b.xrecvs.any fun p => p.expert == i.mod 19 14) = false)
    (hf : s.xrecvFlt i (s.jobOf n) (i.mod 19 14) = none)
    (h1 : s.bindAll expSrc (s.jobOf n) .anywhere [⟨roleD, i.td roleD, false, true⟩, ⟨roleX, i.td roleX, false, true⟩] =
      (s1, .inr pages)) :
    s.xrecvRun n i = (s1.openBatch i.gen (s.jobOf n)).mapBatch i.gen fun b => { b with
      xrecvs := b.xrecvs ++ [⟨n, i.tag, s.jobOf n, i.mod 19 14, i.dD, i.dA, i.dX, false, false, pages, 1, [], 0, none, [], []⟩] } := by
  unfold State.xrecvRun
  dsimp only
  refine (if_neg ?_).trans ?_
  · rw [hg, hp]
    rcases hbatch : s.batch? i.gen with _ | b
    · simp
    · simp [hb b hbatch]
  rw [hf]
  dsimp only
  rw [h1]

end

/-! ### xret (R345) -/

/-- An xret that dispatches in time, with its slots intact, owes no return beforehand. -/
theorem lostXret_goes {s : State} {n : Nat} {i : Insn} (h : s.goes n 0x5A i) : s.lostXret n = s := by
  obtain ⟨-, ⟨-, ho, -⟩, -, hb, hl⟩ := h
  rw [lostXret_oldest ho, if_neg]
  rintro ⟨-, -, -, -, hbad | hlate, -⟩
  · simp [hb] at hbad
  · simp [tooLate_on_time s n i hl] at hlate

theorem xretDue_of_batch {s : State} {g e : Nat} {b : Batch} (hp : s.placedHere e = true) (hb : s.batch? g = some b)
    (hx : (b.xrets.any fun x => x.expert == e) = false) : s.xretDue g e = true := by
  unfold State.xretDue
  rw [hp, hb]
  simp [hx]

theorem xretRun_sends {s s1 s2 : State} {n : Nat} {i : Insn} {m : List (Nat × Byte)} {l : List (Nat × Nat)}
    (hd : s.xretDue i.gen (i.mod 19 14) = true) (hf : s.xretFlt i (s.jobOf n) = none)
    (h1 : s.readSpans expSrc (s.jobOf n) (spans (elemBytes ((i.td roleB).places (i.td roleB).allIx))) = (s1, m, .done))
    (hn : signed 64 (codeIn m ((i.td roleB).bitAddr [0]) 64) ≤ ((i.td roleA).size 1 : Int))
    (ht : checkTags i.gen (i.mod 19 14) ((i.td roleA).size 1) ((List.range ((i.td roleB).size 0 - 2)).map fun j =>
      (j, codeIn m ((i.td roleB).bitAddr [j + 2]) 64)) = .inr l)
    (hw : s1.noWayBack l = false) (h2 : s1.sendResults (s.jobOf n) i.gen (i.td roleA) l [] = (s2, none)) :
    s.xretRun n i = (s2.noteXret i.gen ⟨i.mod 19 14, true, n, i.tag⟩).after 35 (.done n i.tag) := by
  unfold State.xretRun
  dsimp only
  rw [if_neg (by simp [hd]), hf]
  dsimp only
  rw [h1]
  dsimp only
  rw [if_neg (not_lt.mpr hn), ht]
  dsimp only
  rw [if_neg (by simp [hw]), h2]

/-! ### The commands -/

section
variable {c : CoreIx} {s : State} {i : Insn}

theorem exec_agput_goes (h : s.goes c.val 0x50 i) :
    exec (.agput c) s = .next (((s.sent c.val i).agputRun c.val i).keeping s) :=
  live_of_goes h always (fun s i => s.agputRun c.val i) rfl

theorem exec_xdisp_goes (hu : s.phase = .up) (h : s.seat.goes c.val 0x58 i) :
    exec (.xdisp c) s = .next (((s.seat.sent c.val i).xdispRun c.val i).keeping s) :=
  (whenLive_up hu fun s => s.seat.dispatch c.val 0x58 (fun s i => s.xdispReady c.val i) fun s i => s.xdispRun c.val i).trans
    (next_keeping (dispatch_of_goes h _ _ rfl))

theorem exec_xrecv_goes (hu : s.phase = .up) (h : s.seat.goes c.val 0x59 i) :
    exec (.xrecv c) s = .next (((s.seat.sent c.val i).xrecvRun c.val i).keeping s) :=
  (whenLive_up hu fun s => s.seat.dispatch c.val 0x59 (fun s i => s.batchRoom i.gen) fun s i => s.xrecvRun c.val i).trans
    (next_keeping (dispatch_of_goes h _ _ rfl))

theorem exec_xret_goes (hu : s.phase = .up) (h : s.seat.goes c.val 0x5A i) :
    exec (.xret c) s = .next (((s.seat.sent c.val i).xretRun c.val i).keeping s) := by
  refine (whenLive_up hu fun s => (s.seat.lostXret c.val).dispatch c.val 0x5A always fun s i => s.xretRun c.val i).trans ?_
  rw [lostXret_goes h]
  exact next_keeping (dispatch_of_goes h _ _ rfl)

end

/-- Settles O15: each instruction goes, and its unit takes it on its normal path. -/
theorem reductionAndExpertInstructionsRun : Obligations.ReductionAndExpertInstructionsRun := by
  intro c s s1 s2 s3 s4 i
  refine ⟨fun h hc hs => ?_, fun h hc hs hf => ?_, ?_, ?_, ?_⟩
  case refine_1 =>
    rw [exec_agput_goes h, agputRun_discards (s := s.sent c.val i) hc hs, keeping_markDone]
    rfl
  case refine_2 =>
    rw [exec_agput_goes h, agputRun_waits (s := s.sent c.val i) hc hs hf]
    rfl
  case refine_3 =>
    intro pages back mb mx l u hu h hg hd hb hf hr h1 h2 h3 h4 hl
    rw [exec_xdisp_goes hu h, xdispRun_joins (s := u.sent c.val i) hg hd hb hf ((unreachable_sent u c.val i).trans hr) h1 h2 h3
      h4 hl]
  case refine_4 =>
    intro pages u hu h hg hp hb hf h1
    rw [exec_xrecv_goes hu h, xrecvRun_joins (s := u.sent c.val i) hg hp hb hf h1]
    rfl
  case refine_5 =>
    intro b m l u hu h hb hx hp hf h1 hn ht hw h2
    rw [exec_xret_goes hu h, xretRun_sends (s := u.sent c.val i) (xretDue_of_batch hp hb hx) hf h1 hn ht hw h2]

end Sys2Proof.Machine
end

section
/-!
PROOFS. Runs, buckets, contributions, reports and verdicts of Agate (R376, R379 to R384, R387, R388, R391 to R396).
-/

namespace Sys2Proof.Machine

/-! ### The next run (R376) -/

theorem nextRun_opens {s : State} (hs : s.get Reg.AGATE.STEP_STATE = 2)
    (h0 : 0 < (s.get (Reg.BARRIER.CLOSE_CNT (s.get Reg.AGATE.CTL_STEP_BARRIER)) + 2 ^ 32 - s.get Reg.AGATE.CLOSE_BASE) % 2 ^ 32)
    (h1 : (s.get (Reg.BARRIER.CLOSE_CNT (s.get Reg.AGATE.CTL_STEP_BARRIER)) + 2 ^ 32 - s.get Reg.AGATE.CLOSE_BASE) % 2 ^ 32 <
      2 ^ 31) :
    s.nextRun = s.openRun (s.stepNow + (if s.get Reg.AGATE.VERDICT_KIND = 1 then 1 else 0)) (s.runNow + 1) false :=
  if_pos ⟨hs, h0, h1⟩

/-! ### The oldest waiting contribution (R379 to R381, R395, R396) -/

/-- The read of the gradients of a contribution. -/
def State.readGradient (z : State) (i : Insn) : State × List (Nat × Byte) × Acc :=
  z.readSpans agateSrc z.agateJob (spans (elemBytes ((i.td roleA).places (i.td roleA).allIx)))

/-- The indices of the errors that parity q of the step keeps. -/
def errorIx (i : Insn) (q : Nat) : List (List Nat) := (i.td roleA).allIx.map (· ++ [q])

/-- The read of the errors that the step before left, after the read of the gradients. -/
def State.readErrors (z u : State) (i : Insn) : State × List (Nat × Byte) × Acc :=
  u.readSpans agateSrc z.agateJob (spans (elemBytes ((i.td roleX).places (errorIx i (z.stepNow % 2)))))

/-- What the compression makes of the gradients and the errors. -/
def State.packed (z : State) (i : Insn) (ma mx : List (Nat × Byte)) : Packed :=
  pack ((i.td roleA).allIx.map fun ix => decodeNum 1 (codeIn ma ((i.td roleA).bitAddr ix) 32))
    ((errorIx i (z.stepNow % 2)).map fun ix => decodeNum 2 (codeIn mx ((i.td roleX).bitAddr ix) 16))

/-- The errors that the compression leaves for the next step. -/
def State.newErrors (z : State) (i : Insn) (k : Packed) : List El :=
  if k.range then [] else
    List.zipWith (fun ix e => El.mk ((i.td roleX).bitAddr ix) 16 e false) (errorIx i (1 - z.stepNow % 2)) k.errs

section
variable {s z : State} {c : Contribution} {rest : List Contribution} (hw : s.agate.waiting = c :: rest)
include hw

theorem takeContribution_gone (hi : (s.core c.core).window.find? (fun i => i.tag = c.tag) = none) :
    s.takeContribution = s.dropContribution := by
  unfold State.takeContribution
  rw [hw]
  dsimp only
  rw [hi]

variable {i : Insn} (hi : (s.core c.core).window.find? (fun i => i.tag = c.tag) = some i) (hz : s.expireBucket c.bucket = z)
include hi hz

theorem takeContribution_stopped (hh : z.agate.waiting.head? ≠ some c) : s.takeContribution = z := by
  unfold State.takeContribution
  rw [hw]
  dsimp only
  rw [hi]
  dsimp only
  rw [hz, if_pos hh]

variable (hh : z.agate.waiting.head? = some c) {u v w : State} {ma mx : List (Nat × Byte)}
include hh

theorem takeContribution_badGradient {q re l : Nat} (hA : z.readGradient i = (u, ma, .bad q re l)) :
    s.takeContribution = u.dropContribution.takeFault c.core i
      (fltOf cADDRESS roleA (i.td roleA) (addrDetail q re l z.agateJob)) := by
  unfold State.readGradient at hA
  unfold State.takeContribution
  rw [hw]
  dsimp only
  rw [hi]
  dsimp only
  rw [hz, if_neg (not_not.mpr hh), hA]

theorem takeContribution_poisonedGradient {q : Nat} (hA : z.readGradient i = (u, ma, .poison q)) :
    s.takeContribution = u.dropContribution.takeFault c.core i (fltOf cPOISON roleA (i.td roleA) q) := by
  unfold State.readGradient at hA
  unfold State.takeContribution
  rw [hw]
  dsimp only
  rw [hi]
  dsimp only
  rw [hz, if_neg (not_not.mpr hh), hA]

variable (hA : z.readGradient i = (u, ma, .done))
include hA

theorem takeContribution_badErrors {q re l : Nat} (hX : z.readErrors u i = (v, mx, .bad q re l)) :
    s.takeContribution = v.dropContribution.takeFault c.core i
      (fltOf cADDRESS roleX (i.td roleX) (addrDetail q re l z.agateJob)) := by
  unfold State.readGradient at hA
  unfold State.readErrors errorIx at hX
  unfold State.takeContribution
  rw [hw]
  dsimp only
  rw [hi]
  dsimp only
  rw [hz, if_neg (not_not.mpr hh), hA]
  dsimp only
  rw [hX]

theorem takeContribution_poisonedErrors {q : Nat} (hX : z.readErrors u i = (v, mx, .poison q)) :
    s.takeContribution = v.dropContribution.takeFault c.core i (fltOf cPOISON roleX (i.td roleX) q) := by
  unfold State.readGradient at hA
  unfold State.readErrors errorIx at hX
  unfold State.takeContribution
  rw [hw]
  dsimp only
  rw [hi]
  dsimp only
  rw [hz, if_neg (not_not.mpr hh), hA]
  dsimp only
  rw [hX]

variable (hX : z.readErrors u i = (v, mx, .done))
include hX

theorem takeContribution_noWay (hr : (v.others.any fun d => (v.route d).isNone) = true) :
    s.takeContribution = v.dropContribution.takeFault c.core i
      ⟨cADDRESS, 0, 0, addrDetail 0 (Config.openValue 24 0 % 16) 0 z.agateJob⟩ := by
  unfold State.readGradient at hA
  unfold State.readErrors errorIx at hX
  unfold State.takeContribution
  rw [hw]
  dsimp only
  rw [hi]
  dsimp only
  rw [hz, if_neg (not_not.mpr hh), hA]
  dsimp only
  rw [hX]
  exact if_pos hr

variable (hr : (v.others.any fun d => (v.route d).isNone) = false)
include hr

theorem takeContribution_errorsUnwritten {q re l : Nat}
    (hW : v.writeUnit agateSrc 34 z.agateJob (z.newErrors i (z.packed i ma mx)) = (w, .bad q re l)) :
    s.takeContribution = w.dropContribution.takeFault c.core i
      (fltOf cADDRESS roleX (i.td roleX) (addrDetail q re l z.agateJob)) := by
  unfold State.readGradient at hA
  unfold State.readErrors errorIx at hX
  unfold State.newErrors State.packed errorIx at hW
  unfold State.takeContribution
  rw [hw]
  dsimp only
  rw [hi]
  dsimp only
  rw [hz, if_neg (not_not.mpr hh), hA]
  dsimp only
  rw [hX]
  dsimp only
  rw [if_neg (by simp [hr]), hW]

theorem takeContribution_delivers
    (hW : v.writeUnit agateSrc 34 z.agateJob (z.newErrors i (z.packed i ma mx)) = (w, .done)) :
    s.takeContribution = w.deliverContribution c (z.packed i ma mx) := by
  unfold State.readGradient at hA
  unfold State.readErrors errorIx at hX
  unfold State.newErrors State.packed errorIx at hW
  unfold State.packed errorIx State.takeContribution
  rw [hw]
  dsimp only
  rw [hi]
  dsimp only
  rw [hz, if_neg (not_not.mpr hh), hA]
  dsimp only
  rw [hX]
  dsimp only
  rw [if_neg (by simp [hr]), hW]

end

/-! ### Pieces that arrive (R391, R392) -/

/-- The state on which a piece is judged: its bucket has failed where its deadline has passed. -/
def State.beforePiece (r : State) (a : Nat) : State :=
  if r.agateOpen && bitsOf a 29 22 == r.runNow then r.expireBucket (bitsOf a 45 30) else r

/-- A piece of step and run names the open run. -/
def State.nowRun (u : State) (a : Nat) : Prop :=
  u.get Reg.AGATE.STEP_STATE = 1 ∧ bitsOf a 29 22 = u.runNow ∧ bitsOf a 21 6 = u.stepNow

/-- A piece has its place: it names the open run or the next, a valid bucket and a slot of a member in it. -/
def State.fitsPiece (u : State) (h : Hdr) : Prop :=
  let a := h.addr.toNat
  let st := u.get Reg.AGATE.STEP_STATE
  (u.nowRun a ∨ (st = 1 ∨ st = 2) ∧ bitsOf a 29 22 = (u.runNow + 1) % 256) ∧ bitsOf a 45 30 < 1024 ∧
    u.get (Reg.AGATE.BUCKET_VALID (bitsOf a 45 30)) = 1 ∧ bitsOf a 5 3 < u.contribs (bitsOf a 45 30) ∧
    bitsOf a 56 46 < slotPieces (u.get (Reg.AGATE.BUCKET_N (bitsOf a 45 30))) ∧ u.members.contains (originOf h) = true

/-- The write of a piece into its slot. -/
def State.receivePiece (u : State) (h : Hdr) (p : Bytes) : State × List Nat × Acc :=
  let a := h.addr.toNat
  u.receiveAt agateSrc 34 u.agateJob (u.slotVa (bitsOf a 45 30) (originOf h) (bitsOf a 5 3) + 2048 * bitsOf a 56 46) h p

section
variable {r u t : State} {h : Hdr} {d : Nat} {p : Bytes} {secs : List Nat} (hu : r.beforePiece h.addr.toNat = u)
include hu

theorem takeContrib_discards (hf : ¬u.fitsPiece h) : r.takeContrib d h p = u.inc Reg.AGATE.DISCARD 1 := by
  unfold State.beforePiece at hu
  unfold State.takeContrib
  dsimp only
  rw [hu]
  exact if_neg hf

variable (hf : u.fitsPiece h)
include hf

theorem takeContrib_writes (hg : u.receivePiece h p = (t, secs, .done)) :
    let a := h.addr.toNat
    r.takeContrib d h p = (t.ledgerAdd d h secs).notePiece (bitsOf a 29 22) (bitsOf a 45 30) (originOf h) (bitsOf a 5 3)
      ⟨bitsOf a 56 46, bitsOf a 21 6,
        if bitsOf a 56 46 = 0 && (p.getD 3 0).toNat % 2 = 1 && !bitOf h.poison.toNat 0 then 6 else 0⟩
      (natOf (slice 24 4 p)) := by
  unfold State.beforePiece at hu
  unfold State.receivePiece at hg
  unfold State.takeContrib
  dsimp only at hg ⊢
  rw [hu]
  refine (if_pos hf).trans ?_
  rw [hg]

theorem takeContrib_poisoned {va : Nat} (hg : u.receivePiece h p = (t, secs, .poison va)) :
    r.takeContrib d h p = ((t.ledgerAdd d h secs).countKill u.agateJob).unitConsume u.agateJob agateSrc 0x0B va := by
  unfold State.beforePiece at hu
  unfold State.receivePiece at hg
  unfold State.takeContrib
  dsimp only at hg ⊢
  rw [hu]
  refine (if_pos hf).trans ?_
  rw [hg]

variable {va re l : Nat} (hg : u.receivePiece h p = (t, secs, .bad va re l))
include hg

theorem takeContrib_failsNow (hn : u.nowRun h.addr.toNat) :
    r.takeContrib d h p = (t.bucketFail (bitsOf h.addr.toNat 45 30) 10).walkKill u.agateJob agateSrc re := by
  unfold State.beforePiece at hu
  unfold State.receivePiece at hg
  unfold State.takeContrib
  dsimp only at hg ⊢
  rw [hu]
  refine (if_pos hf).trans ?_
  rw [hg]
  dsimp only
  unfold State.nowRun at hn
  rw [if_pos hn]

theorem takeContrib_failsNext (hn : ¬u.nowRun h.addr.toNat) :
    let a := h.addr.toNat
    r.takeContrib d h p = (t.notePiece (bitsOf a 29 22) (bitsOf a 45 30) (originOf h) (bitsOf a 5 3)
      ⟨bitsOf a 56 46, bitsOf a 21 6, 10⟩ (natOf (slice 24 4 p))).walkKill u.agateJob agateSrc re := by
  unfold State.beforePiece at hu
  unfold State.receivePiece at hg
  unfold State.takeContrib
  dsimp only at hg ⊢
  rw [hu]
  refine (if_pos hf).trans ?_
  rw [hg]
  dsimp only
  unfold State.nowRun at hn
  rw [if_neg hn]

end

/-! ### The sum stage, deadlines and success (R383, R387, R393) -/

section
variable {s t : State} {b : Nat} (ho : s.agateOpen = true)
include ho

section
variable (hv : s.get (Reg.AGATE.BUCKET_VALID b) = 1) (hs : s.get (Reg.AGATE.BUCKET_STATE b) = 1)
include hv hs

theorem sumStage_sums (hc : s.completeIn s.runNow b = s.needed b) {sums : List Int} {tot : Nat}
    (hsum : (s.put (Reg.AGATE.BUCKET_STATE b) 2).sumSlots b (s.get (Reg.AGATE.BUCKET_N b)) (s.bucketSlots b)
      (List.replicate (s.get (Reg.AGATE.BUCKET_N b)) 0) 0 = (t, .inr (sums, tot))) :
    s.sumStage b = t.finishSum b (s.bucketSlots b) sums tot := by
  unfold State.sumStage
  dsimp only
  rw [if_pos ⟨ho, hv, hs, hc⟩, hsum]

theorem sumStage_fails (hc : s.completeIn s.runNow b = s.needed b) {reason re : Nat}
    (hsum : (s.put (Reg.AGATE.BUCKET_STATE b) 2).sumSlots b (s.get (Reg.AGATE.BUCKET_N b)) (s.bucketSlots b)
      (List.replicate (s.get (Reg.AGATE.BUCKET_N b)) 0) 0 = (t, .inl (reason, re))) :
    s.sumStage b = (t.bucketFail b reason).walkKill t.agateJob agateSrc re := by
  unfold State.sumStage
  dsimp only
  rw [if_pos ⟨ho, hv, hs, hc⟩, hsum]

theorem bucketLate_fails (hc : s.completeIn s.runNow b ≠ s.needed b) :
    s.bucketLate b = (s.passTo (s.deadline b)).bucketFail b 1 :=
  if_pos ⟨ho, hv, hs, hc⟩

end

theorem bucketDone_reports (hs : s.get (Reg.AGATE.BUCKET_STATE b) = 3)
    (he : ((s.bucketSlots b).all fun r => s.epochClosed r.dev r.epoch) = true)
    (hk : (s.checks.any fun c => c.src == agateSrc && c.bucket == b) = false) :
    s.bucketDone b = (s.put (Reg.AGATE.BUCKET_STATE b) 4).sendReport b 0 (lookupD 0 b s.agate.summed) :=
  if_pos ⟨ho, hs, he, by rw [hk]; rfl⟩

/-! ### Reports and verdicts (R392, R395, R396) -/

theorem verdictLate_posts (hm : s.isMember = false) {dev : Nat} (hd : s.missingDevice = some dev) :
    let t := s.passTo (s.get Reg.AGATE.T_OPEN + ((s.buckets.map fun k => s.get (Reg.AGATE.BUCKET_DEADLINE_US k)).foldl max 0 +
      max 1 (s.get Reg.AGATE.VERDICT_TIMEOUT_US)) * 1000)
    s.verdictLate = t.draw.postVerdict 2 9 (Config.openValue 28 t.freeCtr % 1024) dev := by
  unfold State.verdictLate
  rw [if_pos ⟨ho, by simp [hm]⟩, hd]

end

section
variable {s u : State} {d : Nat} {h : Hdr} {p : Bytes} (hu : s.ledgerAdd d h [] = u)
include hu

theorem gotReport_takes (hn : u.namesRun h.addr.toNat = true) (hm : u.isMember = false) :
    s.gotReport d h p =
      u.takeReport ⟨bitsOf h.addr.toNat 45 30, originOf h, natOf (slice 0 8 p), (p.getD 8 0).toNat⟩ := by
  unfold State.gotReport
  rw [hu]
  exact if_pos ⟨hn, by simp [hm]⟩

theorem gotReport_discards (hn : u.namesRun h.addr.toNat = false ∨ u.isMember = true) :
    s.gotReport d h p = u.inc Reg.AGATE.DISCARD 1 := by
  unfold State.gotReport
  rw [hu]
  refine if_neg ?_
  rintro ⟨hr, hm⟩
  rcases hn with hn | hn
  · simp [hn] at hr
  · simp [hn] at hm

theorem gotVerdict_applies (hk : u.namesRun h.addr.toNat = true ∧ u.isMember = true ∧
    ((p.getD 8 0).toNat = 1 ∨ (p.getD 8 0).toNat = 2)) :
    s.gotVerdict d h p = u.applyVerdict (p.getD 8 0).toNat (p.getD 9 0).toNat (natOf (slice 10 2 p)) (p.getD 12 0).toNat
      (natOf (slice 0 8 p)) := by
  unfold State.gotVerdict
  rw [hu]
  exact if_pos hk

theorem gotVerdict_discards (hk : ¬(u.namesRun h.addr.toNat = true ∧ u.isMember = true ∧
    ((p.getD 8 0).toNat = 1 ∨ (p.getD 8 0).toNat = 2))) :
    s.gotVerdict d h p = u.inc Reg.AGATE.DISCARD 1 := by
  unfold State.gotVerdict
  rw [hu]
  exact if_neg hk

end

/-! ### The commands -/

section
variable {s : State} {d : DoorIx} {h : Hdr} {p : Bytes} (hu : s.phase = .up)
include hu

theorem exec_runOpen : exec .runOpen s = .next (s.nextRun.keeping s) := whenLive_up hu State.nextRun

theorem exec_contributionTaken : exec .contributionTaken s = .next (s.takeContribution.keeping s) :=
  whenLive_up hu State.takeContribution

theorem exec_contrib (ht : s.seat.takes d.val 4 h p) (hk : h.addr.toNat % 8 = 1) :
    exec (.contrib d h p) s = .next (((s.seat.countRx d.val h p).takeContrib d.val h p).keeping s) :=
  bulkPacket_of_takes hu ht (ok := kind3 1) (beq_iff_eq.mpr hk) fun s => s.takeContrib d.val h p

theorem exec_sumStage (b : Fin 1024) : exec (.sumStage b) s = .next ((s.sumStage b.val).keeping s) :=
  whenLive_up hu fun s => s.sumStage b.val

theorem exec_bucketDeadline (b : Fin 1024) : exec (.bucketDeadline b) s = .next ((s.bucketLate b.val).keeping s) :=
  whenLive_up hu fun s => s.bucketLate b.val

theorem exec_bucketSuccess (b : Fin 1024) : exec (.bucketSuccess b) s = .next ((s.bucketDone b.val).keeping s) :=
  whenLive_up hu fun s => s.bucketDone b.val

theorem exec_verdictTimeout : exec .verdictTimeout s = .next (s.verdictLate.keeping s) := whenLive_up hu State.verdictLate

end

section
variable {s : State} {d : DoorIx} {h : Hdr} {p : Bytes} (ht : s.takes d.val 4 h p)
include ht

theorem exec_report (hk : h.addr.toNat % 8 = 2) :
    exec (.report d h p) s = .next (((s.countRx d.val h p).gotReport d.val h p).keeping s) :=
  packet_of_takes ht (ok := kind3 2) (beq_iff_eq.mpr hk) fun s => s.gotReport d.val h p

theorem exec_verdict (hk : h.addr.toNat % 8 = 3) :
    exec (.verdict d h p) s = .next (((s.countRx d.val h p).gotVerdict d.val h p).keeping s) :=
  packet_of_takes ht (ok := kind3 3) (beq_iff_eq.mpr hk) fun s => s.gotVerdict d.val h p

end

/-- Settles O36: each command by the case of its function that its premises name. -/
theorem agateActs : Obligations.AgateActs := by
  intro b d h p s
  refine ⟨?_, ?_, ?_, ?_, ?_, ?_, ?_, ?_, ?_⟩
  case refine_1 =>
    intro ahead hu hs h0 h1
    rw [exec_runOpen hu, nextRun_opens hs h0 h1]
  case refine_2 =>
    intro c rest hu hw
    rw [exec_contributionTaken hu]
    refine ⟨fun hi => by rw [takeContribution_gone hw hi]; rfl, ?_⟩
    intro i u v w ma mx z a x col readA readX k els faults hi
    refine ⟨fun hh => next_keeping (takeContribution_stopped hw hi rfl hh),
      fun hh => ⟨?_, ?_, fun hA => ⟨?_, ?_, fun hX => ⟨?_, fun hr => ⟨?_, ?_⟩⟩⟩⟩⟩
    · exact fun q re l hA => next_keeping (takeContribution_badGradient hw hi rfl hh hA)
    · exact fun q hA => next_keeping (takeContribution_poisonedGradient hw hi rfl hh hA)
    · exact fun q re l hX => next_keeping (takeContribution_badErrors hw hi rfl hh hA hX)
    · exact fun q hX => next_keeping (takeContribution_poisonedErrors hw hi rfl hh hA hX)
    · exact fun hr => next_keeping (takeContribution_noWay hw hi rfl hh hA hX hr)
    · exact fun q re l hW => next_keeping (takeContribution_errorsUnwritten hw hi rfl hh hA hX hr hW)
    · exact fun hW => next_keeping (takeContribution_delivers hw hi rfl hh hA hX hr hW)
  case refine_3 =>
    intro r a u piece k run step idx dev state now next fits hu ht hk
    rw [exec_contrib hu ht hk]
    refine ⟨fun hf t secs => ⟨?_, ?_, fun va re l hg => ⟨?_, ?_⟩⟩, ?_⟩
    · exact fun hg => next_keeping (takeContrib_writes rfl hf hg)
    · exact fun va hg => next_keeping (takeContrib_poisoned rfl hf hg)
    · exact fun hn => next_keeping (takeContrib_failsNow rfl hf hg hn)
    · exact fun hn => next_keeping (takeContrib_failsNext rfl hf hg hn)
    · exact fun hf => next_keeping (takeContrib_discards rfl hf)
  case refine_4 =>
    intro t n sum hu ho hv hs hc
    rw [exec_sumStage hu]
    exact ⟨fun sums tot hsum => next_keeping (sumStage_sums ho hv hs hc hsum),
      fun reason re hsum => next_keeping (sumStage_fails ho hv hs hc hsum)⟩
  case refine_5 =>
    intro hu ho hv hs hc
    rw [exec_bucketDeadline hu, bucketLate_fails ho hv hs hc]
    rfl
  case refine_6 =>
    intro hu ho hs he hk
    rw [exec_bucketSuccess hu, bucketDone_reports ho hs he hk]
  case refine_7 =>
    intro u ht hk
    rw [exec_report ht hk]
    exact ⟨fun hn hm => next_keeping (gotReport_takes rfl hn hm), fun hn => next_keeping (gotReport_discards rfl hn)⟩
  case refine_8 =>
    intro dev hu ho hm hd
    rw [exec_verdictTimeout hu, verdictLate_posts ho hm hd]
  case refine_9 =>
    intro u kind taken ht hk
    rw [exec_verdict ht hk]
    exact ⟨fun hn => next_keeping (gotVerdict_applies rfl hn), fun hn => next_keeping (gotVerdict_discards rfl hn)⟩

end Sys2Proof.Machine
end

section
/-!
PROOFS. An open snapshot, from its opening to its end (R431, R434 to R440, R443).
-/

namespace Sys2Proof.Machine

/-! ### The opening (R431) -/

section
variable {s : State} {a : SnapAsk} (ha : s.snap.asked = some a)
include ha

theorem park_late (ht : a.at_ + 1000000 < s.now) : s.park = s.refuseOpen a stNOTPARKED := by
  unfold State.park
  rw [ha]
  exact if_pos ht

theorem parkLate_refuses (hp : (s.passTo (a.at_ + 1000000)).isParked a.r.job.toNat = false) :
    s.parkLate = (s.passTo (a.at_ + 1000000)).refuseOpen a stNOTPARKED := by
  unfold State.parkLate
  rw [ha]
  exact if_neg (by simp [hp])

variable (ht : s.now ≤ a.at_ + 1000000)
include ht

theorem park_waits (hp : s.isParked a.r.job.toNat = false) : s.park = s := by
  unfold State.park
  rw [ha]
  dsimp only
  rw [if_neg (not_lt.mpr ht), if_pos (by simp [hp])]

variable (hp : s.isParked a.r.job.toNat = true)
include hp

theorem park_opens (hr : s.snapRoom a.r.job.toNat a.ranges = true) : s.park = s.openSnap a := by
  unfold State.park
  rw [ha]
  dsimp only
  rw [if_neg (not_lt.mpr ht), if_neg (by simp [hp]), if_pos hr]

theorem park_noRoom (hr : s.snapRoom a.r.job.toNat a.ranges = false) : s.park = s.refuseOpen a stNOSPACE := by
  unfold State.park
  rw [ha]
  dsimp only
  rw [if_neg (not_lt.mpr ht), if_neg (by simp [hp]), if_neg (by simp [hr])]

end

/-! ### The copies (R434 to R436) -/

section
variable {s : State} {i : Nat} {b : Block} (ho : s.snap.isOpen = true)
include ho

theorem sweepCopy_copies {k : Nat} (he : s.snap.reserve = []) (hr : s.readRoom = true)
    (hu : s.reserveRoom = false ∨ (s.snap.blocks.any Block.urgent) = false)
    (hk : s.snap.blocks.findIdx? (fun b => b.state == 0 && !b.touched) = some k) (hb : s.snap.blocks[k]? = some b) :
    s.sweepCopy = (s.setBlock k 1).issueReads (s.get Reg.SNAP.STATUS_JOB) b.pa := by
  have hn : s.sweepNext = some k := hk
  have hwait : ¬(s.reserveRoom = true ∧ s.snap.blocks.any Block.urgent = true) := by
    rcases hu with hu | hu <;> simp [hu]
  unfold State.sweepCopy
  rw [if_neg (by simp only [ho, he, hr, hwait]; decide), hn]
  dsimp only
  rw [hb]
  rfl

theorem touchCopy_copies (hb : s.snap.blocks[i]? = some b) (hu : b.urgent = true) (hn : s.touchNext = some b.va)
    (hv : s.reserveRoom = true) (hr : s.readRoom = true) :
    s.touchCopy i = (((s.setBlock i 3).issueReads (s.get Reg.SNAP.STATUS_JOB) b.pa).inc Reg.SNAP.TOUCH_COPIES 1).noteReserve := by
  unfold State.touchCopy
  rw [hb]
  dsimp only
  rw [if_neg (by simp [ho, hu, hn, hv, hr])]
  rfl

end

theorem sendSwept_sends {s : State} (he : s.snap.reserve = []) (x : ImageBlock) : s.sendSwept x = s.sendBlock x :=
  if_pos (by simp [he])

theorem sendSwept_waits {s : State} (he : s.snap.reserve ≠ []) (x : ImageBlock) :
    s.sendSwept x = { s with snap := { s.snap with ready := s.snap.ready ++ [x] } } :=
  if_neg (by simp [he])

theorem sendReady_empty {s : State} (he : s.snap.reserve = []) :
    s.sendReady = s.snap.ready.foldl State.sendBlock { s with snap := { s.snap with ready := [] } } :=
  if_pos (by simp [he])

theorem sendReady_waits {s : State} (he : s.snap.reserve ≠ []) : s.sendReady = s := if_neg (by simp [he])

/-- Block i is copied: what its copy leaves of the state. -/
def State.copied (s : State) (i : Nat) : State :=
  (s.setBlock i 2).put Reg.SNAP.BLOCKS_COPIED (s.get Reg.SNAP.BLOCKS_COPIED + 1)

section
variable {s u : State} {i : Nat} {b : Block} {x : ImageBlock} (ho : s.snap.isOpen = true) (hb : s.snap.blocks[i]? = some b)
  (hr : s.readsOut b.pa = false) (hc : s.captureBlock (s.get Reg.SNAP.STATUS_JOB) b.va b.pa b.bad = (u, x))
include ho hb hr hc

theorem blockDone_swept (hs : b.state = 1) :
    s.blockDone i = ((((u.copied i).sendSwept x).releaseHeld b.va).settleAll).noteReserve := by
  unfold State.blockDone State.copied
  rw [hb]
  refine (if_neg ?_).trans ?_
  · simp [ho, hr, hs]
  rw [hc]
  dsimp only
  rw [if_neg (by simp [hs])]

theorem blockDone_touched (hs : b.state = 3) :
    s.blockDone i = ((((u.copied i).toReserve x).releaseHeld b.va).settleAll).noteReserve := by
  unfold State.blockDone State.copied
  rw [hb]
  refine (if_neg ?_).trans ?_
  · simp [ho, hr, hs]
  rw [hc]
  dsimp only
  rw [if_pos hs]

end

/-- The oldest block of the reserve is read back and leaves. -/
def State.drained (s : State) (k : Nat) (b : ImageBlock) (rest : List (Nat × ImageBlock)) : State :=
  let x := s.fromReserve (s.placeAt k) b
  let t := ((s.issueReads 0 (s.placeAt k)).inc (Reg.MOVER.READ_BYTES 9) (2 ^ 21)).inc Reg.SNAP.POISONED_SECT
    (x.poison.length - b.poison.length)
  ({ t with snap := { t.snap with reserve := rest } } : State).sendBlock x

theorem drain_drains {s : State} {k : Nat} {b : ImageBlock} {rest : List (Nat × ImageBlock)} (ho : s.snap.isOpen = true)
    (he : s.snap.reserve = (k, b) :: rest) (hr : s.readRoom = true) :
    s.drain = (s.drained k b rest).sendReady.noteReserve := by
  unfold State.drain State.drained
  rw [he]
  dsimp only
  rw [if_neg (by simp [ho, hr])]

/-! ### The end (R431, R439, R440, R443) -/

theorem completeSnap_completes {s : State} {x : Image} (cost : Nat) (ho : s.snap.isOpen = true) (hv : s.snap.reserve = [])
    (hr : s.snap.ready = []) (ha : s.snap.acks = []) (hb : (s.snap.blocks.any fun b => b.state != 2) = false)
    (hx : s.snap.image = some x) :
    let own := s.get Reg.SNAP.PARK_NS + s.snap.heldNs + s.snap.bytes / 24580
    let t := (({ s with snap := { s.snap.closed with current := some x } } : State).puts [(Reg.SNAP.STATUS_STATE, 0),
        (Reg.SNAP.LAST_VALID, 1), (Reg.SNAP.LAST_SLOT, x.slot), (Reg.SNAP.LAST_SNAP_ID, x.snapId), (Reg.SNAP.T_COMPLETE, s.now),
        (Reg.SNAP.COST_NS, own)]).inc Reg.SNAP.COMPLETED 1
    let u := if t.get Reg.SNAP.NOTIFY_V = 1 then t.sendLatch snapSrc (t.get Reg.SNAP.NOTIFY) true none else t
    s.completeSnap cost = if u.isMember = true then u else u.advise (max own cost) := by
  unfold State.completeSnap
  rw [hx]
  exact if_neg (by rw [ho, hv, hr, ha, hb]; decide)

theorem cancelOpen_asked {s : State} {a : SnapAsk} (ha : s.snap.asked = some a) :
    s.cancelOpen = s.refuseOpen a stNOTPARKED := by
  unfold State.cancelOpen
  rw [ha]

theorem cancelOpen_open {s : State} (ha : s.snap.asked = none) (ho : s.snap.isOpen = true) :
    let t := s.snap.blocks.foldl (fun (t : State) b => t.releaseHeld b.va) s
    s.cancelOpen = ({ t with snap := t.snap.closed } : State).put Reg.SNAP.STATUS_STATE 0 := by
  unfold State.cancelOpen
  rw [ha]
  exact if_pos ho

theorem cancelOpen_none {s : State} (ha : s.snap.asked = none) (ho : s.snap.isOpen = false) : s.cancelOpen = s := by
  unfold State.cancelOpen
  rw [ha]
  exact if_neg (by simp [ho])

theorem endSnap_buddyLost (s : State) :
    s.endSnap 1 = ((({ s.abandonSnap true with snap := { (s.abandonSnap true).snap with current := none } } : State).put
      Reg.SNAP.LAST_VALID 0).put Reg.SNAP.BUDDY_LOST 1).settleAll := rfl

theorem endSnap_cancelled (s : State) : s.endSnap 2 = s.cancelOpen.settleAll := rfl

theorem endSnap_else (s : State) {cause : Nat} (h1 : cause ≠ 1) (h2 : cause ≠ 2) :
    s.endSnap cause = (s.abandonSnap false).settleAll := by
  unfold State.endSnap
  rw [if_neg h1, if_neg h2]

/-! ### The commands -/

section
variable {s : State} (hu : s.phase = .up)
include hu

theorem exec_snapPark : exec .snapPark s = .next (s.park.keeping s) := whenLive_up hu State.park

theorem exec_snapParkTimeout : exec .snapParkTimeout s = .next (s.parkLate.keeping s) := whenLive_up hu State.parkLate

theorem exec_snapSweepCopy : exec .snapSweepCopy s = .next (s.sweepCopy.keeping s) := whenLive_up hu State.sweepCopy

theorem exec_snapTouchCopy (i : Nat) : exec (.snapTouchCopy i) s = .next ((s.touchCopy i).keeping s) :=
  whenLive_up hu fun s => s.touchCopy i

theorem exec_snapBlockDone (i : Nat) : exec (.snapBlockDone i) s = .next ((s.blockDone i).keeping s) :=
  whenLive_up hu fun s => s.blockDone i

theorem exec_reserveDrain : exec .reserveDrain s = .next (s.drain.keeping s) := whenLive_up hu State.drain

theorem exec_snapComplete (cost : BitVec 64) : exec (.snapComplete cost) s = .next ((s.completeSnap cost.toNat).keeping s) :=
  whenLive_up hu fun s => s.completeSnap cost.toNat

theorem exec_snapAbandon (cause : BitVec 3) : exec (.snapAbandon cause) s = .next ((s.endSnap cause.toNat).keeping s) :=
  whenLive_up hu fun s => s.endSnap cause.toNat

end

/-- Settles O37: each command by the case of its function that its premises name. -/
theorem snapshotsAct : Obligations.SnapshotsAct := by
  intro i cost cause s hu
  refine ⟨?_, ?_, ?_, ?_, ?_, ?_, ?_, ?_, ?_, ?_⟩
  case refine_1 =>
    intro a ha
    rw [exec_snapPark hu]
    refine ⟨fun ht => next_keeping (park_late ha ht), fun ht hp => ?_, fun ht hp => ⟨fun hr => ?_, fun hr => ?_⟩⟩
    · rw [park_waits ha ht hp, State.keeping_self]
    · rw [park_opens ha ht hp hr]
    · rw [park_noRoom ha ht hp hr]
  case refine_2 =>
    intro a ha hp
    rw [exec_snapParkTimeout hu, parkLate_refuses ha hp]
  case refine_3 =>
    intro k b ho he hr hw hk hb
    rw [exec_snapSweepCopy hu, sweepCopy_copies ho he hr hw hk hb]
  case refine_4 =>
    intro b ho hb hn ht hv hr
    rw [exec_snapTouchCopy hu, touchCopy_copies ho hb hn ht hv hr]
  case refine_5 =>
    intro b ho hb hr
    generalize hc : s.captureBlock (s.get Reg.SNAP.STATUS_JOB) b.va b.pa b.bad = y
    obtain ⟨v, x⟩ := y
    intro c u done
    refine ⟨fun hs he => ?_, fun hs he => ?_, fun hs => ?_⟩
    · rw [exec_snapBlockDone hu, blockDone_swept ho hb hr hc hs, sendSwept_sends (s := v.copied i) he]
      rfl
    · rw [exec_snapBlockDone hu, blockDone_swept ho hb hr hc hs, sendSwept_waits (s := v.copied i) he]
      rfl
    · rw [exec_snapBlockDone hu, blockDone_touched ho hb hr hc hs]
      rfl
  case refine_6 =>
    intro k b rest ho he hr x t u
    have hd : s.drained k b rest = u := rfl
    rw [exec_reserveDrain hu, drain_drains ho he hr, hd]
    exact ⟨fun hv => by rw [sendReady_empty hv], fun hv => by rw [sendReady_waits hv]⟩
  case refine_7 =>
    intro x ho hv hr ha hb hx
    rw [exec_snapComplete hu, completeSnap_completes cost.toNat ho hv hr ha hb hx]
    rfl
  case refine_8 =>
    rintro rfl
    rw [exec_snapAbandon hu]
    exact next_keeping (endSnap_buddyLost s)
  case refine_9 =>
    rintro rfl
    rw [exec_snapAbandon hu]
    have h2 : s.endSnap (2 : BitVec 3).toNat = s.cancelOpen.settleAll := endSnap_cancelled s
    rw [h2]
    refine ⟨fun a ha => ?_, fun ha ho => ?_, fun ha ho => ?_⟩
    · rw [cancelOpen_asked ha]
    · rw [cancelOpen_open ha ho]
    · rw [cancelOpen_none ha ho]
  case refine_10 =>
    intro h1 h2
    rw [exec_snapAbandon hu, endSnap_else s]
    · exact fun h => h1 (BitVec.eq_of_toNat_eq h)
    · exact fun h => h2 (BitVec.eq_of_toNat_eq h)

end Sys2Proof.Machine
end

section
/-!
PROOFS. Pickup, completions, doorbells and ring 0 (R451, R457 to R463, R468).
-/

namespace Sys2Proof.Machine

/-! ### Pickup (R459, R462) -/

theorem entryPickup_picks {s : State} {c id : Nat} {x : Ring} {e : Bytes} (hr : s.get Reg.GEN.READY = 1)
    (hd : s.host.sillDown = false) (hn : s.serveNext = some (c, id)) (hx : s.ring? id = some x) (he : x.entry = some e) :
    s.entryPickup = s.pickUp x e := by
  unfold State.entryPickup
  rw [if_neg (by simp [hr, hd]), hn]
  dsimp only
  rw [hx]
  dsimp only
  rw [he]

theorem entryPickup_none {s : State} (h : s.get Reg.GEN.READY = 0 ∨ s.host.sillDown = true ∨ s.serveNext = none) :
    s.entryPickup = s := by
  unfold State.entryPickup
  by_cases hs : s.get Reg.GEN.READY = 0 ∨ s.host.sillDown = true
  · rw [if_pos hs]
  · have hn : s.serveNext = none := by
      rcases h with h | h | h
      · exact absurd (.inl h) hs
      · exact absurd (.inr h) hs
      · exact h
    rw [if_neg hs, hn]

/-! ### Completions (R459, R460) -/

theorem completeOn_none {s : State} {id : Nat} (h : ∀ y ∈ s.host.due, y.ring ≠ id) : s.completeOn id = s := by
  unfold State.completeOn
  rw [splitFirst_eq_none fun y hy => beq_false_of_ne (h y hy)]

section
variable {s : State} {id : Nat} {x : Ring} {a b : List Completion} {c : Completion}
  (hd : splitFirst (fun (y : Completion) => y.ring == id) s.host.due = some (a, c, b)) (hx : s.ring? id = some x)
include hd hx

theorem completeOn_writes (hl : s.get Reg.GEN.LINK_UP = 1) (hr : x.cqUsed < x.size) :
    let u : State := { s with host := { s.host with due := a ++ b } }
    s.completeOn id = (((u.writeCpl x c).endHandler c).mapRing id fun y =>
      { y with inProgress := y.inProgress - 1 }).endRing id := by
  unfold State.completeOn
  rw [hd]
  dsimp only
  rw [hx]
  dsimp only
  rw [if_neg (by simp [hr]), if_neg (by simp [hl])]

theorem completeOn_full (hl : s.get Reg.GEN.LINK_UP = 1) (hr : x.size ≤ x.cqUsed) : s.completeOn id = s := by
  unfold State.completeOn
  rw [hd]
  dsimp only
  rw [hx]
  dsimp only
  rw [if_pos (by simp [hl, hr])]

theorem completeOn_linkDown (hl : s.get Reg.GEN.LINK_UP = 0) :
    let u : State := { s with host := { s.host with due := a ++ b } }
    s.completeOn id = (((u.inc Reg.GEN.CPL_DROP 1).endHandler c).mapRing id fun y =>
      { y with inProgress := y.inProgress - 1 }).endRing id := by
  unfold State.completeOn
  rw [hd]
  dsimp only
  rw [hx]
  dsimp only
  rw [if_neg (by simp [hl]), if_pos hl]

end

/-! ### Doorbells (R458, R468) -/

section
variable {s : State} {id v : Nat} (act : State → Ring → State)

theorem bell_d3hot (hd : s.host.d3hot = true) : s.bell id v act = s := if_pos hd

section
variable (hd : s.host.d3hot = false)
include hd

theorem bell_member (hm : s.isMember = true) : s.bell id v act = s.inc Reg.GEN.DB_IGNORED 1 := by
  rw [State.bell, if_neg (by simp [hd]), if_pos hm]

variable (hm : s.isMember = false)
include hm

theorem bell_acts {x : Ring} (hx : s.ring? id = some x) (hr : x.rings = true) (hv : v < x.size) :
    s.bell id v act = act s x := by
  rw [State.bell, if_neg (by simp [hd]), if_neg (by simp [hm]), hx]
  exact if_pos ⟨hr, hv⟩

theorem bell_bad (h : s.ring? id = none ∨ ∃ x, s.ring? id = some x ∧ (x.rings = false ∨ x.size ≤ v)) :
    s.bell id v act = s.badBell id := by
  rw [State.bell, if_neg (by simp [hd]), if_neg (by simp [hm])]
  obtain hx | ⟨x, hx, hbad⟩ := h
  · rw [hx]
  · rw [hx]
    refine if_neg ?_
    rintro ⟨hr, hv⟩
    rcases hbad with hbad | hbad
    · simp [hbad] at hr
    · exact absurd hv (not_lt.mpr hbad)

end

end

/-! ### Ring 0 (R457) -/

section
variable {s : State} {v : Nat}

/-- Ring 0's registers as a write that enables it leaves them. -/
def State.ring0Set (s : State) (v : Nat) : State :=
  s.puts [(Reg.GEN.RING0_EN, bitsOf v 63 63), (Reg.GEN.RING0_VEC, bitsOf v 23 16), (Reg.GEN.RING0_IRQ, bitsOf v 15 14),
    (Reg.GEN.RING0_LOG2_SIZE, bitsOf v 4 0)]

theorem ring0Ctl_enables (he : s.get Reg.GEN.RING0_EN ≠ 1) (hv : bitOf v 63 = true) :
    let t := s.ring0Set v
    s.ring0Ctl v = { t with host := { t.host with rings := t.ring0 :: t.host.rings.filter fun r => r.id ≠ 0 } } := by
  rw [State.ring0Ctl, if_neg he]
  exact if_pos hv

theorem ring0Ctl_sets (he : s.get Reg.GEN.RING0_EN ≠ 1) (hv : bitOf v 63 = false) : s.ring0Ctl v = s.ring0Set v := by
  rw [State.ring0Ctl, if_neg he]
  exact if_neg (by simp [hv])

theorem ring0Ctl_stops (he : s.get Reg.GEN.RING0_EN = 1) (hv : bitOf v 63 = false) :
    s.ring0Ctl v = (s.put Reg.GEN.RING0_EN 0).mapRing 0 Ring.stop := by
  rw [State.ring0Ctl, if_pos he, if_neg (by simp [hv])]

theorem ring0Ctl_enabled (he : s.get Reg.GEN.RING0_EN = 1) (hv : bitOf v 63 = true) : s.ring0Ctl v = s := by
  rw [State.ring0Ctl, if_pos he, if_pos hv]

end

/-! ### The commands -/

section
variable {s : State} (hu : s.phase = .up)
include hu

theorem exec_entryPickup : exec .entryPickup s = .next (s.entryPickup.keeping s) := whenLive_up hu State.entryPickup

theorem exec_completionWrite (q : BitVec 16) : exec (.completionWrite q) s = .next ((s.completeOn q.toNat).keeping s) :=
  whenLive_up hu fun s => s.completeOn q.toNat

theorem exec_doorbellSqTail (q : BitVec 16) (v : BitVec 64) :
    exec (.doorbellSqTail q v) s = .next ((s.bell q.toNat v.toNat fun s x => s.newTail x v.toNat).keeping s) :=
  whenLive_up hu fun s => s.bell q.toNat v.toNat fun s x => s.newTail x v.toNat

theorem exec_doorbellCqHead (q : BitVec 16) (v : BitVec 64) :
    exec (.doorbellCqHead q v) s = .next ((s.bell q.toNat v.toNat fun s x => s.newHead x v.toNat).keeping s) :=
  whenLive_up hu fun s => s.bell q.toNat v.toNat fun s x => s.newHead x v.toNat

theorem exec_ring0CtlWrite (hd : s.host.d3hot = false) (v : BitVec 64) :
    exec (.ring0CtlWrite v) s = .next ((s.ring0Ctl v.toNat).keeping s) :=
  whenBar_open hu (.inl hd) fun s => s.ring0Ctl v.toNat

end

theorem exec_ring0CtlWrite_d3hot {s : State} (hd : s.host.d3hot = true) (v : BitVec 64) :
    exec (.ring0CtlWrite v) s = .next s :=
  whenBar_d3hot hd fun s => s.ring0Ctl v.toNat

/-- Settles O38: each command by the case of its function that its premises name. -/
theorem ringsAct : Obligations.RingsAct := by
  intro q v s
  refine ⟨?_, ?_, ?_, ?_, ?_, ?_, ?_, ?_, ?_⟩
  case refine_1 =>
    intro c id x e hu hr hd hn hx he
    rw [exec_entryPickup hu, entryPickup_picks hr hd hn hx he]
  case refine_2 =>
    intro hu h
    rw [exec_entryPickup hu, entryPickup_none h, State.keeping_self]
  case refine_3 =>
    intro hu h
    rw [exec_completionWrite hu, completeOn_none h, State.keeping_self]
  case refine_4 =>
    intro a c b x hu hd hx u one
    rw [exec_completionWrite hu]
    refine ⟨fun hl hr => next_keeping (completeOn_writes hd hx hl hr), fun hl hr => ?_,
      fun hl => next_keeping (completeOn_linkDown hd hx hl)⟩
    rw [completeOn_full hd hx hl hr, State.keeping_self]
  case refine_5 =>
    intro hu hd hm
    rw [exec_doorbellSqTail hu, exec_doorbellCqHead hu]
    exact ⟨fun x hx hr hv => ⟨next_keeping (bell_acts _ hd hm hx hr hv), next_keeping (bell_acts _ hd hm hx hr hv)⟩,
      fun h => ⟨next_keeping (bell_bad _ hd hm h), next_keeping (bell_bad _ hd hm h)⟩⟩
  case refine_6 =>
    intro hu hd hm
    rw [exec_doorbellSqTail hu, exec_doorbellCqHead hu, bell_member _ hd hm, bell_member _ hd hm]
    exact ⟨rfl, rfl⟩
  case refine_7 =>
    intro hu hd
    rw [exec_doorbellSqTail hu, exec_doorbellCqHead hu, bell_d3hot _ hd, bell_d3hot _ hd, State.keeping_self]
    exact ⟨rfl, rfl, exec_ring0CtlWrite_d3hot hd v⟩
  case refine_8 =>
    intro hu hd
    rw [exec_ring0CtlWrite hu hd]
    refine ⟨fun he => ⟨fun hv => next_keeping (ring0Ctl_enables he hv), fun hv => next_keeping (ring0Ctl_sets he hv)⟩,
      fun he hv => next_keeping (ring0Ctl_stops he hv), fun he hv => ?_⟩
    rw [ring0Ctl_enabled he hv, State.keeping_self]
  case refine_9 =>
    exact fun b hu => whenLive_up hu fun s => { s with host := { s.host with d3hot := b } }

end Sys2Proof.Machine
end

section
/-!
PROOFS. Queries, LATCH_OP, STREAM_HALT, JOB_KILL and BATCH_CANCEL (R490 to R492, R494).
-/

namespace Sys2Proof.Machine

/-! ### Queries (R492) -/

section
variable {u : State} {a first max off : Nat}

theorem doErrlogRead_sends (ha : a % 64 = 0) (h0 : 0 < max) (h1 : max ≤ 512) :
    let next := u.get Reg.ERR.LOG_SEQ
    let lo := Nat.max first (Nat.max 1 (next - 512))
    let k := min max (next - lo)
    u.doErrlogRead a first max =
      ((List.range k).foldl (fun t i => t.hostPost (a + 64 * i) (t.logBytes (lo + i))) u, some (0, lo, k)) :=
  if_neg (by omega)

theorem doErrlogRead_bad (h : a % 64 ≠ 0 ∨ max = 0 ∨ 512 < max) : u.doErrlogRead a first max = (u, just stBADPARAM) :=
  if_pos h

theorem doRegRead_reads (h8 : off % 8 = 0) (ho : off < 2 ^ 26) :
    u.doRegRead off = ((u.seat.readReg off 8).1, some (0, (u.seat.readReg off 8).2, 0)) := by
  rw [State.doRegRead, if_neg (by omega)]

theorem doRegRead_bad (h : off % 8 ≠ 0 ∨ 2 ^ 26 ≤ off) : u.doRegRead off = (u, just stBADPARAM) := if_pos h

end

/-! ### Latches, halts and kills (R490, R491, R494) -/

section
variable {u : State} {op l n : Nat}

theorem doLatchOp_sends (ho : op ≤ 1) (hl : l + n ≤ 0x3FFF) :
    u.doLatchOp op l n = ((List.range (n + 1)).foldl (fun t i => t.sendLatch hostSrc (l + i) (op = 0) none) u, just 0) :=
  if_neg (by omega)

theorem doLatchOp_bad (h : 1 < op ∨ 0x3FFF < l + n) : u.doLatchOp op l n = (u, just stBADPARAM) := if_pos h

end

theorem jobNamed_eq_false {r : Req} (hj : r.job = 0) : jobNamed r = false := by simp [jobNamed, hj]

section
variable {u : State} {r : Req}

theorem doStreamHalt_noJob (mask : Nat) (hj : r.job = 0) : u.doStreamHalt r mask = (u, just stBADPARAM) :=
  if_pos (by simp [jobNamed_eq_false hj])

theorem doStreamHalt_halts (mask : Nat) (hj : r.job ≠ 0) :
    let cores := u.runningOf mask r.job.toNat
    let t := cores.foldl State.haltStream u
    u.doStreamHalt r mask =
      ((if cores.isEmpty then t else t.jobHalted r.job.toNat).seat, some (0, (cores.map fun k => 2 ^ k).sum, 0)) :=
  if_neg (by simp [jobNamed_eq_true hj])

theorem doJobKill_noJob (hj : r.job = 0) : u.doJobKill r = (u, just stBADPARAM) :=
  if_pos (by simp [jobNamed_eq_false hj])

theorem doJobKill_kills (hj : r.job ≠ 0) :
    u.doJobKill r = ((if u.isMember then u.gotKill r.job.toNat 0 else u.killJob r.job.toNat hostSrc 0 true).seat, just 0) := by
  unfold State.doJobKill
  dsimp only
  rw [if_neg (by simp [jobNamed_eq_true hj])]
  by_cases hm : u.isMember = true
  · rw [if_pos hm, if_pos hm]
    rfl
  · rw [if_neg hm, if_neg hm]
    rfl

end

/-! ### The commands -/

section
variable {s u : State} {r : Req}

section
variable (h : s.serves r .target u)
include h

theorem exec_status : exec (.status r) s = .next ((u.finish r 0 u.statusWords.1 u.statusWords.2).keeping s) :=
  serve_of_serves (serves_entry h (.inl rfl) _) true State.doStatus

theorem exec_linkStatus : exec (.linkStatus r) s = .next ((u.finish r 0 u.linkWords.1 u.linkWords.2).keeping s) :=
  serve_of_serves (serves_entry h (.inl rfl) _) true State.doLinkStatus

theorem exec_errlogRead (a first : BitVec 64) (max : BitVec 16) :
    exec (.errlogRead r a first max) s =
      .next ((State.answered r (u.doErrlogRead a.toNat first.toNat max.toNat)).keeping s) :=
  serve_of_serves (serves_entry h (.inl rfl) _) true (State.doErrlogRead a.toNat first.toNat max.toNat)

theorem exec_regRead (off : BitVec 32) :
    exec (.regRead r off) s = .next ((State.answered r (u.doRegRead off.toNat)).keeping s) :=
  serve_of_serves (serves_entry h (.inl rfl) _) true (State.doRegRead off.toNat)

theorem exec_latchOp (op : BitVec 8) (l n : BitVec 16) :
    exec (.latchOp r op l n) s = .next ((State.answered r (u.doLatchOp op.toNat l.toNat n.toNat)).keeping s) :=
  serve_of_serves (serves_entry h (.inl rfl) _) false (State.doLatchOp op.toNat l.toNat n.toNat)

end

theorem exec_streamHalt (mask : BitVec 8) (all : Bool) (h : s.serves r (if all then .all else .target) u
    fun d => mkEntry 0x0005 r d [(16, 1, mask.toNat), (17, 1, ofBool all)]) :
    exec (.streamHalt r mask all) s = .next ((State.answered r (u.doStreamHalt r mask.toNat)).keeping s) :=
  serve_of_serves h false (State.doStreamHalt r mask.toNat)

theorem exec_jobKill (h : s.serves r .all u fun d => mkEntry 0x0006 r d []) :
    exec (.jobKill r) s = .next ((State.answered r (u.doJobKill r)).keeping s) :=
  serve_of_serves h false (State.doJobKill r)

theorem exec_batchCancel (gen : BitVec 16) (tray : BitVec 8)
    (h : s.serves r (.tray tray.toNat) u fun d => mkEntry 0x0007 r d [(16, 2, gen.toNat), (18, 1, tray.toNat)]) :
    exec (.batchCancel r gen tray) s =
      .next ((((u.cancelGen gen.toNat).seat).finish r 0 (ofBool (u.batch? gen.toNat).isSome) 0).keeping s) :=
  serve_of_serves h false (State.doBatchCancel gen.toNat)

end

/-- Settles O45: each command performs its part on the device that its scope names, and completes with its answer. -/
theorem queriesAndKillsAct : Obligations.QueriesAndKillsAct := by
  intro r a first max off op l n mask all gen tray s u
  refine ⟨fun h => ⟨exec_status h, exec_linkStatus h, ?_, ?_, ?_, ?_, ?_, ?_⟩, fun h => ⟨?_, ?_⟩, fun h => ⟨?_, ?_⟩,
    exec_batchCancel gen tray⟩
  case refine_1 =>
    intro ha h0 h1 next lo k
    rw [exec_errlogRead h, doErrlogRead_sends ha h0 h1]
    rfl
  case refine_2 =>
    intro hb
    rw [exec_errlogRead h, doErrlogRead_bad hb, answered_just]
  case refine_3 =>
    intro h8 ho
    rw [exec_regRead h, doRegRead_reads h8 ho]
    rfl
  case refine_4 =>
    intro hb
    rw [exec_regRead h, doRegRead_bad hb, answered_just]
  case refine_5 =>
    intro ho hl
    rw [exec_latchOp h, doLatchOp_sends ho hl, answered_just]
  case refine_6 =>
    intro hb
    rw [exec_latchOp h, doLatchOp_bad hb, answered_just]
  case refine_7 =>
    intro hj
    rw [exec_streamHalt mask all h, doStreamHalt_noJob _ hj, answered_just]
  case refine_8 =>
    intro hj cores t
    rw [exec_streamHalt mask all h, doStreamHalt_halts _ hj]
    rfl
  case refine_9 =>
    intro hj
    rw [exec_jobKill h, doJobKill_noJob hj, answered_just]
  case refine_10 =>
    intro hj
    rw [exec_jobKill h, doJobKill_kills hj, answered_just]

end Sys2Proof.Machine
end

section
/-!
PROOFS. Snapshots, tests, retirement, attestation, patches and the forming of a configuration (R420 to R424, R431, R444 to R446,
R480, R495, R496, R499 to R504, R515, R519).
-/

namespace Sys2Proof.Machine

/-! ### SNAP_OPEN (R431, R495) -/

theorem doSnapOpen_unaligned {u : State} {r : Req} {id va a b cut : Nat} (ha : a % 64 ≠ 0) :
    u.doSnapOpen r id va a b cut = (u, just stBADPARAM) := if_pos ha

section
variable {u y : State} {r : Req} {id va a b cut : Nat} (ha : a % 64 = 0)
include ha

theorem doSnapOpen_badJob {st : Nat} (hj : u.jobFails r = some st) : u.doSnapOpen r id va a b cut = (u, just st) := by
  rw [State.doSnapOpen, if_neg (not_not.mpr ha), hj]

variable (hj : u.jobFails r = none)
include hj

theorem doSnapOpen_busy (hb : u.snapBusy = true) : u.doSnapOpen r id va a b cut = (u, just stBUSY) := by
  rw [State.doSnapOpen, if_neg (not_not.mpr ha), hj]
  exact if_pos hb

variable (hb : u.snapBusy = false)
include hb

theorem doSnapOpen_unread {st : Nat} (hp : u.readParam r va 64 = (y, .inl st)) :
    u.doSnapOpen r id va a b cut = (y, just st) := by
  rw [State.doSnapOpen, if_neg (not_not.mpr ha), hj]
  dsimp only
  rw [if_neg (by simp [hb]), hp]

/-- The ranges that the parameter block of a SNAP_OPEN names. -/
def paramRanges (x : Bytes) : List Nat := (List.range 16).map fun k => field x (4 * k) 4

variable {x : Bytes} (hp : u.readParam r va 64 = (y, .inr x))
include hp

theorem doSnapOpen_badRanges (hr : rangesOk (paramRanges x) = false) :
    u.doSnapOpen r id va a b cut = (y.readTables r.job.toNat, just stBADPARAM) := by
  rw [State.doSnapOpen, if_neg (not_not.mpr ha), hj]
  dsimp only
  rw [if_neg (by simp [hb]), hp]
  exact if_pos (by rw [← paramRanges, hr]; rfl)

variable (hr : rangesOk (paramRanges x) = true)
include hr

theorem doSnapOpen_noSpace (hs : (y.readTables r.job.toNat).snapRoom r.job.toNat (paramRanges x) = false) :
    u.doSnapOpen r id va a b cut = (y.readTables r.job.toNat, just stNOSPACE) := by
  rw [State.doSnapOpen, if_neg (not_not.mpr ha), hj]
  dsimp only
  rw [if_neg (by simp [hb]), hp]
  dsimp only
  rw [← paramRanges, if_neg (by simp [hr]), if_pos (by simp [hs])]

theorem doSnapOpen_asks (hs : (y.readTables r.job.toNat).snapRoom r.job.toNat (paramRanges x) = true) :
    let z := y.readTables r.job.toNat
    let ask : SnapAsk := ⟨r, id, paramRanges x, a, b, cut, z.now⟩
    u.doSnapOpen r id va a b cut = (({ z.letWait r with snap := { z.snap with asked := some ask } } : State).puts
      [(Reg.SNAP.STATUS_STATE, 1), (Reg.SNAP.STATUS_JOB, r.job.toNat), (Reg.SNAP.STATUS_SNAP_ID, id)], none) := by
  rw [State.doSnapOpen, if_neg (not_not.mpr ha), hj]
  dsimp only
  rw [if_neg (by simp [hb]), hp]
  dsimp only
  rw [← paramRanges, if_neg (by simp [hr]), if_neg (by simp [hs])]

end

/-! ### RESTORE (R444 to R446, R496) -/

/-- The streams of a job stand still: none runs, and no window holds an instruction (R444). -/
def State.jobStill (u : State) (job : Nat) : Prop := ∀ n ∈ u.coresOf job, u.streamState n ≠ 1 ∧ (u.core n).window = []

theorem any_running_iff {u : State} {job : Nat} :
    ((u.coresOf job).any fun n => u.streamState n == 1 || !(u.core n).window.isEmpty) = true ↔ ¬u.jobStill job := by
  simp only [State.jobStill, List.any_eq_true, Bool.or_eq_true, beq_iff_eq, Bool.not_eq_true', List.isEmpty_eq_false_iff,
    not_forall, not_and_or, not_not, exists_prop]

theorem doRestore_bad {u : State} {r : Req} {id src a t1 : Nat} (h : 1 < src ∨ (src = 1 ∧ a % 64 ≠ 0)) :
    u.doRestore r id src a t1 = (u, just stBADPARAM) := if_pos h

section
variable {u : State} {r : Req} {id src a t1 : Nat} (hs : ¬(1 < src ∨ (src = 1 ∧ a % 64 ≠ 0)))
include hs

theorem doRestore_badJob {st : Nat} (hj : u.jobFails r = some st) : u.doRestore r id src a t1 = (u, just st) := by
  unfold State.doRestore
  dsimp only
  rw [if_neg hs, hj]

variable (hj : u.jobFails r = none)
include hj

theorem doRestore_busy (hb : u.snapBusy = true) : u.doRestore r id src a t1 = (u, just stBUSY) := by
  unfold State.doRestore
  dsimp only
  rw [if_neg hs, hj]
  exact if_pos hb

variable (hb : u.snapBusy = false)
include hb

theorem doRestore_running (hh : ¬u.jobStill r.job.toNat) : u.doRestore r id src a t1 = (u, just stNOTHALTED) := by
  unfold State.doRestore
  dsimp only
  rw [if_neg hs, hj]
  dsimp only
  rw [if_neg (by simp [hb]), if_pos (any_running_iff.mpr hh)]

variable (hh : u.jobStill r.job.toNat)
include hh

theorem doRestore_runningElsewhere (he : u.haltedElsewhere = false) :
    u.doRestore r id src a t1 = (u.draw, just stNOTHALTED) := by
  unfold State.doRestore
  dsimp only
  rw [if_neg hs, hj]
  dsimp only
  rw [if_neg (by simp [hb]), if_neg (fun h => any_running_iff.mp h hh), if_pos (by simp [he])]

variable (he : u.haltedElsewhere = true)
include he

theorem doRestore_noImage (hx : u.imageAt src a = none) : u.doRestore r id src a t1 = (u.draw, just stMISMATCH) := by
  unfold State.doRestore
  dsimp only
  rw [if_neg hs, hj]
  dsimp only
  rw [if_neg (by simp [hb]), if_neg (fun h => any_running_iff.mp h hh), if_neg (by simp [he]), hx]

variable {x : Image} (hx : u.imageAt src a = some x)
include hx

theorem doRestore_mismatch (hf : u.imageFits x r.job.toNat id = false) :
    u.doRestore r id src a t1 = (u.draw, just stMISMATCH) := by
  unfold State.doRestore
  dsimp only
  rw [if_neg hs, hj]
  dsimp only
  rw [if_neg (by simp [hb]), if_neg (fun h => any_running_iff.mp h hh), if_neg (by simp [he]), hx]
  dsimp only
  rw [if_pos (by simp [hf])]

variable (hf : u.imageFits x r.job.toNat id = true)
include hf

theorem doRestore_unauthentic (hk : x.key = none ∨ x.key ≠ u.sec.csk ∨ u.failingUnit x.blocks.length < 3) :
    u.doRestore r id src a t1 = (u.draw, just stAUTH) := by
  unfold State.doRestore
  dsimp only
  rw [if_neg hs, hj]
  dsimp only
  rw [if_neg (by simp [hb]), if_neg (fun h => any_running_iff.mp h hh), if_neg (by simp [he]), hx]
  dsimp only
  rw [if_neg (by simp [hf]), if_pos (by simpa only [Option.isNone_iff_eq_none] using hk)]

variable (hk : x.key ≠ none) (hc : x.key = u.sec.csk) (h3 : 3 ≤ u.failingUnit x.blocks.length)
include hk hc h3

/-- An image whose key and first units verify is read as far as its tree. -/
theorem doRestore_verified : u.doRestore r id src a t1 =
    ((u.draw.restoreTree r.job.toNat x.tree).elim (u.draw, just stNOTABLES) fun t =>
      (t.awaitRestore r x t1 (u.failingUnit x.blocks.length), none)) := by
  have hauth : ¬(x.key.isNone = true ∨ x.key ≠ u.sec.csk ∨ u.failingUnit x.blocks.length < 3) := by
    rw [Option.isNone_iff_eq_none]
    rintro (h | h | h)
    · exact hk h
    · exact h hc
    · exact absurd h (not_lt.mpr h3)
  unfold State.doRestore
  dsimp only
  rw [if_neg hs, hj]
  dsimp only
  rw [if_neg (by simp [hb]), if_neg (fun h => any_running_iff.mp h hh), if_neg (by simp [he]), hx]
  dsimp only
  rw [if_neg (by simp [hf]), if_neg hauth]
  rcases u.draw.restoreTree r.job.toNat x.tree with _ | t <;> rfl

end

/-! ### TEST, CALIBRATE and RETIRE (R420 to R424, R499 to R502) -/

section
variable {u : State} {r : Req} {kind core tile windows : Nat}

theorem doTest_fails {st : Nat} (hf : u.testFails kind core tile windows = some st) :
    u.doTest r kind core tile windows = (u, just st) := by
  rw [State.doTest, hf]

theorem doTest_asks (hf : u.testFails kind core tile windows = none) :
    u.doTest r kind core tile windows = (u.askTest ⟨some r, kind, core, tile, windows, false⟩, none) := by
  rw [State.doTest, hf]

theorem doCalibrate_none : u.doCalibrate r 0 = (u, just stSUCCESS) := if_pos rfl

theorem doCalibrate_asks {cal : Nat} (hc : cal ≠ 0) :
    u.doCalibrate r cal = (u.askTest ⟨some r, 5, 0, 0, cal, false⟩, none) := if_neg hc

theorem doRetire_bad (h : kind = 0 ∨ 3 < kind ∨ 7 < core ∨ (kind = 1 ∧ 7 < tile)) :
    u.doRetire kind core tile = (u, just stBADPARAM) := if_pos h

theorem doRetire_noCore (h : ¬(kind = 0 ∨ 3 < kind ∨ 7 < core ∨ (kind = 1 ∧ 7 < tile))) (hp : u.present core = false) :
    u.doRetire kind core tile = (u, just stNOCORE) := by
  rw [State.doRetire, if_neg h, if_pos (by simp [hp])]

section
variable (hc : core ≤ 7) (hp : u.present core = true)
include hc hp

section
variable (ht : tile ≤ 7)
include ht

theorem doRetire_tileRetired (hg : (u.core core).retired = true ∨ u.tileState core tile = 3) :
    u.doRetire 1 core tile = (u, just stRETIRED) := by
  rw [State.doRetire, if_neg (by omega), if_neg (by simp [hp]), if_neg (by decide), if_neg (by decide), if_pos hg]

theorem doRetire_tile (hg : (u.core core).retired = false) (hs : u.tileState core tile ≠ 3) :
    u.doRetire 1 core tile = (u.retireTile core tile (u.recentEvents core 2 tile), just 0) := by
  rw [State.doRetire, if_neg (by omega), if_neg (by simp [hp]), if_neg (by decide), if_neg (by decide),
    if_neg (by simp [hg, hs])]
  rfl

end

theorem doRetire_coreRuns (hs : ¬(u.streamState core ≠ 1 ∧ (u.core core).window = [])) :
    u.doRetire 2 core tile = (u, just stBUSY) := by
  have hbusy : u.streamState core = 1 ∨ (!(u.core core).window.isEmpty) = true := by
    by_cases h1 : u.streamState core = 1
    · exact .inl h1
    · exact .inr (by simpa using fun hw => hs ⟨h1, hw⟩)
  rw [State.doRetire, if_neg (by omega), if_neg (by simp [hp]), if_neg (by decide), if_pos rfl, if_pos hbusy]

section
variable (hs : u.streamState core ≠ 1 ∧ (u.core core).window = [])
include hs

theorem doRetire_coreRetired (hg : (u.core core).retired = true) : u.doRetire 2 core tile = (u, just stRETIRED) := by
  rw [State.doRetire, if_neg (by omega), if_neg (by simp [hp]), if_neg (by decide), if_pos rfl,
    if_neg (by simp [hs.1, hs.2]), if_pos hg]

theorem doRetire_core (hg : (u.core core).retired = false) :
    u.doRetire 2 core tile = (u.retireCore core, just 0) := by
  rw [State.doRetire, if_neg (by omega), if_neg (by simp [hp]), if_neg (by decide), if_pos rfl,
    if_neg (by simp [hs.1, hs.2]), if_neg (by simp [hg])]
  rfl

end

theorem doRetire_clears : u.doRetire 3 core tile = (u.clearRetired core, just 0) := by
  rw [State.doRetire, if_neg (by omega), if_neg (by simp [hp]), if_pos rfl]
  rfl

end

end

/-! ### ATTEST and PATCH_LOAD (R503, R504, R519) -/

section
variable {u : State} {nonce table : Bytes} {a len : Nat}

theorem doAttest_unaligned (ha : a % 64 ≠ 0) : u.doAttest nonce a = (u, just stBADPARAM) := if_pos ha

theorem doPatchLoad_unaligned (ha : a % 64 ≠ 0) : u.doPatchLoad a len table = (u, just stBADPARAM) := if_pos ha

section
variable (ha : a % 64 = 0)
include ha

theorem doAttest_noKey (hk : u.sec.akSeed = none ∨ u.get Reg.SEC.AK_VALID = 0) :
    u.doAttest nonce a = (u, just stAUTH) := by
  rw [State.doAttest, if_neg (not_not.mpr ha)]
  rcases hseed : u.sec.akSeed with _ | seed
  · rfl
  · have hv : u.get Reg.SEC.AK_VALID = 0 := hk.resolve_left (by simp [hseed])
    exact if_pos hv

theorem doAttest_signs {seed : Nat} (hs : u.sec.akSeed = some seed) (hv : u.get Reg.SEC.AK_VALID ≠ 0) :
    u.doAttest nonce a = ((u.draw.inc Reg.SEC.SIGN_CNT 1).hostPost a (u.report nonce seed), some (0, 4864, 0)) := by
  rw [State.doAttest, if_neg (not_not.mpr ha), hs]
  exact if_neg hv

theorem doPatchLoad_fails {st : Nat} (hf : u.patchFails (slice 0 len table) len = some st) :
    u.doPatchLoad a len table = (u, just st) := by
  unfold State.doPatchLoad
  dsimp only
  rw [if_neg (not_not.mpr ha), hf]

theorem answered_doPatchLoad (r : Req) (hf : u.patchFails (slice 0 len table) len = none) :
    let t := slice 0 len table
    let v := u.inc Reg.SEC.VERIFY_CNT 1
    State.answered r (u.doPatchLoad a len table) = if Config.verifies 7 t then
      ({ v with host := { v.host with patch := some t } }.put Reg.SEC.VERSION (field t 4 4)).finish r 0 0 0
      else (v.verifyFail 1 0 2).finish r stAUTH 0 0 := by
  intro t v
  unfold State.doPatchLoad
  dsimp only
  rw [if_neg (not_not.mpr ha), hf]
  exact apply_ite (State.answered r) _ _ _

end

end

/-! ### CONFIG_FORM (R480, R515) -/

section
variable {s : State} {r : Req} {members mode answers greatest feeds : Nat} {dup : Bool}

theorem configForm_down (hd : s.host.sillDown = true) : s.configForm r members mode answers dup greatest feeds = s := if_pos hd

/-- The devices that a CONFIG_FORM concerns, this one among them where it forms a configuration. -/
def State.formed (s : State) (members mode : Nat) : Nat := if mode = 0 then members ||| 2 ^ s.dev else members

/-- Those of them that have not answered. -/
def State.unanswered (s : State) (members mode answers : Nat) : List Nat :=
  (devicesOf (s.formed members mode)).filter fun d => d ≠ s.dev && !(bitOf answers d && (s.route d).isSome)

/-- The forming that a CONFIG_FORM asks for. -/
def State.formingOf (s : State) (r : Req) (members mode answers greatest feeds : Nat) : Forming :=
  ⟨r, s.formed members mode, s.unanswered members mode answers, greatest, s.ownFeeds feeds, s.now⟩

section
variable (hd : s.host.sillDown = false)
include hd

theorem configForm_fails {st : Nat} (hf : s.formFails r members mode dup = some st) :
    s.configForm r members mode answers dup greatest feeds = s.pushDue r st 0 0 s.dev := by
  rw [State.configForm, if_neg (by simp [hd]), hf]

variable (hf : s.formFails r members mode dup = none)
include hf

theorem configForm_waits (hm : s.unanswered members mode answers ≠ []) :
    let v := s.letWait r
    s.configForm r members mode answers dup greatest feeds =
      { v with host := { v.host with forming := some (s.formingOf r members mode answers greatest feeds) } } := by
  rw [State.configForm, if_neg (by simp [hd]), hf]
  exact if_pos (by simpa [State.unanswered, State.formed] using hm)

section
variable (hm : s.unanswered members mode answers = [])
include hm

/-- Once every device has answered, the configuration is formed or completed. -/
theorem configForm_goes : s.configForm r members mode answers dup greatest feeds =
    if mode = 0 then (s.letWait r).beginForm (s.formingOf r members mode answers greatest feeds)
    else (s.letWait r).rejoin (s.formingOf r members mode answers greatest feeds) := by
  rw [State.configForm, if_neg (by simp [hd]), hf]
  exact if_neg (by rw [← State.formed, ← State.unanswered, hm]; decide)

theorem configForm_forms (h0 : mode = 0) : s.configForm r members mode answers dup greatest feeds =
    (s.letWait r).beginForm (s.formingOf r members mode answers greatest feeds) :=
  (configForm_goes hd hf hm).trans (if_pos h0)

theorem configForm_rejoins (h0 : mode ≠ 0) : s.configForm r members mode answers dup greatest feeds =
    (s.letWait r).rejoin (s.formingOf r members mode answers greatest feeds) :=
  (configForm_goes hd hf hm).trans (if_neg h0)

end

end

end

/-! ### The commands -/

theorem serves_target {s u : State} {r : Req} (h : s.serves r .target u) :
    s.phase = .up ∧ r.target.toNat = s.dev ∧ u = s := by
  obtain ⟨hp, -, -, -, ⟨-, ht, hu⟩ | ⟨hg, -⟩⟩ := h
  · exact ⟨hp, ht, hu⟩
  · simp [State.group] at hg

section
variable {s u : State} {r : Req}

theorem exec_snapOpen {id : BitVec 32} {va a b : BitVec 64} (h : s.serves r .all u fun d => mkEntry 0x0202 r d
    [(16, 4, id.toNat), (24, 8, va.toNat), (32, 8, a.toNat), (40, 8, b.toNat), (48, 8, s.now)]) :
    exec (.snapOpen r id va a b) s =
      .next ((State.answered r (u.doSnapOpen r id.toNat va.toNat a.toNat b.toNat s.now)).keeping s) := by
  have hserve := serve_of_serves h false (State.doSnapOpen r id.toNat va.toNat a.toNat b.toNat s.now)
  rw [whenLive_up h.1] at hserve
  change execSnapOpen r id va a b s = _
  rw [execSnapOpen, whenLive_up h.1, hserve]

section
variable (h : s.serves r .target u)
include h

theorem exec_restore (id : BitVec 32) (src : BitVec 8) (a t1 : BitVec 64) :
    exec (.restore r id src a t1) s =
      .next ((State.answered r (u.doRestore r id.toNat src.toNat a.toNat t1.toNat)).keeping s) :=
  serve_of_serves (serves_entry h (.inl rfl) _) false (State.doRestore r id.toNat src.toNat a.toNat t1.toNat)

theorem exec_test (kind core tile : BitVec 8) (windows : BitVec 32) :
    exec (.test r kind core tile windows) s =
      .next ((State.answered r (u.doTest r kind.toNat core.toNat tile.toNat windows.toNat)).keeping s) :=
  serve_of_serves (serves_entry h (.inl rfl) _) false (State.doTest r kind.toNat core.toNat tile.toNat windows.toNat)

theorem exec_calibrate (cal : BitVec 16) :
    exec (.calibrate r cal) s = .next ((State.answered r (u.doCalibrate r cal.toNat)).keeping s) :=
  serve_of_serves (serves_entry h (.inl rfl) _) false (State.doCalibrate r cal.toNat)

theorem exec_retire (kind core tile : BitVec 8) :
    exec (.retire r kind core tile) s =
      .next ((State.answered r (u.doRetire kind.toNat core.toNat tile.toNat)).keeping s) :=
  serve_of_serves (serves_entry h (.inl rfl) _) false (State.doRetire kind.toNat core.toNat tile.toNat)

theorem exec_attest (nonce : Bytes) (a : BitVec 64) :
    exec (.attest r nonce a) s = .next ((State.answered r (u.doAttest nonce a.toNat)).keeping s) :=
  serve_of_serves (serves_entry h (.inl rfl) _) false (State.doAttest nonce a.toNat)

theorem exec_patchLoad_waits (ho : s.otherHandlers r = true) (a : BitVec 64) (len : BitVec 32) (table : Bytes) :
    exec (.patchLoad r a len table) s = .next s := by
  obtain ⟨hu, ht, -⟩ := serves_target h
  change execPatchLoad r a len table s = _
  rw [execPatchLoad, whenLive_up hu, if_pos ⟨ho, ht⟩, State.keeping_self]

theorem exec_patchLoad (ho : s.otherHandlers r = false) (a : BitVec 64) (len : BitVec 32) (table : Bytes) :
    exec (.patchLoad r a len table) s =
      .next ((State.answered r (u.doPatchLoad a.toNat len.toNat table)).keeping s) := by
  obtain ⟨hu, -⟩ := serves_target h
  have hserve := serve_of_serves (serves_entry h (.inl rfl) fun d => mkEntry 0x0304 r d [(16, 8, a.toNat), (24, 4, len.toNat)])
    false (State.doPatchLoad a.toNat len.toNat table)
  rw [whenLive_up hu] at hserve
  change execPatchLoad r a len table s = _
  rw [execPatchLoad, whenLive_up hu, if_neg (by simp [ho]), hserve]

end

theorem exec_configForm (hu : s.phase = .up) (members : BitVec 64) (mode : BitVec 8) (answers : BitVec 64) (dup : Bool)
    (greatest : BitVec 64) (feeds : BitVec 256) : exec (.configForm r members mode answers dup greatest feeds) s =
      .next ((s.configForm r members.toNat mode.toNat answers.toNat dup greatest.toNat feeds.toNat).keeping s) :=
  whenLive_up hu fun s => s.configForm r members.toNat mode.toNat answers.toNat dup greatest.toNat feeds.toNat

end

/-- Settles O50: each command performs its part by the case of its function that its premises name. -/
theorem serviceCommandsAct : Obligations.ServiceCommandsAct := by
  intro r id va a b t1 src kind core tile mode windows cal nonce table len dup feeds s u fails job
  refine ⟨fun h => ⟨?_, fun ha => ⟨?_, ?_, ?_⟩⟩,
    fun h => ⟨?_, fun hs => ?_, ?_, ?_, ?_, ?_, ?_, ?_, fun hc hp => ⟨fun ht => ⟨?_, ?_⟩, ?_, ?_, ?_, ?_⟩, ?_,
      fun ha => ⟨?_, ?_⟩, ?_, ?_⟩, ?_, fun hu hd => ⟨?_, ?_⟩⟩
  case refine_1 =>
    intro ha
    rw [exec_snapOpen h, doSnapOpen_unaligned ha, answered_just]
  case refine_2 =>
    intro st hj
    rw [exec_snapOpen h, doSnapOpen_badJob ha hj, answered_just]
  case refine_3 =>
    intro hj hb
    rw [exec_snapOpen h, doSnapOpen_busy ha hj hb, answered_just]
  case refine_4 =>
    intro hj hb
    generalize hp : u.readParam r va.toNat 64 = p
    obtain ⟨z, o⟩ := p
    refine ⟨?_, ?_⟩
    · rintro st rfl
      rw [exec_snapOpen h, doSnapOpen_unread ha hj hb hp, answered_just]
    · rintro x rfl
      intro ranges y v
      refine ⟨fun hr => ?_, fun hr hs => ?_, fun hr hs => ?_⟩
      · rw [exec_snapOpen h, doSnapOpen_badRanges ha hj hb hp hr, answered_just]
      · rw [exec_snapOpen h, doSnapOpen_noSpace ha hj hb hp hr hs, answered_just]
      · rw [exec_snapOpen h, doSnapOpen_asks ha hj hb hp hr hs, answered_none]
        rfl
  case refine_5 =>
    intro hbad
    rw [exec_restore h, doRestore_bad, answered_just]
    exact hbad.imp_right fun ⟨hs, ha⟩ => ⟨congrArg BitVec.toNat hs, ha⟩
  case refine_6 =>
    have hgood : ¬(1 < src.toNat ∨ (src.toNat = 1 ∧ a.toNat % 64 ≠ 0)) := by
      obtain rfl | ⟨rfl, ha⟩ := hs
      · simp
      · simp [ha]
    intro halted
    rw [exec_restore h]
    refine ⟨fun st hj => ?_, fun hj hb => ?_, fun hj hb => ⟨fun hh => ?_, fun hh he => ?_, fun hh he hx => ?_, ?_⟩⟩
    · rw [doRestore_badJob hgood hj, answered_just]
    · rw [doRestore_busy hgood hj hb, answered_just]
    · rw [doRestore_running hgood hj hb hh, answered_just]
    · rw [doRestore_runningElsewhere hgood hj hb hh he, answered_just]
    · rw [doRestore_noImage hgood hj hb hh he hx, answered_just]
    · intro x hh he hx bad
      refine ⟨fun hf => ?_, fun hf => ⟨fun hk => ?_, fun hk hc h3 => ?_⟩⟩
      · rw [doRestore_mismatch hgood hj hb hh he hx hf, answered_just]
      · rw [doRestore_unauthentic hgood hj hb hh he hx hf hk, answered_just]
      · rw [doRestore_verified hgood hj hb hh he hx hf hk hc h3]
        refine ⟨fun ht => ?_, fun t ht => ?_⟩
        · rw [ht]
          rfl
        · rw [ht]
          rfl
  case refine_7 =>
    intro st hf
    rw [exec_test h, doTest_fails hf, answered_just]
  case refine_8 =>
    intro hf
    rw [exec_test h, doTest_asks hf, answered_none]
  case refine_9 =>
    rintro rfl
    exact exec_calibrate h 0
  case refine_10 =>
    intro hc
    rw [exec_calibrate h, doCalibrate_asks fun h0 => hc (BitVec.eq_of_toNat_eq h0), answered_none]
  case refine_11 =>
    intro hbad
    rw [exec_retire h, doRetire_bad, answered_just]
    exact hbad.imp (congrArg BitVec.toNat) (Or.imp_right (Or.imp_right fun ⟨hk, ht⟩ => ⟨congrArg BitVec.toNat hk, ht⟩))
  case refine_12 =>
    intro hk hc hp
    rw [exec_retire h, doRetire_noCore _ hp, answered_just]
    obtain ⟨rfl, ht⟩ | rfl | rfl := hk
    · simp [hc, ht]
    · simp [hc]
    · simp [hc]
  case refine_13 =>
    intro hg
    rw [exec_retire h, show (1 : BitVec 8).toNat = 1 from rfl, doRetire_tileRetired hc hp ht hg, answered_just]
  case refine_14 =>
    intro hg hs
    rw [exec_retire h, show (1 : BitVec 8).toNat = 1 from rfl, doRetire_tile hc hp ht hg hs, answered_just]
  case refine_15 =>
    intro hs
    rw [exec_retire h, show (2 : BitVec 8).toNat = 2 from rfl, doRetire_coreRuns hc hp hs, answered_just]
  case refine_16 =>
    intro hs hg
    rw [exec_retire h, show (2 : BitVec 8).toNat = 2 from rfl, doRetire_coreRetired hc hp hs hg, answered_just]
  case refine_17 =>
    intro hs hg
    rw [exec_retire h, show (2 : BitVec 8).toNat = 2 from rfl, doRetire_core hc hp hs hg, answered_just]
  case refine_18 =>
    rw [exec_retire h, show (3 : BitVec 8).toNat = 3 from rfl, doRetire_clears hc hp, answered_just]
  case refine_19 =>
    intro ha
    rw [exec_attest h, doAttest_unaligned ha, answered_just]
  case refine_20 =>
    intro hk
    rw [exec_attest h, doAttest_noKey ha hk, answered_just]
  case refine_21 =>
    intro seed hs hv
    rw [exec_attest h, doAttest_signs ha hs hv]
    rfl
  case refine_22 =>
    exact fun ho => exec_patchLoad_waits h ho a len table
  case refine_23 =>
    intro ho t v
    rw [exec_patchLoad h ho]
    refine ⟨fun ha => ?_, fun st ha hf => ?_, fun ha hf => ?_⟩
    · rw [doPatchLoad_unaligned ha, answered_just]
    · rw [doPatchLoad_fails ha hf, answered_just]
    · rw [answered_doPatchLoad ha r hf]
  case refine_24 =>
    intro hu hd
    rw [exec_configForm hu, configForm_down hd, State.keeping_self]
  case refine_25 =>
    intro st hf
    rw [exec_configForm hu, configForm_fails hd hf]
  case refine_26 =>
    intro hf all missing f v
    rw [exec_configForm hu]
    exact ⟨fun hm => next_keeping (configForm_waits hd hf hm), fun hm h0 => next_keeping (configForm_forms hd hf hm h0),
      fun hm h0 => next_keeping (configForm_rejoins hd hf hm h0)⟩

end Sys2Proof.Machine
end
